-- ==== Sys2Proof/Word.lean ====
section
/-! DEFINITION. Word.lean: the word types of the block and the one container every sparse piece of its state uses.

A `Tbl α` is a list of (key, value) pairs in ONE canonical form: keys strictly rising, and no pair whose value is the
value an unlisted key reads as. So equal tables are equal lists. Registers, memories, tables and record files of the
Falber 9616 (granules, page-map entries, key slots, tenancy records) are all held this way. -/

namespace Sys2Proof

/-- A 32-bit register (R565). -/
abbrev Reg := BitVec 32
/-- One line of 64 B (R1). -/
abbrev Line := BitVec 512
/-- One byte. -/
abbrev Byte := BitVec 8

/-- A sparse table keyed by Nat: the listed (key, value) pairs in rising key order. -/
abbrev Tbl (α : Type) := List (Nat × α)

/-- The value at key `k`, `d` where the key is not listed. -/
def Tbl.get {α : Type} (d : α) : Tbl α → Nat → α
  | [], _ => d
  | (i, v) :: t, k => if i = k then v else Tbl.get d t k

/-- Remove key `k`. -/
def Tbl.erase {α : Type} : Tbl α → Nat → Tbl α
  | [], _ => []
  | (i, v) :: t, k => if i = k then t else if k < i then (i, v) :: t else (i, v) :: Tbl.erase t k

/-- List key `k` with value `x`, in its place. -/
def Tbl.insert {α : Type} : Tbl α → Nat → α → Tbl α
  | [], k, x => [(k, x)]
  | (i, v) :: t, k, x =>
    if i = k then (k, x) :: t else if k < i then (k, x) :: (i, v) :: t else (i, v) :: Tbl.insert t k x

/-- Write `x` at key `k`: writing the value an unlisted key reads as removes the entry. -/
def Tbl.set {α : Type} [DecidableEq α] (d : α) (t : Tbl α) (k : Nat) (x : α) : Tbl α :=
  if x = d then t.erase k else t.insert k x

/-- The value listed at key `k`, if any. -/
def Tbl.find? {α : Type} : Tbl α → Nat → Option α
  | [], _ => none
  | (i, v) :: t, k => if i = k then some v else Tbl.find? t k

/-- The keys of a table, rising. -/
def Tbl.keys {α : Type} (t : Tbl α) : List Nat := t.map Prod.fst

/-- Every listed key is at least `n` and the keys rise strictly; no listed value is `d`. -/
def Tbl.wfFrom {α : Type} [DecidableEq α] (d : α) : Nat → Tbl α → Bool
  | _, [] => true
  | n, (i, v) :: t => decide (n ≤ i) && decide (v ≠ d) && Tbl.wfFrom d (i + 1) t

/-- The canonical form. -/
def Tbl.wf {α : Type} [DecidableEq α] (d : α) (t : Tbl α) : Bool := Tbl.wfFrom d 0 t

/-- `lo` up to `hi - 1`. -/
def range' (lo n : Nat) : List Nat := (List.range n).map (lo + ·)

/-- Division rounded up. -/
def ceilDiv (a b : Nat) : Nat := (a + b - 1) / b

/-- Field [hi:lo] of a register, as a number (R10). -/
def fld (r : Reg) (hi lo : Nat) : Nat := (r.toNat / 2 ^ lo) % 2 ^ (hi + 1 - lo)

/-- Bit `i` of a register (R10). -/
def bit (r : Reg) (i : Nat) : Bool := r.toNat.testBit i

/-- A register with field [hi:lo] set to `v` and every other bit kept (R10). -/
def setFld (r : Reg) (hi lo v : Nat) : Reg :=
  BitVec.ofNat 32 (r.toNat - fld r hi lo * 2 ^ lo + (v % 2 ^ (hi + 1 - lo)) * 2 ^ lo)

/-- A Bool as a bit. -/
def b2n (b : Bool) : Nat := if b then 1 else 0

end Sys2Proof
end

