-- ==== Sys2Proof/Syntax.lean ====
section
/-! DEFINITION. Syntax.lean: the commands the block takes, one constructor of `Instr` per row of spec/opcode_table.json,
with the row's operands. A command of The Command Interface carries its packet header (R387) and its parameters in the
order the opcode table of R400 lists them; an event of the hardware carries what comes from outside the model's state
(what arrives on a pin or a link, what a DRAM delivers, what a sensor reads, what a test finds). -/

namespace Sys2Proof

/-- The transport a packet came by (R395), with what identifies its endpoint (R390). -/
inductive Via where
  /-- the primary mailbox of the function that maps the management window on port `port` (R45, R394) -/
  | mailbox (port : Nat)
  /-- the primary mailbox of tenant LD `ld` on an MLD port (R45, R394) -/
  | ldMailbox (port ld : Nat)
  /-- the sideband endpoint ID `eid`; `session`: inside an SPDM session (R65, R394) -/
  | mctp (eid : Nat) (session : Bool)
  /-- the steward session on port `port`'s DOE mailbox (R66, R394) -/
  | steward (port : Nat)
  /-- command ring `k` (R397) -/
  | ring (k : Nat)
  deriving DecidableEq, Repr

/-- The 16 B packet header of a command (R387) with the transport it came by. -/
structure Hdr where
  via : Via
  /-- SEQ, bytes 2–3 -/
  seq : Nat
  /-- bytes 4–5: [9:0] TEN, [15:10] reserved -/
  tenWord : Nat
  /-- FLAGS, bytes 6–7 -/
  flags : Nat
  /-- PLEN, bytes 8–11 -/
  plen : Nat
  /-- bytes 12–15, reserved -/
  rsvd : Nat
  /-- the mailbox's CXL opcode (R395, R396); not used by the other transports -/
  cxlOp : Nat
  deriving DecidableEq, Repr

/-- The FCX request extension of an M2S message (R52). -/
structure Ext where
  gen : Nat
  ttag : Nat
  kidx : Nat
  ksel : Bool
  dcode : Nat
  cc : Bool
  coh : Nat
  deriving DecidableEq, Repr

/-- One CXL.mem M2S request header as a port receives it. `ld` is the LD-ID (MLD ports), `ext` the FCX companion slot
(read only on a port in FCX mode, R51), `metaV` the MetaValue of a standard-mode domain request (R178: 0 I, 1 A, 2 S;
any other number: no MetaValue). -/
structure M2S where
  port : Nat
  ld : Nat
  tag : Nat
  ta : Nat
  ext : Ext
  metaV : Nat
  deriving DecidableEq, Repr

/-- RSP of a snoop response (R154). -/
inductive Rsp where
  | rspI | rspS | rspIData | rspSData | rspOData | rspCurData | rspIWbPending | reserved
  deriving DecidableEq, Repr

/-- The source of a register access: master identity (R15), its port for a host, its world (R410), whether it is made through
JTAG with master 13's rights (R426), and for a host on an MLD port the LD whose BAR0 it comes through (R45), 31 the FM-owned one. -/
structure Src where
  master : Nat
  port : Nat
  secure : Bool
  jtag : Bool
  ld : Nat := 31
  deriving DecidableEq, Repr

/-- The ECC decoder's verdict on a granule or CHK's verdict on an HBM line (R197, R211): the code's generator is not
published, so the verdict comes with the arrival. -/
inductive Ecc where
  | clean | corrected | uncorrectable
  deriving DecidableEq, Repr

/-- A granule as DRAM or the HBM cache delivers it after ECC decoding: ciphertext and the sideband fields of R195. -/
structure Granule where
  data : Line
  tag : Nat
  kic : Nat
  poison : Bool
  kind : Nat
  unwritten : Bool
  deriving DecidableEq, Repr

/-- What comes back when a granule is read: the ECC verdict, and the granule when it differs from the one stored
(`none`: as stored). -/
structure Arrival where
  ecc : Ecc
  altered : Option Granule
  /-- an error of more than 4 symbols: what erasure-decoding each device in turn gives (R197), in place of `ecc` -/
  trial : Option (List Granule) := none
  /-- the codec that decodes the granule's pane errs on it, while the stream is sound (R295) -/
  slip : Bool := false
  deriving DecidableEq, Repr

/-- An arrival without error: the stored granule, clean. -/
def Arrival.asStored : Arrival := { ecc := .clean, altered := none }

/-- What comes back when a counter node is read (R211, R237): CHK's verdict on an HBM line, and whether the node and MAC
that arrive differ from those stored. -/
structure NodeArrival where
  chk : Ecc
  altered : Bool
  deriving DecidableEq, Repr

/-- A contract's terms from class onward (R85, the CON_CREATE fields of R400). -/
structure Terms where
  cls : Nat
  rd : Nat
  wr : Nat
  prec : Nat
  peak : Nat
  fetch : Nat
  bays : List Nat
  deriving DecidableEq, Repr

/-- BAY_ADD's parameters (R400). -/
structure BayAddP where
  ten : Nat
  bay : Nat
  mode : Nat
  cache : Nat
  defKey : Nat
  set : Nat
  policy : Nat
  primary : Nat
  secondary : Nat
  quota : Nat
  deriving DecidableEq, Repr

/-- MEM_CFG's parameters (R400); 0xFFFF_FFFF leaves a register unchanged. -/
structure MemCfgP where
  tir : Nat
  map : Nat
  hbc : Nat
  itr : Nat
  cje : Nat
  deriving DecidableEq, Repr

/-- An IDE_KM message inside an SPDM session (R62). `key`: program key set `keySet` of the stream; `go`: make a key
set active, on CXL.mem in skid or containment mode; `stop`: stop the stream. `mem`: the CXL.mem stream, else CXL.io. -/
inductive IdeMsg where
  | key (mem : Bool) (keySet : Nat) (value : Nat)
  | go (mem : Bool) (keySet : Nat) (containment : Bool)
  | stop (mem : Bool)
  deriving DecidableEq, Repr

/-- The channel an SPDM request comes by: a port's DOE mailbox or the sideband (R65). -/
inductive SpdmCh where
  | doe (port : Nat)
  | sideband
  deriving DecidableEq, Repr

/-- The staged groups, one per commit register (R104, R111). -/
inductive Group where
  | hpt (port : Nat)
  | trs | lvr | dom | itr | pcx | cje | tir | hbc | ten | pwr | flt | pmu
  deriving DecidableEq, Repr

/-- The register pairs whose LO read latches HI (R112, R494, R530, R573). -/
inductive LatchPair where
  | trsCount | genTime | pwrWakeTime | pwrSleepStart | pwrSleepEnd
  | pwrRes (k : Nat)
  | pmuCtr (k : Nat)
  deriving DecidableEq, Repr

/-- The parts of a key flush that report complete (R263). -/
inductive FlushPart where
  | cache | lanes | pendingImages | codecJob
  deriving DecidableEq, Repr

/-- A link's condition after training or retraining (R34, R35): speed code as MAX_SPEED encodes it (0 2.5 … 5 64 GT/s),
width x8, and the flit mode as LINK_STATUS.FLIT encodes it. -/
structure LinkInfo where
  speed : Nat
  x8 : Bool
  flit : Nat
  deriving DecidableEq, Repr

/-- One reading of one DIMM's SPD hub and PMIC (R134, R544): temperature in °C, output power in 0.1 W, the warnings. -/
structure DimmReading where
  ok : Bool
  present : Bool
  negative : Bool
  temp : Nat
  power : Nat
  highTemp : Bool
  critical : Bool
  deriving DecidableEq, Repr

/-- What start-up finds on one channel at steps 8 and 9 (R18, R547, R551, R591): DIMMs present, GiB per DIMM, speed
(true DDR5-6400), the GiB of the rank held out of the DGA space as a spare (0 none), whether training and the margin check pass, the SPD serials. -/
structure ChanFound where
  dimms : Nat
  gib : Nat
  fast : Bool
  spareGib : Nat
  trains : Bool
  margin : Bool
  serial0 : Nat
  serial1 : Nat
  deriving DecidableEq, Repr

/-- What a start-up step reports (R547–R552): its check passes; else the failing code (2 WATCHDOG, 3 CHECK, 4 FATAL) is
given by the step, with the failing unit. `found` is what steps 8 and 9 find per channel, `bits` what the cells of steps
2, 5, 8, 10 and 12 show (bad registers, the failing SRAM unit, rows without a repair, failing rows, faulty ways). -/
structure StepInfo where
  ok : Bool
  unit : Nat
  secure : Bool
  found : List ChanFound
  bits : List Nat
  deriving DecidableEq, Repr

/-- What a debug access brings (R260, R429): a write's line, and the keyhole index it selects, if any. -/
structure DbgData where
  line : Line
  key : Option Nat
  deriving DecidableEq, Repr

/-- How a row test leaves its row (R198, R505): whether a soft repair takes, and the granules whose restore cannot be corrected. -/
structure RowRepair where
  repairable : Bool
  lost : List Nat
  deriving DecidableEq, Repr

/-- A rank's copy to its spare that has ended (R198, R511): the channel, and the granules it could not correct. -/
structure SpareDone where
  ch : Nat
  lost : List Nat
  deriving DecidableEq, Repr

/-- The strap selections of R443, each a row index 0 to 7 of its table. -/
structure Straps where
  trip : Nat
  soa : Nat
  retry : Nat
  cool : Nat
  deriving DecidableEq, Repr

/-- Fault records a unit makes by itself (UNIT_ERROR_DETECTED, R499): unit, code, the address and syndrome it reports. -/
structure UnitErr where
  unit : Nat
  code : Nat
  addr : Nat
  syndrome : Nat
  deriving DecidableEq, Repr

/-- The commands of the block, one per row of spec/opcode_table.json, in the table's order. -/
inductive Instr where
  | transomBoundary
  -- the packet commands of R400
  | getIdentity (h : Hdr)
  | getCapacity (h : Hdr)
  | getNotices (h : Hdr) (max : Nat)
  | setNoticeRoute (h : Hdr) (mask eid ring : Nat)
  | ringSetup (h : Hdr) (ring role ten bay offset log2 vector : Nat)
  | tenCreate (h : Hdr) (ten port ld segLen : Nat)
  | tenSet (h : Hdr) (ten cls louvre : Nat)
  | tenReset (h : Hdr) (ten scrub : Nat)
  | tenRemove (h : Hdr) (ten : Nat)
  | tenResize (h : Hdr) (ten segLen : Nat)
  | tenLog (h : Hdr) (ten en entry : Nat)
  | tenHarvest (h : Hdr) (ten : Nat)
  | tenQuery (h : Hdr) (ten : Nat)
  | portSet (h : Hdr) (port cfg : Nat)
  | lvrSet (h : Hdr) (louvre shape target : Nat)
  | lvrGlobal (h : Hdr) (cfg therm pmic map0 map1 : Nat)
  | bayAdd (h : Hdr) (p : BayAddP)
  | bayRemove (h : Hdr) (ten bay force waitMs : Nat)
  | baySet (h : Hdr) (ten bay cache policy quota : Nat)
  | bayQuery (h : Hdr) (ten bay : Nat)
  | storeAdd (h : Hdr) (set : Nat)
  | storeRelease (h : Hdr) (store : Nat)
  | tierSet (h : Hdr) (policy value : Nat)
  | memCfg (h : Hdr) (p : MemCfgP)
  | conCreate (h : Hdr) (ten : Nat) (t : Terms)
  | conChange (h : Hdr) (con : Nat) (t : Terms)
  | conReadmit (h : Hdr) (con : Nat)
  | conDelete (h : Hdr) (con : Nat)
  | conQuery (h : Hdr) (con : Nat)
  | capQuery (h : Hdr)
  | conDefaults (h : Hdr) (cfg : Nat)
  | keyAllow (h : Hdr) (ten : Nat) (list : List Nat)
  | keyRetire (h : Hdr) (a mode phys target : Nat) (list : List (Nat × Nat))
  | keyQuery (h : Hdr) (k : Nat)
  | domCreate (h : Hdr) (dom snpTo : Nat) (members : List Nat)
  | domJoin (h : Hdr) (dom ten : Nat) (list : List Nat)
  | domLeave (h : Hdr) (dom ten : Nat)
  | domDestroy (h : Hdr) (dom ten : Nat)
  | domRebuild (h : Hdr) (dom : Nat) (members : List Nat)
  | domAddBay (h : Hdr) (dom owner bay : Nat) (list : List (Nat × Nat))
  | domQuery (h : Hdr) (dom : Nat)
  | qSetup (h : Hdr) (q cfg key sq cq : Nat)
  | qRestart (h : Hdr) (q : Nat)
  | qDisable (h : Hdr) (q : Nat)
  | qQuery (h : Hdr) (q : Nat)
  | pwrLevel (h : Hdr) (level : Nat)
  | pwrSleep (h : Hdr) (state mask : Nat)
  | pwrQuery (h : Hdr)
  | ohmQuery (h : Hdr)
  | ohmClear (h : Hdr)
  | fltGet (h : Hdr) (unit max : Nat)
  | fltClear (h : Hdr) (unit : Nat)
  | fltInject (h : Hdr) (unit kind : Nat)
  | eventEnable (h : Hdr) (base value : Nat)
  | chReadmit (h : Hdr) (ch : Nat)
  | telCfg (h : Hdr) (entry period : Nat)
  | pmuSelect (h : Hdr) (ctr event chain : Nat)
  | telWindow (h : Hdr) (ten allow : Nat)
  | pmuRead (h : Hdr) (first count : Nat)
  | dimmQuery (h : Hdr) (ch : Nat)
  | fwInfo (h : Hdr)
  | fwWrite (h : Hdr) (image offset : Nat) (data : List Byte)
  | fwVerify (h : Hdr) (image : Nat)
  | fwSelect (h : Hdr) (image : Nat)
  | keepRead (h : Hdr) (first count : Nat)
  | keepWrite (h : Hdr) (k value : Nat)
  | deviceRestart (h : Hdr)
  | dbgNormal (h : Hdr) (invasive peephole : Nat)
  | dbgBind (h : Hdr) (ten : Nat)
  | dbgQuery (h : Hdr)
  | dblClaim (h : Hdr) (secret : Nat) (stewardPort : Nat)
  | dblPropose (h : Hdr) (kind : Nat) (body : List Byte)
  | dblGet (h : Hdr) (id : Nat)
  | dblSign (h : Hdr) (id hmac : Nat)
  | dblWithdraw (h : Hdr) (id : Nat)
  | dblStatus (h : Hdr)
  | unknownOpcode (h : Hdr) (opcode : Nat)
  -- CXL device commands (R44)
  | identify (port ld : Nat)
  | getHealthInfo (port ld : Nat)
  | getTimestamp (port ld : Nat)
  | setTimestamp (port ld value : Nat)
  | getPoisonList (port ld ta lines : Nat)
  | injectPoison (port ld ta : Nat)
  | clearPoison (port ld ta : Nat) (data : Line)
  | sanitize (port ld : Nat)
  | secureErase (port ld : Nat)
  | getLdInfo (port : Nat)
  | getLdAllocations (port : Nat)
  | setLdAllocations (port : Nat)
  | getMhdInfo (port : Nat)
  -- SPDM (R62, R65, R66)
  | getCertificate (ch : SpdmCh) (slot : Nat)
  | challenge (ch : SpdmCh) (slot nonce : Nat)
  | getMeasurements (ch : SpdmCh) (nonce : Nat)
  | keyExchange (ch : SpdmCh) (mutualAuth : Bool)
  | finish (ch : SpdmCh) (session : Nat) (verifies : Bool)
  | keyUpdate (ch : SpdmCh) (session : Nat)
  | heartbeat (ch : SpdmCh) (session : Nat)
  | pskExchange (ch : SpdmCh)
  | ideKm (port session : Nat) (msg : IdeMsg)
  -- register accesses and configuration space
  | commitGo (src : Src) (g : Group)
  | fcxRequest (port ld : Nat) (request : Bool)
  | memEnable (port ld : Nat) (value : Bool)
  | jobDoorbell (src : Src) (q tail : Nat)
  | ringTailWrite (src : Src) (k tail : Nat)
  | secureWindowAccess (src : Src) (offset : Nat) (write : Bool) (value : Nat)
  | latchingRead (src : Src) (p : LatchPair)
  | registerWrite (src : Src) (offset size value : Nat)
  -- CXL.mem requests
  | memRd (m : M2S)
  | memWr (m : M2S) (data : Line)
  | memWrPartial (m : M2S) (data : Line) (mask : BitVec 64)
  -- coherence (R152, R178)
  | rdShared (m : M2S)
  | rdOwn (m : M2S)
  | rdOwnNoData (m : M2S)
  | rdCur (m : M2S)
  | wrBack (m : M2S) (data : Line)
  | cleanEvict (m : M2S)
  | compAck (m : M2S)
  | waitlistStart (dla : Nat)
  | snpData (m : M2S) (data : Line)
  | biRsp (m : M2S) (rsp : Rsp) (dirty : Bool)
  | memInv (m : M2S)
  | biConflict (m : M2S)
  | biConflictAck (m : M2S)
  | snoopLate (dla port : Nat)
  | memberTimeout (dla port : Nat)
  | directorySweepDone (sweep : Nat)
  -- the memory side
  | beQueueEntryTake (txn : Nat)
  | beCrossbarEntry (txn : Nat)
  | channelReplan (ch overhead refresh blocked : Nat)
  | granuleReadReturn (txn dga : Nat) (a : Arrival)
  | nodeFetchReturn (level index : Nat) (a : NodeArrival)
  | dirtyWriteback
  | laneStore (ch : Nat)
  | reencryptGranule (page slot : Nat) (dist : List (Nat × Arrival))
  | leafFillDone (block : Nat)
  | unpinWritebackDone (block : Nat)
  | revalSweepDone
  -- panes
  | paneOperation (page : Nat) (dist : List (Nat × Arrival))
  | holdReceived (slice page : Nat)
  | holdAnswer (slice page : Nat)
  | releaseReceived (slice page : Nat)
  -- tiering, re-key, erase, scrub
  | scanStart (bay : Nat)
  | scanStep (bay lines : Nat)
  | moveCopy (page : Nat) (dist : List (Nat × Arrival))
  | moveCommit (page : Nat)
  | rekeyOperation (a dga : Nat) (dist : List (Nat × Arrival))
  | paneRekeyOperation (a page pane : Nat) (dist : List (Nat × Arrival))
  | eraseLeafReset (a bay : Nat)
  | physFill (a bay : Nat)
  | scrubPage (bay page : Nat)
  | retireDrainEnd (a : Nat)
  | flushPartDone (a : Nat) (part : FlushPart)
  | cacheFlushWalkDone
  | bayDrainEnd (bay : Nat)
  | hostExtentRelease (port ta : Nat)
  | releaseWaitTimeout (entry : Nat)
  | logBufferOr (i : Nat)
  -- the job engine
  | jobFetch (q : Nat)
  | jobComplete (q : Nat)
  -- debug, worlds, claim, keep store
  | debugAccess (ta : Nat) (write : Bool) (data : DbgData)
  | jtagAccess (offset : Nat) (secureHalted : Bool) (write : Bool) (value : Nat)
  | debugHalt (core : Nat)
  | gateEntry (core offset returnAddr : Nat)
  | gateExit (core offset : Nat)
  | claimTimeout
  | keepWriteDone
  -- ports
  | perstAssert (port ns : Nat)
  | perstDeassert (port : Nat)
  | linkDown (port : Nat)
  | linkTrainingDone (port : Nat) (link : Option LinkInfo)
  | linkRetrain (port : Nat) (link : LinkInfo)
  | ideIntegrityFail (port : Nat)
  -- sensors
  | dimmReading (ch slot : Nat) (r : DimmReading)
  | spdInterrupt (ch slot : Nat)
  | dieSensorReading (sensor : Nat) (temp : Int)
  -- power
  | vsettleDone
  | sl1ClockStop
  | sl2Entry
  | sl3Entry (step : Nat)
  | wakeSource (source : Nat)
  | wakeTimer
  | sl2ExitDone
  | sl3ExitDone (badImages : List (Nat × Bool))
  -- telemetry
  | dumpSnapshot
  | dumpRecordDone (slot : Nat)
  | counterWrap (k n : Nat)
  -- faults
  | lineTestDone (txn dga : Nat) (a : Arrival)
  | rowTestDone (ch slot row : Nat) (passed : Bool) (repair : RowRepair)
  | rankSpareDone (c : SpareDone)
  | engineTestDone (unit : Nat) (passed : Bool)
  | doorstopDrainEnd
  | testSkip (seq : Nat)
  | watchdogHang (unit : Nat)
  | ifTimeout (unit : Nat)
  | substitutionDone (unit : Nat) (lost : List Nat)
  | staleOutput (unit epoch : Nat)
  | quarantineTestStart (unit : Nat)
  | shadowEnd (unit : Nat)
  | interruptionEnd (unit : Nat)
  | channelReadmitDone (ch : Nat) (passed : Bool)
  | fltSelfParity
  | injectWindowClose
  -- the Ohmoux link and start-up
  | ohmStatusFrame
  | ohmLinkLost
  | entryLoss
  | startupStepDone (info : StepInfo)
  | stepWatchdog
  -- the Ohmoux die
  | vbusRise (mv : Nat) (straps : Straps) (damaged : Option Nat)
  | vbusFall (mv : Nat)
  | vbusOvervoltage (mv : Nat)
  | vbusOvResume (mv : Nat)
  | presenceDebounced (cdhMv : Nat)
  | prsntRise
  | orderlyShutdown
  | entryGood (voutMv : Nat)
  | seqEnable
  | mainDieRelease
  | fastTrip
  | soaTrip
  | rampTimeout
  | pgTimeout
  | pgLost (k : Nat)
  | cooldownEnd (cdhMv : Nat)
  | goodRunClear
  | presenceCycle
  | fetShortDetect (voutMv : Nat)
  | fetShortRecheck (voutMv : Nat)
  | oringReverse (feedB : Bool)
  | oringTurnOn (feedB : Bool)
  | feedLost (feedB : Bool)
  | statusFrameSend
  | standbyOhmClear (seq : Nat)
  | standbyOhmQuery (seq : Nat)
  -- the rows the table lists last
  | configRequest (port ld : Nat)
  | directorySweepStep (sweep : Nat)
  | cacheFlushWalkStep
  | directoryFetchReturn (dla : Nat) (e : Ecc)
  | pageMapFetchReturn (slice page : Nat) (e : Ecc)
  | unitErrorDetected (e : UnitErr)
  deriving DecidableEq, Repr

end Sys2Proof
end

