-- ==== Sys2Proof/Decode.lean ====
section
/-! DEFINITION. Decode.lean: the command a word spells by the table's bits. No row of spec/opcode_table.json gives bits: the
block's commands arrive as packets, register accesses, bus messages and events, so no word spells one. -/

namespace Sys2Proof

/-- The command read from a word of `nbits` bits: none, for no row gives bits. -/
def decodeTableWord (_nbits _w : Nat) : Option Instr := none

end Sys2Proof
end

