-- ==== Sys2Proof/Machine/Crypto.lean ====
section
/-! DEFINITION. Machine/Crypto.lean: the standard functions the chapters cite by name: AES-256 (FIPS 197), GHASH and GMAC
(SP 800-38D), SHA-384 and HMAC (FIPS 180-4, 198-1), CRC-32C, CRC-32, Adler-32 and CRC-16. The spec does not retell them;
they are written from the standards (PRESUMED, log entry 20). Bytes are Nat below 256. -/

namespace Sys2Proof.Machine

/-- Byte `i` of a number, little-endian (R9). -/
def byteOf (x i : Nat) : Nat := x / 256 ^ i % 256

/-- `n` little-endian bytes of a number. -/
def leBytes (n x : Nat) : List Nat := (List.range n).map (byteOf x)

/-- The number little-endian bytes spell. -/
def ofLe (bs : List Nat) : Nat := bs.foldr (fun b a => b % 256 + 256 * a) 0

/-- The number big-endian bytes spell. -/
def ofBe (bs : List Nat) : Nat := bs.foldl (fun a b => a * 256 + b % 256) 0

/-- `n` big-endian bytes of a number. -/
def beBytes (n x : Nat) : List Nat := (leBytes n x).reverse

/-! ## AES-256 -/

/-- Doubling in GF(2^8) with 0x11B. -/
def xtime (a : Nat) : Nat := if a < 128 then 2 * a else (2 * a - 256) ^^^ 0x1b

/-- Product in GF(2^8). -/
def gmul (a b : Nat) : Nat :=
  ((List.range 8).foldl (fun (r : Nat × Nat) i => (if b.testBit i then r.1 ^^^ r.2 else r.1, xtime r.2)) (0, a)).1

/-- Inverse in GF(2^8): the 254th power. -/
def ginv (a : Nat) : Nat :=
  let a2 := gmul a a; let a3 := gmul a2 a; let a6 := gmul a3 a3; let a12 := gmul a6 a6
  let a15 := gmul a12 a3; let a30 := gmul a15 a15; let a60 := gmul a30 a30; let a120 := gmul a60 a60
  let a126 := gmul a120 a6; let a127 := gmul a126 a
  gmul a127 a127

/-- The AES S-box. -/
def sbox (a : Nat) : Nat :=
  let b := ginv a
  let rot (k : Nat) : Nat := (b * 2 ^ k ||| b / 2 ^ (8 - k)) % 256
  b ^^^ rot 1 ^^^ rot 2 ^^^ rot 3 ^^^ rot 4 ^^^ 0x63

def xorBytes (a b : List Nat) : List Nat := List.zipWith (· ^^^ ·) a b

/-- The key schedule as words of 4 bytes, last first: step `i` adds word `i` (8 ≤ i). -/
def keyStep (ws : List (List Nat)) (i : Nat) : List (List Nat) :=
  let prev := ws.getD 0 []
  let back := ws.getD 7 []
  let t :=
    if i % 8 = 0 then
      let r := (prev.drop 1 ++ prev.take 1).map sbox
      let rc := (List.range (i / 8 - 1)).foldl (fun a _ => xtime a) 1
      xorBytes r [rc, 0, 0, 0]
    else if i % 8 = 4 then prev.map sbox
    else prev
  xorBytes back t :: ws

/-- The 60 words of the expanded AES-256 key, from 32 key bytes. -/
def expandKey (k : List Nat) : List (List Nat) :=
  let w0 := (List.range 8).map fun i => (k.drop (4 * i)).take 4
  ((range' 8 52).foldl keyStep w0.reverse).reverse

def shiftRows (s : List Nat) : List Nat := (List.range 16).map fun i => s.getD ((i + 4 * (i % 4)) % 16) 0

def mixColumn (c : List Nat) : List Nat :=
  (List.range 4).map fun i =>
    gmul 2 (c.getD i 0) ^^^ gmul 3 (c.getD ((i + 1) % 4) 0) ^^^ c.getD ((i + 2) % 4) 0 ^^^ c.getD ((i + 3) % 4) 0

def mixColumns (s : List Nat) : List Nat := (List.range 4).flatMap fun c => mixColumn ((s.drop (4 * c)).take 4)

/-- AES-256 encryption of a 16-byte block under 32 key bytes. -/
def aes256 (key blk : List Nat) : List Nat :=
  let ws := expandKey key
  let rk (r : Nat) : List Nat := ((ws.drop (4 * r)).take 4).flatten
  let s0 := xorBytes blk (rk 0)
  let s := (range' 1 13).foldl (fun s r => xorBytes (mixColumns (shiftRows (s.map sbox))) (rk r)) s0
  xorBytes (shiftRows (s.map sbox)) (rk 14)

/-! ## GHASH and GMAC -/

/-- Product in GF(2^128) of SP 800-38D, blocks as big-endian numbers. -/
def ghashMul (x y : Nat) : Nat :=
  ((List.range 128).foldl (fun (r : Nat × Nat) i =>
    (if x.testBit (127 - i) then r.1 ^^^ r.2 else r.1,
     if r.2 % 2 = 1 then r.2 / 2 ^^^ 0xe1000000000000000000000000000000 else r.2 / 2)) (0, y)).1

/-- GHASH over 16-byte blocks given as big-endian numbers. -/
def ghash (h : Nat) (blocks : List Nat) : Nat := blocks.foldl (fun y b => ghashMul (y ^^^ b) h) 0

/-- Split bytes into big-endian blocks of 16, the last padded with zeros; `n` blocks at most. -/
def blocks16 (bs : List Nat) : List Nat :=
  (List.range ((bs.length + 15) / 16)).map fun i => ofBe (((bs.drop (16 * i)).take 16 ++ List.replicate 16 0).take 16)

/-- The most significant 48 bits of the GMAC of `a` under `key` with pre-counter block `j0` (R199, R208). -/
def gmac48 (key j0 a : List Nat) : Nat :=
  let h := ofBe (aes256 key (List.replicate 16 0))
  let s := ghash h (blocks16 a ++ [a.length * 8 * 2 ^ 64])
  (s ^^^ ofBe (aes256 key j0)) / 2 ^ 80

/-! ## SHA-384 and HMAC -/

/-- The largest `r` below 2^`n` with `r ^ k ≤ x`, bit by bit from the top. -/
def rootOf (k x n : Nat) : Nat :=
  (List.range n).foldl (fun r i => let c := r + 2 ^ (n - 1 - i); if c ^ k ≤ x then c else r) 0

/-- The primes below 410, 80 of them. -/
def primes : List Nat := (range' 2 408).filter fun p => (range' 2 19).all fun q => q == p || p % q != 0

/-- The first 64 fractional bits of the `k`-th root of `p` (FIPS 180-4: K from cube roots, the initial value from square roots). -/
def rootFrac (k p : Nat) : Nat := rootOf k (p * 2 ^ (64 * k)) 69 % 2 ^ 64

/-- The round constants: of the first 80 primes. -/
def shaKeys : List Nat := primes.map (rootFrac 3)
/-- SHA-384's initial value: of the ninth to the sixteenth prime. -/
def shaStart : List Nat := ((primes.drop 8).take 8).map (rootFrac 2)

def w64 (x : Nat) : Nat := x % 2 ^ 64
def ror64 (x k : Nat) : Nat := w64 (x / 2 ^ k ||| x * 2 ^ (64 - k))

/-- Message schedule step, words last first. -/
def shaSched (ws : List Nat) : List Nat :=
  let a := ws.getD 1 0; let b := ws.getD 14 0
  let s1 := ror64 a 19 ^^^ ror64 a 61 ^^^ a / 64
  let s0 := ror64 b 1 ^^^ ror64 b 8 ^^^ b / 128
  w64 (s1 + ws.getD 6 0 + s0 + ws.getD 15 0) :: ws

/-- One compression round over the eight working words. -/
def shaRound (v : List Nat) (kw : Nat) : List Nat :=
  let a := v.getD 0 0; let b := v.getD 1 0; let c := v.getD 2 0; let d := v.getD 3 0
  let e := v.getD 4 0; let f := v.getD 5 0; let g := v.getD 6 0; let h := v.getD 7 0
  let s1 := ror64 e 14 ^^^ ror64 e 18 ^^^ ror64 e 41
  let ch := (e &&& f) ^^^ ((2 ^ 64 - 1 - e) &&& g)
  let t1 := h + s1 + ch + kw
  let s0 := ror64 a 28 ^^^ ror64 a 34 ^^^ ror64 a 39
  let mj := (a &&& b) ^^^ (a &&& c) ^^^ (b &&& c)
  [w64 (t1 + s0 + mj), a, b, c, w64 (d + t1), e, f, g]

/-- Compress one 128-byte block. -/
def shaBlock (h : List Nat) (blk : List Nat) : List Nat :=
  let w0 := (List.range 16).map fun i => ofBe ((blk.drop (8 * i)).take 8)
  let ws := ((List.range 64).foldl (fun ws _ => shaSched ws) w0.reverse).reverse
  let v := (List.zipWith (· + ·) ws shaKeys).foldl shaRound h
  List.zipWith (fun x y => w64 (x + y)) h v

/-- SHA-384 of a byte string, as 48 bytes. -/
def sha384 (m : List Nat) : List Nat :=
  let z := (128 - (m.length + 17) % 128) % 128
  let p := m ++ [0x80] ++ List.replicate z 0 ++ beBytes 16 (m.length * 8)
  let h := (List.range (p.length / 128)).foldl (fun h i => shaBlock h ((p.drop (128 * i)).take 128)) shaStart
  (h.take 6).flatMap (beBytes 8)

/-- HMAC-SHA-384. -/
def hmac384 (key m : List Nat) : List Nat :=
  let k0 := if 128 < key.length then sha384 key else key
  let k := (k0 ++ List.replicate 128 0).take 128
  sha384 (k.map (· ^^^ 0x5c) ++ sha384 (k.map (· ^^^ 0x36) ++ m))

/-! ## Check values -/

/-- A reflected CRC step over one byte with polynomial `p`. -/
def crcByte (p c b : Nat) : Nat :=
  (List.range 8).foldl (fun c _ => if c % 2 = 1 then c / 2 ^^^ p else c / 2) (c ^^^ b)

/-- CRC-32C running value over bytes (R319): start from 0xFFFF_FFFF, final XOR 0xFFFF_FFFF. -/
def crc32cRun (c : Nat) (bs : List Nat) : Nat := bs.foldl (crcByte 0x82f63b78) c
def crc32c (bs : List Nat) : Nat := crc32cRun 0xffffffff bs ^^^ 0xffffffff

/-- CRC-32 of gzip (RFC 1952). -/
def crc32 (bs : List Nat) : Nat := bs.foldl (crcByte 0xedb88320) 0xffffffff ^^^ 0xffffffff

/-- Adler-32 of zlib (RFC 1950). -/
def adler32 (bs : List Nat) : Nat :=
  let r := bs.foldl (fun (r : Nat × Nat) b => let a := (r.1 + b) % 65521; (a, (r.2 + a) % 65521)) (1, 0)
  r.2 * 65536 + r.1

/-! ## Lines as bytes -/

/-- The 64 bytes of a line, byte 0 first. -/
def lineBytes (l : Line) : List Nat := leBytes 64 l.toNat

/-- The line 64 bytes spell. -/
def lineOf (bs : List Nat) : Line := BitVec.ofNat 512 (ofLe (bs.take 64))

/-- Merge the bytes of `new` that `mask` marks into `old` (R227, R298). -/
def mergeLine (old new : Line) (mask : BitVec 64) : Line :=
  lineOf ((List.range 64).map fun i => if mask.getLsbD i then byteOf new.toNat i else byteOf old.toNat i)

end Sys2Proof.Machine
end

