-- ==== Sys2Proof/Config.lean ====
section
/-! DEFINITION. Config.lean: what one part or one firmware build fixes and the spec leaves open (fuse values), and the FREE
VALUES: constants without a body, which no proof can see. A draw of a free value applies the constant to the draw counter
`Die.draws`, which every draw advances; a free value of operands is a function of them. Each is named in the assumption
log. -/

namespace Sys2Proof.Config

/-- Draw `n` of the device's random bit generator (R209, R252, R404): keys, TK, nonces. -/
opaque random : Nat → Nat
/-- Content of standard message number `n` (CXL mailbox payloads, SPDM responses, CDAT: R44, R65 leave it to the
standards). -/
opaque standardPayload : Nat → Nat
/-- One advance of the 16-bit LFSRs of R329 and R346: the spec gives no polynomial. -/
opaque lfsrNext : BitVec 16 → BitVec 16
/-- The encoder's stream for a pane (R289 leaves the tokens free): `none` where its bits do not fit in 7 granules. The
512-byte pane comes as 8 lines. -/
opaque paneEncode : List Line → Option (List Line)
/-- The raw DEFLATE stream a compressor has produced (R316 leaves the coding to the engine): LEVEL, CJE_CFG.BLOCK_KIB, and the
source of the stream so far, with 256 + FLUSH after the bytes of each job. -/
opaque deflate : Nat → Nat → List Nat → List (BitVec 8)
/-- Draw `n` of what stands in the buffers of a job that failed whole (R318: the bytes carry no meaning). -/
opaque scratch : Nat → BitVec 512
/-- Does an image's ECDSA P-384 signature verify under the fused key (R555)? The arguments are header bytes 0–159. -/
opaque signatureVerifies : List Nat → Bool
/-- What the boot flash held at manufacture (R555). -/
opaque factoryFlash : Nat → Nat
/-- Time base error across a sleep and other analog quantities come with the commands; `grade` is GEN_ID.GRADE (R573),
fused. -/
opaque grade : BitVec 4
/-- GEN_UID (R573), fused. -/
opaque uid : BitVec 64
/-- GEN_FUSE.JTAG_LOCK (R573), fused. -/
opaque jtagLock : Bool
/-- GEN_FUSE.PUBKEY_VALID (R573), fused. -/
opaque pubkeyValid : Bool
/-- The DRAM row of a granule, as one number, and the DIMM slot (0 or 1) holding it: the rank, bank and row mapping of a
DGA inside its channel is not given. -/
opaque rowOf : Nat → Nat
opaque slotOf : Nat → Nat
/-- The DGA of a row's first granule: channel, DIMM slot, row. -/
opaque rowFirst : Nat → Nat → Nat → Nat
/-- The HBM pseudo-channel of an HBM address: the mapping is not given. -/
opaque pseudoOf : Nat → Nat
/-- Does an address of the management complex beyond the 1 MiB secure ROM lie in the secure part of SRAM? The arguments are
MUL_WORLD.SRAM_SEC, which is not 0 (0 units are no part), and the address: the complex's address map is not given. -/
opaque inSecureSram : Nat → Nat → Bool
/-- The SEC-DED check bits of a word of 8 B lines (R151, R211): the code is not given. The argument is the word with CHK 0. -/
opaque secDed : Nat → Nat
/-- The check symbols of the granule ECC (R195, R197: the generator is not published), of the 512 data bits and sideband bits 63–0. -/
opaque symbolEcc : BitVec 512 → Nat → Nat
/-- Ohmoux's load current in units of 10 mA (OHM_TELEM0.IOUT, R464): a measurement. -/
opaque iout : Nat → Nat

end Sys2Proof.Config
end

