-- ==== Sys2Proof/Machine/Regs.lean ====
section
/-! DEFINITION. Machine/Regs.lean: the register index of the management window (R565–R575): every register's window offset
by name, and per block the rows that give each register's access type (R5), reset value, writable bits and whether host
software may write it directly. Written from the register and field tables of the chapters. -/

namespace Sys2Proof.Machine

/-- Access type of a register (R5); `cnt` is an RO 32-bit saturating count, `commit` a commit register (R111). -/
inductive Acc where
  | ro | rw | w1c | rws | rwk | rwd | cnt | commit
  deriving DecidableEq, Repr

/-- One row of the register index: `icount` instances `istride` apart of `count` registers `stride` apart from `off`;
`mask` holds the bits that are not RSV, `host` whether host software may write it directly. -/
structure RegRow where
  off : Nat
  stride : Nat
  count : Nat
  istride : Nat
  icount : Nat
  acc : Acc
  reset : Nat
  mask : Nat
  host : Bool
  deriving DecidableEq, Repr

/-- Does the row hold window offset `o`? -/
def RegRow.holds (r : RegRow) (o : Nat) : Bool :=
  if o < r.off then false
  else
    let d := o - r.off
    let i := if r.istride = 0 then 0 else d / r.istride
    let e := if r.istride = 0 then d else d % r.istride
    decide (i < r.icount) &&
      (if r.stride = 0 then decide (e = 0) else decide (e % r.stride = 0) && decide (e / r.stride < r.count))

namespace R

/-- HPT_PORT_CFG of instance `n` (R68). -/
def hptPortCfg (n : Nat) : Nat := 0x10000 + 0x10000 * n
/-- HPT_COMMIT of instance `n` (R68). -/
def hptCommit (n : Nat) : Nat := 0x10008 + 0x10000 * n
/-- HPT_LINK_STATUS of instance `n` (R68). -/
def hptLinkStatus (n : Nat) : Nat := 0x10010 + 0x10000 * n
/-- HPT_EVENT of instance `n` (R68). -/
def hptEvent (n : Nat) : Nat := 0x10020 + 0x10000 * n
/-- HPT_EVENT_EN of instance `n` (R68). -/
def hptEventEn (n : Nat) : Nat := 0x10024 + 0x10000 * n
/-- HPT_GEN_MISMATCH of instance `n` (R68). -/
def hptGenMismatch (n : Nat) : Nat := 0x10030 + 0x10000 * n
/-- HPT_EPOCH_DISCARD of instance `n` (R68). -/
def hptEpochDiscard (n : Nat) : Nat := 0x10034 + 0x10000 * n
/-- HPT_CC_OVERSPEND of instance `n` (R68). -/
def hptCcOverspend (n : Nat) : Nat := 0x10038 + 0x10000 * n
/-- HPT_FCXCAP of instance `n` (R68). -/
def hptFcxcap (n : Nat) : Nat := 0x10100 + 0x10000 * n
/-- HPT_FCXCTL of instance `n` (R68). -/
def hptFcxctl (n : Nat) : Nat := 0x10104 + 0x10000 * n
/-- HPT_FCXSTS of instance `n` (R68). -/
def hptFcxsts (n : Nat) : Nat := 0x10108 + 0x10000 * n
/-- TRS_COUNT_LO (R112). -/
def trsCountLo : Nat := 0x90000
/-- TRS_COUNT_HI (R112). -/
def trsCountHi : Nat := 0x90004
/-- TRS_COMMIT (R112). -/
def trsCommit : Nat := 0x90008
/-- TRS_CFG (R112). -/
def trsCfg : Nat := 0x90010
/-- TRS_CAP (R112). -/
def trsCap : Nat := 0x90014
/-- TRS_EVENT (R112). -/
def trsEvent : Nat := 0x90020
/-- TRS_EVENT_EN (R112). -/
def trsEventEn : Nat := 0x90024
/-- TRS_REVAL (R112). -/
def trsReval : Nat := 0x90028
/-- TRS_LATE_INSIDE (R112). -/
def trsLateInside : Nat := 0x90030
/-- TRS_LATE_HOST (R112). -/
def trsLateHost : Nat := 0x90034
/-- TRS_LATE_FAULT (R112). -/
def trsLateFault : Nat := 0x90038
/-- TRS_OVERSHARE (R112). -/
def trsOvershare : Nat := 0x9003c
/-- TRS_UNMATCHED (R112). -/
def trsUnmatched : Nat := 0x90040
/-- TRS_CH_LOAD, entry `n` (R112). -/
def trsChLoad (n : Nat) : Nat := 0x90100 + 0x4 * n
/-- TRS_PORT_LOAD, entry `n` (R112). -/
def trsPortLoad (n : Nat) : Nat := 0x90200 + 0x4 * n
/-- LVR_COMMIT (R139). -/
def lvrCommit : Nat := 0xa0000
/-- LVR_CFG (R139). -/
def lvrCfg : Nat := 0xa0010
/-- LVR_THERM (R139). -/
def lvrTherm : Nat := 0xa0014
/-- LVR_PMIC (R139). -/
def lvrPmic : Nat := 0xa0018
/-- LVR_EVENT (R139). -/
def lvrEvent : Nat := 0xa0020
/-- LVR_EVENT_EN (R139). -/
def lvrEventEn : Nat := 0xa0024
/-- LVR_MASTER_MAP0 (R139). -/
def lvrMasterMap0 : Nat := 0xa0030
/-- LVR_MASTER_MAP1 (R139). -/
def lvrMasterMap1 : Nat := 0xa0034
/-- LVR_CH_THROTTLE, entry `n` (R139). -/
def lvrChThrottle (n : Nat) : Nat := 0xa0100 + 0x4 * n
/-- LVR_SHAPE, entry `n` (R139). -/
def lvrShape (n : Nat) : Nat := 0xa1000 + 0x10 * n
/-- LVR_TARGET, entry `n` (R139). -/
def lvrTarget (n : Nat) : Nat := 0xa1004 + 0x10 * n
/-- LVR_STATE, entry `n` (R139). -/
def lvrState (n : Nat) : Nat := 0xa1008 + 0x10 * n
/-- LVR_OCC, entry `n` (R139). -/
def lvrOcc (n : Nat) : Nat := 0xa100c + 0x10 * n
/-- CHA_EVENT of instance `n` (R193). -/
def chaEvent (n : Nat) : Nat := 0x100000 + 0x10000 * n
/-- CHA_EVENT_EN of instance `n` (R193). -/
def chaEventEn (n : Nat) : Nat := 0x100004 + 0x10000 * n
/-- CHA_DIR_STAT of instance `n` (R193). -/
def chaDirStat (n : Nat) : Nat := 0x100010 + 0x10000 * n
/-- CHA_WAIT_STAT of instance `n` (R193). -/
def chaWaitStat (n : Nat) : Nat := 0x100014 + 0x10000 * n
/-- CHA_FWD_COUNT of instance `n` (R193). -/
def chaFwdCount (n : Nat) : Nat := 0x100020 + 0x10000 * n
/-- CHA_RECALL_COUNT of instance `n` (R193). -/
def chaRecallCount (n : Nat) : Nat := 0x100024 + 0x10000 * n
/-- CHA_SNP_LATE of instance `n` (R193). -/
def chaSnpLate (n : Nat) : Nat := 0x100028 + 0x10000 * n
/-- CHA_PROTO_REFUSED of instance `n` (R193). -/
def chaProtoRefused (n : Nat) : Nat := 0x10002c + 0x10000 * n
/-- CHA_STALE_DISCARD of instance `n` (R193). -/
def chaStaleDiscard (n : Nat) : Nat := 0x100030 + 0x10000 * n
/-- CHA_FENCED of instance `n` (R193). -/
def chaFenced (n : Nat) : Nat := 0x100034 + 0x10000 * n
/-- CHA0_COMMIT (R193). -/
def cha0Commit : Nat := 0x100100
/-- CHA0_DOM_CFG, entry `n` (R193). -/
def cha0DomCfg (n : Nat) : Nat := 0x101000 + 0x10 * n
/-- CHA0_DOM_TENA, entry `n` (R193). -/
def cha0DomTena (n : Nat) : Nat := 0x101004 + 0x10 * n
/-- CHA0_DOM_TENB, entry `n` (R193). -/
def cha0DomTenb (n : Nat) : Nat := 0x101008 + 0x10 * n
/-- CHA0_DOM_STAT, entry `n` (R193). -/
def cha0DomStat (n : Nat) : Nat := 0x10100c + 0x10 * n
/-- ITR_COMMIT (R242). -/
def itrCommit : Nat := 0x580000
/-- ITR_CFG (R242). -/
def itrCfg : Nat := 0x580010
/-- ITR_EVENT (R242). -/
def itrEvent : Nat := 0x580020
/-- ITR_EVENT_EN (R242). -/
def itrEventEn : Nat := 0x580024
/-- ITR_CC_STAT (R242). -/
def itrCcStat : Nat := 0x580030
/-- ITR_PEND_STAT (R242). -/
def itrPendStat : Nat := 0x580034
/-- ITR_PIN_STAT (R242). -/
def itrPinStat : Nat := 0x580038
/-- ITR_ECC_CORR (R242). -/
def itrEccCorr : Nat := 0x580040
/-- ITR_TRANSIENT (R242). -/
def itrTransient : Nat := 0x580044
/-- ITR_MEM_FAIL (R242). -/
def itrMemFail : Nat := 0x580048
/-- ITR_KEY_MISMATCH (R242). -/
def itrKeyMismatch : Nat := 0x58004c
/-- ITR_POISON_READ (R242). -/
def itrPoisonRead : Nat := 0x580050
/-- ITR_NODE_FAIL (R242). -/
def itrNodeFail : Nat := 0x580054
/-- ITR_REENC (R242). -/
def itrReenc : Nat := 0x580058
/-- ITR_MAJOR_END (R242). -/
def itrMajorEnd : Nat := 0x58005c
/-- ITR_LAST_DGA_LO (R242). -/
def itrLastDgaLo : Nat := 0x580060
/-- ITR_LAST_DGA_HI (R242). -/
def itrLastDgaHi : Nat := 0x580064
/-- ITR_SET_LO, entry `n` (R242). -/
def itrSetLo (n : Nat) : Nat := 0x580100 + 0x8 * n
/-- ITR_SET_HI, entry `n` (R242). -/
def itrSetHi (n : Nat) : Nat := 0x580104 + 0x8 * n
/-- ITR_LOST_LO, entry `n` (R242). -/
def itrLostLo (n : Nat) : Nat := 0x580200 + 0x8 * n
/-- ITR_LOST_HI, entry `n` (R242). -/
def itrLostHi (n : Nat) : Nat := 0x580204 + 0x8 * n
/-- ITR_BLOCK, entry `n` (R242). -/
def itrBlock (n : Nat) : Nat := 0x580400 + 0x4 * n
/-- ITR_ROOT_STAT (R244). -/
def itrRootStat : Nat := 0xf30000
/-- ITR_HWM1_LO (R244). -/
def itrHwm1Lo : Nat := 0xf30008
/-- ITR_HWM1_HI (R244). -/
def itrHwm1Hi : Nat := 0xf3000c
/-- ITR_HWM2_LO (R244). -/
def itrHwm2Lo : Nat := 0xf30010
/-- ITR_HWM2_HI (R244). -/
def itrHwm2Hi : Nat := 0xf30014
/-- ITR_HWM3_LO (R244). -/
def itrHwm3Lo : Nat := 0xf30018
/-- ITR_HWM3_HI (R244). -/
def itrHwm3Hi : Nat := 0xf3001c
/-- CRY_STAT of instance `n` (R275). -/
def cryStat (n : Nat) : Nat := 0x400000 + 0x10000 * n
/-- CRY_EVENT of instance `n` (R275). -/
def cryEvent (n : Nat) : Nat := 0x400010 + 0x10000 * n
/-- CRY_EVENT_EN of instance `n` (R275). -/
def cryEventEn (n : Nat) : Nat := 0x400014 + 0x10000 * n
/-- CRY_KS_WAIT of instance `n` (R275). -/
def cryKsWait (n : Nat) : Nat := 0x400020 + 0x10000 * n
/-- CRY_SUBST_READ of instance `n` (R275). -/
def crySubstRead (n : Nat) : Nat := 0x400024 + 0x10000 * n
/-- CRY_REKEY_OPS of instance `n` (R275). -/
def cryRekeyOps (n : Nat) : Nat := 0x400028 + 0x10000 * n
/-- KHT_STAT (R276). -/
def khtStat : Nat := 0xf00000
/-- KHT_LOADSEQ (R276). -/
def khtLoadseq : Nat := 0xf00004
/-- KHT_RET_A, entry `n` (R276). -/
def khtRetA (n : Nat) : Nat := 0xf00010 + 0x8 * n
/-- KHT_RET_B, entry `n` (R276). -/
def khtRetB (n : Nat) : Nat := 0xf00014 + 0x8 * n
/-- KHT_SLOT_LO, entry `n` (R276). -/
def khtSlotLo (n : Nat) : Nat := 0xf01000 + 0x8 * n
/-- KHT_SLOT_HI, entry `n` (R276). -/
def khtSlotHi (n : Nat) : Nat := 0xf01004 + 0x8 * n
/-- PCX_STAT of instance `n` (R322). -/
def pcxStat (n : Nat) : Nat := 0x600000 + 0x1000 * n
/-- PCX_EVENT of instance `n` (R322). -/
def pcxEvent (n : Nat) : Nat := 0x600010 + 0x1000 * n
/-- PCX_EVENT_EN of instance `n` (R322). -/
def pcxEventEn (n : Nat) : Nat := 0x600014 + 0x1000 * n
/-- PCX_DEC_COUNT of instance `n` (R322). -/
def pcxDecCount (n : Nat) : Nat := 0x600020 + 0x1000 * n
/-- PCX_ENC_COUNT of instance `n` (R322). -/
def pcxEncCount (n : Nat) : Nat := 0x600024 + 0x1000 * n
/-- PCX_RAW_COUNT of instance `n` (R322). -/
def pcxRawCount (n : Nat) : Nat := 0x600028 + 0x1000 * n
/-- PCX_DEC_ERR of instance `n` (R322). -/
def pcxDecErr (n : Nat) : Nat := 0x60002c + 0x1000 * n
/-- PCX_COMMIT (R323). -/
def pcxCommit : Nat := 0x61f000
/-- PCX_MAP_CFG (R323). -/
def pcxMapCfg : Nat := 0x61f010
/-- PCX_MAP_EVENT (R323). -/
def pcxMapEvent : Nat := 0x61f020
/-- PCX_MAP_EVENT_EN (R323). -/
def pcxMapEventEn : Nat := 0x61f024
/-- PCX_MAP_STAT (R323). -/
def pcxMapStat : Nat := 0x61f030
/-- PCX_REPACK (R323). -/
def pcxRepack : Nat := 0x61f040
/-- PCX_STORE_FULL (R323). -/
def pcxStoreFull : Nat := 0x61f044
/-- PCX_STORE_SEL (R323). -/
def pcxStoreSel : Nat := 0x61f050
/-- PCX_STORE_INFO (R323). -/
def pcxStoreInfo : Nat := 0x61f054
/-- PCX_STORE_FREE (R323). -/
def pcxStoreFree : Nat := 0x61f058
/-- CJE_COMMIT (R325). -/
def cjeCommit : Nat := 0x700000
/-- CJE_CFG (R325). -/
def cjeCfg : Nat := 0x700010
/-- CJE_EVENT (R325). -/
def cjeEvent : Nat := 0x700020
/-- CJE_EVENT_EN (R325). -/
def cjeEventEn : Nat := 0x700024
/-- CJE_JOBS_DONE (R325). -/
def cjeJobsDone : Nat := 0x700030
/-- CJE_JOBS_FAILED (R325). -/
def cjeJobsFailed : Nat := 0x700034
/-- CJE_QCFG, entry `n` (R325). -/
def cjeQcfg (n : Nat) : Nat := 0x701000 + 0x20 * n
/-- CJE_QKEY, entry `n` (R325). -/
def cjeQkey (n : Nat) : Nat := 0x701004 + 0x20 * n
/-- CJE_QSQ, entry `n` (R325). -/
def cjeQsq (n : Nat) : Nat := 0x701008 + 0x20 * n
/-- CJE_QCQ, entry `n` (R325). -/
def cjeQcq (n : Nat) : Nat := 0x70100c + 0x20 * n
/-- CJE_QSTAT, entry `n` (R325). -/
def cjeQstat (n : Nat) : Nat := 0x701010 + 0x20 * n
/-- CJE_DB, entry `n` (R325). -/
def cjeDb (n : Nat) : Nat := 0x701014 + 0x20 * n
/-- HBC_COMMIT (R353). -/
def hbcCommit : Nat := 0x300000
/-- HBC_CFG (R353). -/
def hbcCfg : Nat := 0x300010
/-- HBC_EVENT (R353). -/
def hbcEvent : Nat := 0x300020
/-- HBC_EVENT_EN (R353). -/
def hbcEventEn : Nat := 0x300024
/-- HBC_HIT (R353). -/
def hbcHit : Nat := 0x300030
/-- HBC_MISS (R353). -/
def hbcMiss : Nat := 0x300034
/-- HBC_REJECT (R353). -/
def hbcReject : Nat := 0x300038
/-- HBC_FILL (R353). -/
def hbcFill : Nat := 0x30003c
/-- HBC_FILL_DROP (R353). -/
def hbcFillDrop : Nat := 0x300040
/-- HBC_FLUSH_STAT (R353). -/
def hbcFlushStat : Nat := 0x300050
/-- TIR_COMMIT (R355). -/
def tirCommit : Nat := 0x780000
/-- TIR_CFG (R355). -/
def tirCfg : Nat := 0x780010
/-- TIR_EVENT (R355). -/
def tirEvent : Nat := 0x780020
/-- TIR_EVENT_EN (R355). -/
def tirEventEn : Nat := 0x780024
/-- TIR_PROMOTED (R355). -/
def tirPromoted : Nat := 0x780030
/-- TIR_DEMOTED (R355). -/
def tirDemoted : Nat := 0x780034
/-- TIR_ABORT (R355). -/
def tirAbort : Nat := 0x780038
/-- TIR_QUOTA_SKIP (R355). -/
def tirQuotaSkip : Nat := 0x78003c
/-- TIR_MIXED_SKIP (R355). -/
def tirMixedSkip : Nat := 0x780040
/-- TIR_STAT (R355). -/
def tirStat : Nat := 0x780050
/-- TIR_POLICY, entry `n` (R355). -/
def tirPolicy (n : Nat) : Nat := 0x780100 + 0x4 * n
/-- TEN_COMMIT (R385). -/
def tenCommit : Nat := 0x800000
/-- TEN_BTU_IDX (R385). -/
def tenBtuIdx : Nat := 0x800010
/-- TEN_BTU_LO (R385). -/
def tenBtuLo : Nat := 0x800014
/-- TEN_BTU_HI (R385). -/
def tenBtuHi : Nat := 0x800018
/-- TEN_EVENT (R385). -/
def tenEvent : Nat := 0x800020
/-- TEN_EVENT_EN (R385). -/
def tenEventEn : Nat := 0x800024
/-- TEN_STALE_DISCARD (R385). -/
def tenStaleDiscard : Nat := 0x800030
/-- TEN_NOBAY (R385). -/
def tenNobay : Nat := 0x800034
/-- TEN_LOG_BUF (R385). -/
def tenLogBuf : Nat := 0x800038
/-- TEN_CFG, entry `n` (R385). -/
def tenCfg (n : Nat) : Nat := 0x801000 + 0x10 * n
/-- TEN_SEG, entry `n` (R385). -/
def tenSeg (n : Nat) : Nat := 0x801004 + 0x10 * n
/-- TEN_LOG, entry `n` (R385). -/
def tenLog (n : Nat) : Nat := 0x801008 + 0x10 * n
/-- TEN_STAT, entry `n` (R385). -/
def tenStat (n : Nat) : Nat := 0x80100c + 0x10 * n
/-- TEN_BT_LO, entry `n` (R385). -/
def tenBtLo (n : Nat) : Nat := 0x820000 + 0x8 * n
/-- TEN_BT_HI, entry `n` (R385). -/
def tenBtHi (n : Nat) : Nat := 0x820004 + 0x8 * n
/-- MGT_STAT (R407). -/
def mgtStat : Nat := 0x900000
/-- MGT_EVENT (R407). -/
def mgtEvent : Nat := 0x900010
/-- MGT_EVENT_EN (R407). -/
def mgtEventEn : Nat := 0x900014
/-- MGT_FM_PORTS (R407). -/
def mgtFmPorts : Nat := 0x900020
/-- MGT_REJ_COUNT (R407). -/
def mgtRejCount : Nat := 0x900030
/-- MGT_REJ_LAST (R407). -/
def mgtRejLast : Nat := 0x900034
/-- MGT_RING_CFG, entry `n` (R407). -/
def mgtRingCfg (n : Nat) : Nat := 0x903000 + 0x10 * n
/-- MGT_RING_TAIL, entry `n` (R407). -/
def mgtRingTail (n : Nat) : Nat := 0x903004 + 0x10 * n
/-- MGT_RING_HEAD, entry `n` (R407). -/
def mgtRingHead (n : Nat) : Nat := 0x903008 + 0x10 * n
/-- DBG_STAT (R438). -/
def dbgStat : Nat := 0xd00000
/-- DBG_EVENT (R438). -/
def dbgEvent : Nat := 0xd00010
/-- DBG_EVENT_EN (R438). -/
def dbgEventEn : Nat := 0xd00014
/-- DBG_BIND (R438). -/
def dbgBind : Nat := 0xd00020
/-- DBG_WIN_DENY (R438). -/
def dbgWinDeny : Nat := 0xd00030
/-- DBG_WIN_LAST (R438). -/
def dbgWinLast : Nat := 0xd00034
/-- DBG_RGN_DENY (R438). -/
def dbgRgnDeny : Nat := 0xd00038
/-- DBG_RGN_LAST_LO (R438). -/
def dbgRgnLastLo : Nat := 0xd0003c
/-- DBG_RGN_LAST_HI (R438). -/
def dbgRgnLastHi : Nat := 0xd00040
/-- MUL_BASE, entry `n` (R439). -/
def mulBase (n : Nat) : Nat := 0xf20000 + 0x10 * n
/-- MUL_LIM, entry `n` (R439). -/
def mulLim (n : Nat) : Nat := 0xf20004 + 0x10 * n
/-- MUL_MASK, entry `n` (R439). -/
def mulMask (n : Nat) : Nat := 0xf20008 + 0x10 * n
/-- MUL_CTL, entry `n` (R439). -/
def mulCtl (n : Nat) : Nat := 0xf2000c + 0x10 * n
/-- MUL_WORLD (R439). -/
def mulWorld : Nat := 0xf28000
/-- MUL_DBG_POLICY (R439). -/
def mulDbgPolicy : Nat := 0xf28004
/-- OHM_STAT (R464). -/
def ohmStat : Nat := 0xa80000
/-- OHM_EVENT (R464). -/
def ohmEvent : Nat := 0xa80010
/-- OHM_EVENT_EN (R464). -/
def ohmEventEn : Nat := 0xa80014
/-- OHM_CFG (R464). -/
def ohmCfg : Nat := 0xa80020
/-- OHM_TELEM0 (R464). -/
def ohmTelem0 : Nat := 0xa80030
/-- OHM_TELEM1 (R464). -/
def ohmTelem1 : Nat := 0xa80034
/-- OHM_RECORD, entry `n` (R464). -/
def ohmRecord (n : Nat) : Nat := 0xa80040 + 0x4 * n
/-- PWR_COMMIT (R494). -/
def pwrCommit : Nat := 0xa00000
/-- PWR_CFG (R494). -/
def pwrCfg : Nat := 0xa00010
/-- PWR_THERM (R494). -/
def pwrTherm : Nat := 0xa00014
/-- PWR_EVENT (R494). -/
def pwrEvent : Nat := 0xa00020
/-- PWR_EVENT_EN (R494). -/
def pwrEventEn : Nat := 0xa00024
/-- PWR_STAT (R494). -/
def pwrStat : Nat := 0xa00030
/-- PWR_REQ (R494). -/
def pwrReq : Nat := 0xa00034
/-- PWR_WAKE_MASK (R494). -/
def pwrWakeMask : Nat := 0xa00038
/-- PWR_WAKE_CAUSE (R494). -/
def pwrWakeCause : Nat := 0xa0003c
/-- PWR_LAST_WAKE (R494). -/
def pwrLastWake : Nat := 0xa00040
/-- PWR_TEMP (R494). -/
def pwrTemp : Nat := 0xa00044
/-- PWR_DOM_STAT0 (R494). -/
def pwrDomStat0 : Nat := 0xa00048
/-- PWR_DOM_STAT1 (R494). -/
def pwrDomStat1 : Nat := 0xa0004c
/-- PWR_WAKE_TIME_LO (R494). -/
def pwrWakeTimeLo : Nat := 0xa00050
/-- PWR_WAKE_TIME_HI (R494). -/
def pwrWakeTimeHi : Nat := 0xa00054
/-- PWR_SLEEP_START_LO (R494). -/
def pwrSleepStartLo : Nat := 0xa00060
/-- PWR_SLEEP_START_HI (R494). -/
def pwrSleepStartHi : Nat := 0xa00064
/-- PWR_SLEEP_END_LO (R494). -/
def pwrSleepEndLo : Nat := 0xa00068
/-- PWR_SLEEP_END_HI (R494). -/
def pwrSleepEndHi : Nat := 0xa0006c
/-- PWR_RES_LO, entry `n` (R494). -/
def pwrResLo (n : Nat) : Nat := 0xa00100 + 0x8 * n
/-- PWR_RES_HI, entry `n` (R494). -/
def pwrResHi (n : Nat) : Nat := 0xa00104 + 0x8 * n
/-- FLT_COMMIT (R521). -/
def fltCommit : Nat := 0xb00000
/-- FLT_CFG (R521). -/
def fltCfg : Nat := 0xb00010
/-- FLT_EVENT (R521). -/
def fltEvent : Nat := 0xb00020
/-- FLT_EVENT_EN (R521). -/
def fltEventEn : Nat := 0xb00024
/-- FLT_STAT (R521). -/
def fltStat : Nat := 0xb00030
/-- FLT_SEQ (R521). -/
def fltSeq : Nat := 0xb00034
/-- FLT_CNT_CORR (R521). -/
def fltCntCorr : Nat := 0xb00040
/-- FLT_CNT_UC (R521). -/
def fltCntUc : Nat := 0xb00044
/-- FLT_CNT_FATAL (R521). -/
def fltCntFatal : Nat := 0xb00048
/-- FLT_CONSEQ (R521). -/
def fltConseq : Nat := 0xb0004c
/-- FLT_STALE_EPOCH (R521). -/
def fltStaleEpoch : Nat := 0xb00050
/-- FLT_INJ_COUNT (R521). -/
def fltInjCount : Nat := 0xb00054
/-- FLT_EPOCH, entry `n` (R521). -/
def fltEpoch (n : Nat) : Nat := 0xb00100 + 0x4 * n
/-- FLT_HQ_PTR, entry `n` (R521). -/
def fltHqPtr (n : Nat) : Nat := 0xb00200 + 0x4 * n
/-- FLT_LAT, entry `n` (R521). -/
def fltLat (n : Nat) : Nat := 0xb10000 + 0x4 * n
/-- FLT_HQ, entry `n` (R521). -/
def fltHq (n : Nat) : Nat := 0xb20000 + 0x4 * n
/-- STU_STAT (R523). -/
def stuStat : Nat := 0xb80000
/-- STU_EVENT (R523). -/
def stuEvent : Nat := 0xb80010
/-- STU_EVENT_EN (R523). -/
def stuEventEn : Nat := 0xb80014
/-- STU_LINE_TESTS (R523). -/
def stuLineTests : Nat := 0xb80020
/-- STU_ROW_TESTS (R523). -/
def stuRowTests : Nat := 0xb80024
/-- STU_ENGINE_TESTS (R523). -/
def stuEngineTests : Nat := 0xb80028
/-- STU_LASTING (R523). -/
def stuLasting : Nat := 0xb8002c
/-- STU_LAST (R523). -/
def stuLast : Nat := 0xb80030
/-- PMU_COMMIT (R545). -/
def pmuCommit : Nat := 0xc00000
/-- PMU_TEL_CFG (R545). -/
def pmuTelCfg : Nat := 0xc00010
/-- PMU_EVENT (R545). -/
def pmuEvent : Nat := 0xc00020
/-- PMU_EVENT_EN (R545). -/
def pmuEventEn : Nat := 0xc00024
/-- PMU_STAT (R545). -/
def pmuStat : Nat := 0xc00030
/-- PMU_DUMP_DROP (R545). -/
def pmuDumpDrop : Nat := 0xc00034
/-- PMU_DUMP_SKIP (R545). -/
def pmuDumpSkip : Nat := 0xc00038
/-- PMU_CHAIN, entry `n` (R545). -/
def pmuChain (n : Nat) : Nat := 0xc00040 + 0x4 * n
/-- PMU_OVF, entry `n` (R545). -/
def pmuOvf (n : Nat) : Nat := 0xc00080 + 0x4 * n
/-- PMU_WINDOW, entry `n` (R545). -/
def pmuWindow (n : Nat) : Nat := 0xc00100 + 0x4 * n
/-- PMU_DIMM, entry `n` (R545). -/
def pmuDimm (n : Nat) : Nat := 0xc00200 + 0x4 * n
/-- PMU_SEL, entry `n` (R545). -/
def pmuSel (n : Nat) : Nat := 0xc01000 + 0x4 * n
/-- PMU_CTR_LO, entry `n` (R545). -/
def pmuCtrLo (n : Nat) : Nat := 0xc02000 + 0x8 * n
/-- PMU_CTR_HI, entry `n` (R545). -/
def pmuCtrHi (n : Nat) : Nat := 0xc02004 + 0x8 * n
/-- PMU_SLOT_LO, entry `n` (R545). -/
def pmuSlotLo (n : Nat) : Nat := 0xc03000 + 0x8 * n
/-- PMU_SLOT_HI, entry `n` (R545). -/
def pmuSlotHi (n : Nat) : Nat := 0xc03004 + 0x8 * n
/-- KPS_STAT (R564). -/
def kpsStat : Nat := 0xe00000
/-- KPS_EVENT (R564). -/
def kpsEvent : Nat := 0xe00010
/-- KPS_EVENT_EN (R564). -/
def kpsEventEn : Nat := 0xe00014
/-- KPS_WRITES (R564). -/
def kpsWrites : Nat := 0xe00020
/-- KPS_LAST (R564). -/
def kpsLast : Nat := 0xe00024
/-- KPS_KEEP, entry `n` (R564). -/
def kpsKeep (n : Nat) : Nat := 0xe01000 + 0x4 * n
/-- KPS_WEAR, entry `n` (R564). -/
def kpsWear (n : Nat) : Nat := 0xe02000 + 0x4 * n
/-- GEN_ID (R573). -/
def genId : Nat := 0x0
/-- GEN_VENDOR (R573). -/
def genVendor : Nat := 0x4
/-- GEN_UID_LO (R573). -/
def genUidLo : Nat := 0x8
/-- GEN_UID_HI (R573). -/
def genUidHi : Nat := 0xc
/-- GEN_FW_VER (R573). -/
def genFwVer : Nat := 0x10
/-- GEN_BOOT (R573). -/
def genBoot : Nat := 0x14
/-- GEN_MEM (R573). -/
def genMem : Nat := 0x18
/-- GEN_FUSE (R573). -/
def genFuse : Nat := 0x1c
/-- GEN_TIME_LO (R573). -/
def genTimeLo : Nat := 0x20
/-- GEN_TIME_HI (R573). -/
def genTimeHi : Nat := 0x24
/-- XBR_STAT (R574). -/
def xbrStat : Nat := 0x80000
/-- XBR_EVENT (R574). -/
def xbrEvent : Nat := 0x80010
/-- XBR_EVENT_EN (R574). -/
def xbrEventEn : Nat := 0x80014
/-- MCH_STAT of instance `n` (R575). -/
def mchStat (n : Nat) : Nat := 0x200000 + 0x10000 * n
/-- MCH_EVENT of instance `n` (R575). -/
def mchEvent (n : Nat) : Nat := 0x200010 + 0x10000 * n
/-- MCH_EVENT_EN of instance `n` (R575). -/
def mchEventEn (n : Nat) : Nat := 0x200014 + 0x10000 * n
/-- MCH_ECC_CORR of instance `n` (R575). -/
def mchEccCorr (n : Nat) : Nat := 0x200020 + 0x10000 * n
/-- MCH_SOFT_REPAIRS of instance `n` (R575). -/
def mchSoftRepairs (n : Nat) : Nat := 0x200024 + 0x10000 * n
/-- DBL_STAT (R408). -/
def dblStat : Nat := 0xf10000

end R

/-- The registers of block HPT. -/
def rowsHpt : List RegRow := [
  ⟨0x10000, 0, 1, 0x10000, 6, .rws, 0xa001, 0xfff01, false⟩,
  ⟨0x10008, 0, 1, 0x10000, 6, .commit, 0x0, 0xffffffff, false⟩,
  ⟨0x10010, 0, 1, 0x10000, 6, .ro, 0x0, 0xfffffbff, false⟩,
  ⟨0x10020, 0, 1, 0x10000, 6, .w1c, 0x0, 0xff, true⟩,
  ⟨0x10024, 0, 1, 0x10000, 6, .rw, 0x0, 0xff, false⟩,
  ⟨0x10030, 0, 1, 0x10000, 6, .cnt, 0x0, 0xffffffff, false⟩,
  ⟨0x10034, 0, 1, 0x10000, 6, .cnt, 0x0, 0xffffffff, false⟩,
  ⟨0x10038, 0, 1, 0x10000, 6, .cnt, 0x0, 0xffffffff, false⟩,
  ⟨0x10100, 0, 1, 0x10000, 6, .ro, 0x3ff0011, 0x3ff001f, false⟩,
  ⟨0x10104, 0, 1, 0x10000, 6, .ro, 0x0, 0x1, false⟩,
  ⟨0x10108, 0, 1, 0x10000, 6, .ro, 0x0, 0xf1, false⟩]

/-- The registers of block TRS. -/
def rowsTrs : List RegRow := [
  ⟨0x90000, 0, 1, 0x0, 1, .ro, 0x0, 0xffffffff, false⟩,
  ⟨0x90004, 0, 1, 0x0, 1, .ro, 0x0, 0xffffffff, false⟩,
  ⟨0x90008, 0, 1, 0x0, 1, .commit, 0x0, 0xffffffff, false⟩,
  ⟨0x90010, 0, 1, 0x0, 1, .rws, 0x711, 0xfff, false⟩,
  ⟨0x90014, 0, 1, 0x0, 1, .rwd, 0x5050, 0x7f7f, false⟩,
  ⟨0x90020, 0, 1, 0x0, 1, .w1c, 0x0, 0x3f, true⟩,
  ⟨0x90024, 0, 1, 0x0, 1, .rw, 0x0, 0x3f, false⟩,
  ⟨0x90028, 0, 1, 0x0, 1, .ro, 0x0, 0x80ffffff, false⟩,
  ⟨0x90030, 0, 1, 0x0, 1, .cnt, 0x0, 0xffffffff, false⟩,
  ⟨0x90034, 0, 1, 0x0, 1, .cnt, 0x0, 0xffffffff, false⟩,
  ⟨0x90038, 0, 1, 0x0, 1, .cnt, 0x0, 0xffffffff, false⟩,
  ⟨0x9003c, 0, 1, 0x0, 1, .cnt, 0x0, 0xffffffff, false⟩,
  ⟨0x90040, 0, 1, 0x0, 1, .cnt, 0x0, 0xffffffff, false⟩,
  ⟨0x90100, 4, 16, 0x0, 1, .ro, 0x0, 0x3ffffff, false⟩,
  ⟨0x90200, 4, 6, 0x0, 1, .ro, 0x0, 0x3fffffff, false⟩]

/-- The registers of block LVR. -/
def rowsLvr : List RegRow := [
  ⟨0xa0000, 0, 1, 0x0, 1, .commit, 0x0, 0xffffffff, false⟩,
  ⟨0xa0010, 0, 1, 0x0, 1, .rws, 0x6040, 0xffff, false⟩,
  ⟨0xa0014, 0, 1, 0x0, 1, .rws, 0x25c5853, 0xfffffff, false⟩,
  ⟨0xa0018, 0, 1, 0x0, 1, .rws, 0xc8, 0x3ff, false⟩,
  ⟨0xa0020, 0, 1, 0x0, 1, .w1c, 0x0, 0xf, true⟩,
  ⟨0xa0024, 0, 1, 0x0, 1, .rw, 0x0, 0xf, false⟩,
  ⟨0xa0030, 0, 1, 0x0, 1, .rws, 0xffffffff, 0xffffffff, false⟩,
  ⟨0xa0034, 0, 1, 0x0, 1, .rws, 0xff, 0xff, false⟩,
  ⟨0xa0100, 4, 16, 0x0, 1, .ro, 0x0, 0x3f0ff, false⟩,
  ⟨0xa1000, 16, 256, 0x0, 1, .rws, 0xff004000, 0xff01ffff, false⟩,
  ⟨0xa1004, 16, 256, 0x0, 1, .rws, 0x0, 0x7ffff, false⟩,
  ⟨0xa1008, 16, 256, 0x0, 1, .ro, 0x0, 0xfcffffff, false⟩,
  ⟨0xa100c, 16, 256, 0x0, 1, .ro, 0x0, 0x3ff, false⟩]

/-- The registers of block CHA. -/
def rowsCha : List RegRow := [
  ⟨0x100000, 0, 1, 0x10000, 8, .w1c, 0x0, 0xff, true⟩,
  ⟨0x100004, 0, 1, 0x10000, 8, .rw, 0x0, 0xff, false⟩,
  ⟨0x100010, 0, 1, 0x10000, 8, .ro, 0x0, 0x1fff007f, false⟩,
  ⟨0x100014, 0, 1, 0x10000, 8, .ro, 0x0, 0x1fff1fff, false⟩,
  ⟨0x100020, 0, 1, 0x10000, 8, .cnt, 0x0, 0xffffffff, false⟩,
  ⟨0x100024, 0, 1, 0x10000, 8, .cnt, 0x0, 0xffffffff, false⟩,
  ⟨0x100028, 0, 1, 0x10000, 8, .cnt, 0x0, 0xffffffff, false⟩,
  ⟨0x10002c, 0, 1, 0x10000, 8, .cnt, 0x0, 0xffffffff, false⟩,
  ⟨0x100030, 0, 1, 0x10000, 8, .cnt, 0x0, 0xffffffff, false⟩,
  ⟨0x100034, 0, 1, 0x10000, 8, .cnt, 0x0, 0xffffffff, false⟩,
  ⟨0x100100, 0, 1, 0x0, 1, .commit, 0x0, 0xffffffff, false⟩,
  ⟨0x101000, 16, 64, 0x0, 1, .rws, 0x40, 0xff0003ff, false⟩,
  ⟨0x101004, 16, 64, 0x0, 1, .rws, 0x0, 0x3fffffff, false⟩,
  ⟨0x101008, 16, 64, 0x0, 1, .rws, 0x0, 0x3fffffff, false⟩,
  ⟨0x10100c, 16, 64, 0x0, 1, .ro, 0x0, 0xff000000, false⟩]

/-- The registers of block ITR. -/
def rowsItr : List RegRow := [
  ⟨0x580000, 0, 1, 0x0, 1, .commit, 0x0, 0xffffffff, false⟩,
  ⟨0x580010, 0, 1, 0x0, 1, .rws, 0x8000, 0x1ffff, false⟩,
  ⟨0x580020, 0, 1, 0x0, 1, .w1c, 0x0, 0x1ff, true⟩,
  ⟨0x580024, 0, 1, 0x0, 1, .rw, 0x0, 0x1ff, false⟩,
  ⟨0x580030, 0, 1, 0x0, 1, .ro, 0x0, 0x8001ffff, false⟩,
  ⟨0x580034, 0, 1, 0x0, 1, .ro, 0x0, 0x7f, false⟩,
  ⟨0x580038, 0, 1, 0x0, 1, .ro, 0x7e, 0x7f7f, false⟩,
  ⟨0x580040, 0, 1, 0x0, 1, .cnt, 0x0, 0xffffffff, false⟩,
  ⟨0x580044, 0, 1, 0x0, 1, .cnt, 0x0, 0xffffffff, false⟩,
  ⟨0x580048, 0, 1, 0x0, 1, .cnt, 0x0, 0xffffffff, false⟩,
  ⟨0x58004c, 0, 1, 0x0, 1, .cnt, 0x0, 0xffffffff, false⟩,
  ⟨0x580050, 0, 1, 0x0, 1, .cnt, 0x0, 0xffffffff, false⟩,
  ⟨0x580054, 0, 1, 0x0, 1, .cnt, 0x0, 0xffffffff, false⟩,
  ⟨0x580058, 0, 1, 0x0, 1, .cnt, 0x0, 0xffffffff, false⟩,
  ⟨0x58005c, 0, 1, 0x0, 1, .cnt, 0x0, 0xffffffff, false⟩,
  ⟨0x580060, 0, 1, 0x0, 1, .ro, 0x0, 0xffffffc0, false⟩,
  ⟨0x580064, 0, 1, 0x0, 1, .ro, 0x0, 0xf00007ff, false⟩,
  ⟨0x580100, 8, 16, 0x0, 1, .rws, 0x0, 0x3ffffff, false⟩,
  ⟨0x580104, 8, 16, 0x0, 1, .rws, 0x0, 0x80003fff, false⟩,
  ⟨0x580200, 8, 64, 0x0, 1, .ro, 0x0, 0x7fffffff, false⟩,
  ⟨0x580204, 8, 64, 0x0, 1, .ro, 0x0, 0x80000003, false⟩,
  ⟨0x580400, 4, 126, 0x0, 1, .ro, 0x0, 0xc7ff1fff, false⟩]

/-- The registers of block ITRR. -/
def rowsItrr : List RegRow := [
  ⟨0xf30000, 0, 1, 0x0, 1, .ro, 0x0, 0x7, false⟩,
  ⟨0xf30008, 0, 1, 0x0, 1, .ro, 0x0, 0xffffffff, false⟩,
  ⟨0xf3000c, 0, 1, 0x0, 1, .ro, 0x0, 0xffffffff, false⟩,
  ⟨0xf30010, 0, 1, 0x0, 1, .ro, 0x0, 0xffffffff, false⟩,
  ⟨0xf30014, 0, 1, 0x0, 1, .ro, 0x0, 0xffffffff, false⟩,
  ⟨0xf30018, 0, 1, 0x0, 1, .ro, 0x0, 0xffffffff, false⟩,
  ⟨0xf3001c, 0, 1, 0x0, 1, .ro, 0x0, 0xffffffff, false⟩]

/-- The registers of block CRY. -/
def rowsCry : List RegRow := [
  ⟨0x400000, 0, 1, 0x10000, 20, .ro, 0x0, 0x8f000000, false⟩,
  ⟨0x400010, 0, 1, 0x10000, 20, .w1c, 0x0, 0x7, true⟩,
  ⟨0x400014, 0, 1, 0x10000, 20, .rw, 0x0, 0x7, false⟩,
  ⟨0x400020, 0, 1, 0x10000, 20, .cnt, 0x0, 0xffffffff, false⟩,
  ⟨0x400024, 0, 1, 0x10000, 20, .cnt, 0x0, 0xffffffff, false⟩,
  ⟨0x400028, 0, 1, 0x10000, 20, .cnt, 0x0, 0xffffffff, false⟩]

/-- The registers of block KHT. -/
def rowsKht : List RegRow := [
  ⟨0xf00000, 0, 1, 0x0, 1, .ro, 0x0, 0x8001ffff, false⟩,
  ⟨0xf00004, 0, 1, 0x0, 1, .ro, 0x0, 0xffffffff, false⟩,
  ⟨0xf00010, 8, 8, 0x0, 1, .ro, 0x0, 0xfcffffff, false⟩,
  ⟨0xf00014, 8, 8, 0x0, 1, .ro, 0x0, 0x3fff, false⟩,
  ⟨0xf01000, 8, 4096, 0x0, 1, .ro, 0x0, 0xffffffff, false⟩,
  ⟨0xf01004, 8, 4096, 0x0, 1, .ro, 0x0, 0xe000ff00, false⟩]

/-- The registers of block PCX. -/
def rowsPcx : List RegRow := [
  ⟨0x600000, 0, 1, 0x1000, 18, .ro, 0x0, 0x8f000000, false⟩,
  ⟨0x600010, 0, 1, 0x1000, 18, .w1c, 0x0, 0x3, true⟩,
  ⟨0x600014, 0, 1, 0x1000, 18, .rw, 0x0, 0x3, false⟩,
  ⟨0x600020, 0, 1, 0x1000, 18, .cnt, 0x0, 0xffffffff, false⟩,
  ⟨0x600024, 0, 1, 0x1000, 18, .cnt, 0x0, 0xffffffff, false⟩,
  ⟨0x600028, 0, 1, 0x1000, 18, .cnt, 0x0, 0xffffffff, false⟩,
  ⟨0x60002c, 0, 1, 0x1000, 18, .cnt, 0x0, 0xffffffff, false⟩]

/-- The registers of block PCXS. -/
def rowsPcxs : List RegRow := [
  ⟨0x61f000, 0, 1, 0x0, 1, .commit, 0x0, 0xffffffff, false⟩,
  ⟨0x61f010, 0, 1, 0x0, 1, .rws, 0xa01, 0xff03, false⟩,
  ⟨0x61f020, 0, 1, 0x0, 1, .w1c, 0x0, 0xf, true⟩,
  ⟨0x61f024, 0, 1, 0x0, 1, .rw, 0x0, 0xf, false⟩,
  ⟨0x61f030, 0, 1, 0x0, 1, .ro, 0x0, 0x1fff1fff, false⟩,
  ⟨0x61f040, 0, 1, 0x0, 1, .cnt, 0x0, 0xffffffff, false⟩,
  ⟨0x61f044, 0, 1, 0x0, 1, .cnt, 0x0, 0xffffffff, false⟩,
  ⟨0x61f050, 0, 1, 0x0, 1, .rw, 0x0, 0xfff, true⟩,
  ⟨0x61f054, 0, 1, 0x0, 1, .ro, 0x0, 0x80001fff, false⟩,
  ⟨0x61f058, 0, 1, 0x0, 1, .ro, 0x0, 0x3fffff, false⟩]

/-- The registers of block CJE. -/
def rowsCje : List RegRow := [
  ⟨0x700000, 0, 1, 0x0, 1, .commit, 0x0, 0xffffffff, false⟩,
  ⟨0x700010, 0, 1, 0x0, 1, .rws, 0x40, 0x1ff, false⟩,
  ⟨0x700020, 0, 1, 0x0, 1, .w1c, 0x0, 0x3, true⟩,
  ⟨0x700024, 0, 1, 0x0, 1, .rw, 0x0, 0x3, false⟩,
  ⟨0x700030, 0, 1, 0x0, 1, .cnt, 0x0, 0xffffffff, false⟩,
  ⟨0x700034, 0, 1, 0x0, 1, .cnt, 0x0, 0xffffffff, false⟩,
  ⟨0x701000, 32, 64, 0x0, 1, .rws, 0x4000000, 0xff3f03ff, false⟩,
  ⟨0x701004, 32, 64, 0x0, 1, .rws, 0x0, 0xfff, false⟩,
  ⟨0x701008, 32, 64, 0x0, 1, .rws, 0x0, 0xffffffff, false⟩,
  ⟨0x70100c, 32, 64, 0x0, 1, .rws, 0x0, 0xffffffff, false⟩,
  ⟨0x701010, 32, 64, 0x0, 1, .ro, 0x0, 0xcfffffff, false⟩,
  ⟨0x701014, 32, 64, 0x0, 1, .rw, 0x0, 0xfff, true⟩]

/-- The registers of block HBC. -/
def rowsHbc : List RegRow := [
  ⟨0x300000, 0, 1, 0x0, 1, .commit, 0x0, 0xffffffff, false⟩,
  ⟨0x300010, 0, 1, 0x0, 1, .rws, 0xa00001, 0x1ff0001, false⟩,
  ⟨0x300020, 0, 1, 0x0, 1, .w1c, 0x0, 0x3, true⟩,
  ⟨0x300024, 0, 1, 0x0, 1, .rw, 0x0, 0x3, false⟩,
  ⟨0x300030, 0, 1, 0x0, 1, .cnt, 0x0, 0xffffffff, false⟩,
  ⟨0x300034, 0, 1, 0x0, 1, .cnt, 0x0, 0xffffffff, false⟩,
  ⟨0x300038, 0, 1, 0x0, 1, .cnt, 0x0, 0xffffffff, false⟩,
  ⟨0x30003c, 0, 1, 0x0, 1, .cnt, 0x0, 0xffffffff, false⟩,
  ⟨0x300040, 0, 1, 0x0, 1, .cnt, 0x0, 0xffffffff, false⟩,
  ⟨0x300050, 0, 1, 0x0, 1, .ro, 0x0, 0x807fffff, false⟩]

/-- The registers of block TIR. -/
def rowsTir : List RegRow := [
  ⟨0x780000, 0, 1, 0x0, 1, .commit, 0x0, 0xffffffff, false⟩,
  ⟨0x780010, 0, 1, 0x0, 1, .rws, 0x80406, 0x7f1fff, false⟩,
  ⟨0x780020, 0, 1, 0x0, 1, .w1c, 0x0, 0xf, true⟩,
  ⟨0x780024, 0, 1, 0x0, 1, .rw, 0x0, 0xf, false⟩,
  ⟨0x780030, 0, 1, 0x0, 1, .cnt, 0x0, 0xffffffff, false⟩,
  ⟨0x780034, 0, 1, 0x0, 1, .cnt, 0x0, 0xffffffff, false⟩,
  ⟨0x780038, 0, 1, 0x0, 1, .cnt, 0x0, 0xffffffff, false⟩,
  ⟨0x78003c, 0, 1, 0x0, 1, .cnt, 0x0, 0xffffffff, false⟩,
  ⟨0x780040, 0, 1, 0x0, 1, .cnt, 0x0, 0xffffffff, false⟩,
  ⟨0x780050, 0, 1, 0x0, 1, .ro, 0x0, 0xbfff007f, false⟩,
  ⟨0x780100, 4, 16, 0x0, 1, .rws, 0x90001001, 0x9f00ffff, false⟩]

/-- The registers of block TEN. -/
def rowsTen : List RegRow := [
  ⟨0x800000, 0, 1, 0x0, 1, .commit, 0x0, 0xffffffff, false⟩,
  ⟨0x800010, 0, 1, 0x0, 1, .rws, 0x0, 0x80003fff, false⟩,
  ⟨0x800014, 0, 1, 0x0, 1, .rws, 0x0, 0xffffff, false⟩,
  ⟨0x800018, 0, 1, 0x0, 1, .rws, 0x0, 0xfffffff8, false⟩,
  ⟨0x800020, 0, 1, 0x0, 1, .w1c, 0x0, 0x1f, true⟩,
  ⟨0x800024, 0, 1, 0x0, 1, .rw, 0x0, 0x1f, false⟩,
  ⟨0x800030, 0, 1, 0x0, 1, .cnt, 0x0, 0xffffffff, false⟩,
  ⟨0x800034, 0, 1, 0x0, 1, .cnt, 0x0, 0xffffffff, false⟩,
  ⟨0x800038, 0, 1, 0x0, 1, .ro, 0x0, 0xfff, false⟩,
  ⟨0x801000, 16, 1024, 0x0, 1, .rws, 0x400000, 0xfff800ff, false⟩,
  ⟨0x801004, 16, 1024, 0x0, 1, .rws, 0x0, 0x3fff1fff, false⟩,
  ⟨0x801008, 16, 1024, 0x0, 1, .rws, 0x0, 0x3fff, false⟩,
  ⟨0x80100c, 16, 1024, 0x0, 1, .ro, 0x0, 0xfc00ffff, false⟩,
  ⟨0x820000, 8, 16384, 0x0, 1, .ro, 0x0, 0xffffffff, false⟩,
  ⟨0x820004, 8, 16384, 0x0, 1, .ro, 0x0, 0xffffffff, false⟩]

/-- The registers of block MGT. -/
def rowsMgt : List RegRow := [
  ⟨0x900000, 0, 1, 0x0, 1, .ro, 0x0, 0xc00001ff, false⟩,
  ⟨0x900010, 0, 1, 0x0, 1, .w1c, 0x0, 0x3, true⟩,
  ⟨0x900014, 0, 1, 0x0, 1, .rw, 0x0, 0x3, false⟩,
  ⟨0x900020, 0, 1, 0x0, 1, .rwd, 0x40, 0x7f, false⟩,
  ⟨0x900030, 0, 1, 0x0, 1, .cnt, 0x0, 0xffffffff, false⟩,
  ⟨0x900034, 0, 1, 0x0, 1, .ro, 0x0, 0xefffffff, false⟩,
  ⟨0x903000, 16, 8, 0x0, 1, .ro, 0x0, 0xffffe000, false⟩,
  ⟨0x903004, 16, 8, 0x0, 1, .rw, 0x0, 0x3ff, true⟩,
  ⟨0x903008, 16, 8, 0x0, 1, .ro, 0x0, 0x3ff, false⟩]

/-- The registers of block DBG. -/
def rowsDbg : List RegRow := [
  ⟨0xd00000, 0, 1, 0x0, 1, .ro, 0x0, 0x8000f0ff, false⟩,
  ⟨0xd00010, 0, 1, 0x0, 1, .w1c, 0x0, 0x1f, true⟩,
  ⟨0xd00014, 0, 1, 0x0, 1, .rw, 0x0, 0x1f, false⟩,
  ⟨0xd00020, 0, 1, 0x0, 1, .rw, 0x0, 0x800003ff, false⟩,
  ⟨0xd00030, 0, 1, 0x0, 1, .cnt, 0x0, 0xffffffff, false⟩,
  ⟨0xd00034, 0, 1, 0x0, 1, .ro, 0x0, 0x8fffffff, false⟩,
  ⟨0xd00038, 0, 1, 0x0, 1, .cnt, 0x0, 0xffffffff, false⟩,
  ⟨0xd0003c, 0, 1, 0x0, 1, .ro, 0x0, 0xffffffff, false⟩,
  ⟨0xd00040, 0, 1, 0x0, 1, .ro, 0x0, 0x8f1f00ff, false⟩]

/-- The registers of block MUL. -/
def rowsMul : List RegRow := [
  ⟨0xf20000, 16, 1088, 0x0, 1, .rwd, 0x0, 0xffffffff, false⟩,
  ⟨0xf20004, 16, 1088, 0x0, 1, .rwd, 0x0, 0xffffffff, false⟩,
  ⟨0xf20008, 16, 1088, 0x0, 1, .rwd, 0x0, 0xffffffff, false⟩,
  ⟨0xf2000c, 16, 1088, 0x0, 1, .rwd, 0x0, 0xc0000000, false⟩,
  ⟨0xf28000, 0, 1, 0x0, 1, .rwd, 0xf038004, 0xf03ff0f, false⟩,
  ⟨0xf28004, 0, 1, 0x0, 1, .rwd, 0x3, 0x3, false⟩]

/-- The registers of block OHM. -/
def rowsOhm : List RegRow := [
  ⟨0xa80000, 0, 1, 0x0, 1, .ro, 0x0, 0xffff00ff, false⟩,
  ⟨0xa80010, 0, 1, 0x0, 1, .w1c, 0x0, 0x3f, true⟩,
  ⟨0xa80014, 0, 1, 0x0, 1, .rw, 0x0, 0x3f, false⟩,
  ⟨0xa80020, 0, 1, 0x0, 1, .ro, 0x64080403, 0xffffff07, false⟩,
  ⟨0xa80030, 0, 1, 0x0, 1, .ro, 0x0, 0xffffffff, false⟩,
  ⟨0xa80034, 0, 1, 0x0, 1, .ro, 0x0, 0xffffffff, false⟩,
  ⟨0xa80040, 4, 4, 0x0, 1, .ro, 0x0, 0xffffffff, false⟩]

/-- The registers of block PWR. -/
def rowsPwr : List RegRow := [
  ⟨0xa00000, 0, 1, 0x0, 1, .commit, 0x0, 0xffffffff, false⟩,
  ⟨0xa00010, 0, 1, 0x0, 1, .rws, 0x40320000, 0xffff0000, false⟩,
  ⟨0xa00014, 0, 1, 0x0, 1, .rws, 0x6c6405, 0xffff0f, false⟩,
  ⟨0xa00020, 0, 1, 0x0, 1, .w1c, 0x0, 0x7f, true⟩,
  ⟨0xa00024, 0, 1, 0x0, 1, .rw, 0x0, 0x7f, false⟩,
  ⟨0xa00030, 0, 1, 0x0, 1, .ro, 0xc000000, 0xffc00000, false⟩,
  ⟨0xa00034, 0, 1, 0x0, 1, .ro, 0x0, 0xff80ffff, false⟩,
  ⟨0xa00038, 0, 1, 0x0, 1, .ro, 0xe1c0, 0xffff, false⟩,
  ⟨0xa0003c, 0, 1, 0x0, 1, .ro, 0x0, 0xffff, false⟩,
  ⟨0xa00040, 0, 1, 0x0, 1, .ro, 0x0, 0xff, false⟩,
  ⟨0xa00044, 0, 1, 0x0, 1, .ro, 0x0, 0xff, false⟩,
  ⟨0xa00048, 0, 1, 0x0, 1, .ro, 0xffffffff, 0xffffffff, false⟩,
  ⟨0xa0004c, 0, 1, 0x0, 1, .ro, 0x1ff, 0x1ff, false⟩,
  ⟨0xa00050, 0, 1, 0x0, 1, .rw, 0xffffffff, 0xffffffff, false⟩,
  ⟨0xa00054, 0, 1, 0x0, 1, .rw, 0xffffffff, 0xffffffff, false⟩,
  ⟨0xa00060, 0, 1, 0x0, 1, .ro, 0x0, 0xffffffff, false⟩,
  ⟨0xa00064, 0, 1, 0x0, 1, .ro, 0x0, 0xffffffff, false⟩,
  ⟨0xa00068, 0, 1, 0x0, 1, .ro, 0x0, 0xffffffff, false⟩,
  ⟨0xa0006c, 0, 1, 0x0, 1, .ro, 0x0, 0xffffffff, false⟩,
  ⟨0xa00100, 8, 7, 0x0, 1, .ro, 0x0, 0xffffffff, false⟩,
  ⟨0xa00104, 8, 7, 0x0, 1, .ro, 0x0, 0xffffffff, false⟩]

/-- The registers of block FLT. -/
def rowsFlt : List RegRow := [
  ⟨0xb00000, 0, 1, 0x0, 1, .commit, 0x0, 0xffffffff, false⟩,
  ⟨0xb00010, 0, 1, 0x0, 1, .rws, 0x410a400, 0xffffff00, false⟩,
  ⟨0xb00020, 0, 1, 0x0, 1, .w1c, 0x0, 0x7f, true⟩,
  ⟨0xb00024, 0, 1, 0x0, 1, .rw, 0x0, 0x7f, false⟩,
  ⟨0xb00030, 0, 1, 0x0, 1, .ro, 0x0, 0xc1ffffff, false⟩,
  ⟨0xb00034, 0, 1, 0x0, 1, .ro, 0x0, 0xffffffff, false⟩,
  ⟨0xb00040, 0, 1, 0x0, 1, .cnt, 0x0, 0xffffffff, false⟩,
  ⟨0xb00044, 0, 1, 0x0, 1, .cnt, 0x0, 0xffffffff, false⟩,
  ⟨0xb00048, 0, 1, 0x0, 1, .cnt, 0x0, 0xffffffff, false⟩,
  ⟨0xb0004c, 0, 1, 0x0, 1, .cnt, 0x0, 0xffffffff, false⟩,
  ⟨0xb00050, 0, 1, 0x0, 1, .cnt, 0x0, 0xffffffff, false⟩,
  ⟨0xb00054, 0, 1, 0x0, 1, .cnt, 0x0, 0xffffffff, false⟩,
  ⟨0xb00100, 4, 6, 0x0, 1, .ro, 0x0, 0xffffffff, false⟩,
  ⟨0xb00200, 4, 12, 0x0, 1, .ro, 0x0, 0xffff1f3f, false⟩,
  ⟨0xb10000, 4, 1992, 0x0, 1, .ro, 0x0, 0xffffffff, false⟩,
  ⟨0xb20000, 4, 3072, 0x0, 1, .ro, 0x0, 0xffffffff, false⟩]

/-- The registers of block STU. -/
def rowsStu : List RegRow := [
  ⟨0xb80000, 0, 1, 0x0, 1, .ro, 0x0, 0x807f031f, false⟩,
  ⟨0xb80010, 0, 1, 0x0, 1, .w1c, 0x0, 0x7, true⟩,
  ⟨0xb80014, 0, 1, 0x0, 1, .rw, 0x0, 0x7, false⟩,
  ⟨0xb80020, 0, 1, 0x0, 1, .cnt, 0x0, 0xffffffff, false⟩,
  ⟨0xb80024, 0, 1, 0x0, 1, .cnt, 0x0, 0xffffffff, false⟩,
  ⟨0xb80028, 0, 1, 0x0, 1, .cnt, 0x0, 0xffffffff, false⟩,
  ⟨0xb8002c, 0, 1, 0x0, 1, .cnt, 0x0, 0xffffffff, false⟩,
  ⟨0xb80030, 0, 1, 0x0, 1, .ro, 0x0, 0xf1ffffff, false⟩]

/-- The registers of block PMU. -/
def rowsPmu : List RegRow := [
  ⟨0xc00000, 0, 1, 0x0, 1, .commit, 0x0, 0xffffffff, false⟩,
  ⟨0xc00010, 0, 1, 0x0, 1, .rws, 0x0, 0x801f3fff, false⟩,
  ⟨0xc00020, 0, 1, 0x0, 1, .w1c, 0x0, 0x3f, true⟩,
  ⟨0xc00024, 0, 1, 0x0, 1, .rw, 0x0, 0x3f, false⟩,
  ⟨0xc00030, 0, 1, 0x0, 1, .ro, 0x0, 0xc000ffff, false⟩,
  ⟨0xc00034, 0, 1, 0x0, 1, .cnt, 0x0, 0xffffffff, false⟩,
  ⟨0xc00038, 0, 1, 0x0, 1, .cnt, 0x0, 0xffffffff, false⟩,
  ⟨0xc00040, 4, 8, 0x0, 1, .rws, 0x0, 0xffffffff, false⟩,
  ⟨0xc00080, 4, 16, 0x0, 1, .ro, 0x0, 0xffffffff, false⟩,
  ⟨0xc00100, 4, 32, 0x0, 1, .rws, 0x0, 0xffffffff, false⟩,
  ⟨0xc00200, 4, 32, 0x0, 1, .ro, 0xff, 0xffc007ff, false⟩,
  ⟨0xc01000, 4, 512, 0x0, 1, .rws, 0x0, 0xffff0fff, false⟩,
  ⟨0xc02000, 8, 512, 0x0, 1, .ro, 0x0, 0xffffffff, false⟩,
  ⟨0xc02004, 8, 512, 0x0, 1, .ro, 0x0, 0xffffffff, false⟩,
  ⟨0xc03000, 8, 64, 0x0, 1, .ro, 0x0, 0xffffffff, false⟩,
  ⟨0xc03004, 8, 64, 0x0, 1, .ro, 0x0, 0xffffffff, false⟩]

/-- The registers of block KPS. -/
def rowsKps : List RegRow := [
  ⟨0xe00000, 0, 1, 0x0, 1, .ro, 0x0, 0xc03fffff, false⟩,
  ⟨0xe00010, 0, 1, 0x0, 1, .w1c, 0x0, 0x7, true⟩,
  ⟨0xe00014, 0, 1, 0x0, 1, .rw, 0x0, 0x7, false⟩,
  ⟨0xe00020, 0, 1, 0x0, 1, .cnt, 0x0, 0xffffffff, false⟩,
  ⟨0xe00024, 0, 1, 0x0, 1, .ro, 0x0, 0xc00003ff, false⟩,
  ⟨0xe01000, 4, 1024, 0x0, 1, .rwk, 0x0, 0xffffffff, false⟩,
  ⟨0xe02000, 4, 1024, 0x0, 1, .ro, 0x0, 0x800fffff, false⟩]

/-- The registers of block GEN. -/
def rowsGen : List RegRow := [
  ⟨0x0, 0, 1, 0x0, 1, .ro, 0x9616a000, 0xfffffff0, false⟩,
  ⟨0x4, 0, 1, 0x0, 1, .ro, 0x1f8c, 0xffff, false⟩,
  ⟨0x8, 0, 1, 0x0, 1, .ro, 0x0, 0xffffffff, false⟩,
  ⟨0xc, 0, 1, 0x0, 1, .ro, 0x0, 0xffffffff, false⟩,
  ⟨0x10, 0, 1, 0x0, 1, .ro, 0x0, 0xffffffff, false⟩,
  ⟨0x14, 0, 1, 0x0, 1, .ro, 0x0, 0xfe000000, false⟩,
  ⟨0x18, 0, 1, 0x0, 1, .ro, 0x0, 0x3fffffff, false⟩,
  ⟨0x1c, 0, 1, 0x0, 1, .ro, 0x0, 0x3, false⟩,
  ⟨0x20, 0, 1, 0x0, 1, .ro, 0x0, 0xffffffff, false⟩,
  ⟨0x24, 0, 1, 0x0, 1, .ro, 0x0, 0xffffffff, false⟩]

/-- The registers of block XBR. -/
def rowsXbr : List RegRow := [
  ⟨0x80000, 0, 1, 0x0, 1, .ro, 0x0, 0xfff0ff, false⟩,
  ⟨0x80010, 0, 1, 0x0, 1, .w1c, 0x0, 0x3, true⟩,
  ⟨0x80014, 0, 1, 0x0, 1, .rw, 0x0, 0x3, false⟩]

/-- The registers of block MCH. -/
def rowsMch : List RegRow := [
  ⟨0x200000, 0, 1, 0x10000, 16, .ro, 0x0, 0xffc001ff, false⟩,
  ⟨0x200010, 0, 1, 0x10000, 16, .w1c, 0x0, 0xf, true⟩,
  ⟨0x200014, 0, 1, 0x10000, 16, .rw, 0x0, 0xf, false⟩,
  ⟨0x200020, 0, 1, 0x10000, 16, .cnt, 0x0, 0xffffffff, false⟩,
  ⟨0x200024, 0, 1, 0x10000, 16, .cnt, 0x0, 0xffffffff, false⟩]

/-- The registers of block DBL. -/
def rowsDbl : List RegRow := [
  ⟨0xf10000, 0, 1, 0x0, 1, .ro, 0x0, 0xffffffff, false⟩]

/-- The rows of the block whose window range holds offset `o` (R570, R571); none in a gap. -/
def blockRows (o : Nat) : List RegRow :=
  if o < 0x0 then [] else if o < 0x10000 then rowsGen else
  if o < 0x10000 then [] else if o < 0x70000 then rowsHpt else
  if o < 0x80000 then [] else if o < 0x90000 then rowsXbr else
  if o < 0x90000 then [] else if o < 0xa0000 then rowsTrs else
  if o < 0xa0000 then [] else if o < 0xb0000 then rowsLvr else
  if o < 0x100000 then [] else if o < 0x180000 then rowsCha else
  if o < 0x200000 then [] else if o < 0x300000 then rowsMch else
  if o < 0x300000 then [] else if o < 0x310000 then rowsHbc else
  if o < 0x400000 then [] else if o < 0x540000 then rowsCry else
  if o < 0x580000 then [] else if o < 0x590000 then rowsItr else
  if o < 0x600000 then [] else if o < 0x612000 then rowsPcx else
  if o < 0x61f000 then [] else if o < 0x620000 then rowsPcxs else
  if o < 0x700000 then [] else if o < 0x710000 then rowsCje else
  if o < 0x780000 then [] else if o < 0x790000 then rowsTir else
  if o < 0x800000 then [] else if o < 0x840000 then rowsTen else
  if o < 0x900000 then [] else if o < 0x910000 then rowsMgt else
  if o < 0xa00000 then [] else if o < 0xa10000 then rowsPwr else
  if o < 0xa80000 then [] else if o < 0xa90000 then rowsOhm else
  if o < 0xb00000 then [] else if o < 0xb30000 then rowsFlt else
  if o < 0xb80000 then [] else if o < 0xb90000 then rowsStu else
  if o < 0xc00000 then [] else if o < 0xc10000 then rowsPmu else
  if o < 0xd00000 then [] else if o < 0xd20000 then rowsDbg else
  if o < 0xe00000 then [] else if o < 0xe10000 then rowsKps else
  if o < 0xf00000 then [] else if o < 0xf10000 then rowsKht else
  if o < 0xf10000 then [] else if o < 0xf11000 then rowsDbl else
  if o < 0xf20000 then [] else if o < 0xf30000 then rowsMul else
  if o < 0xf30000 then [] else if o < 0xf31000 then rowsItrr else
  []

/-- The row of the register at offset `o` (R567: none where no register is). -/
def regRow (o : Nat) : Option RegRow := (blockRows o).find? (·.holds o)

/-- The distance from an RWS register to its active mirror (R109). -/
def mirrorGap (o : Nat) : Nat := if 0x61f000 ≤ o ∧ o < 0x620000 then 0x800 else 0x8000

/-- The RWS register whose active mirror lies at offset `o` (R109). -/
def mirrorOf (o : Nat) : Option Nat :=
  let g := if 0x61f800 ≤ o ∧ o < 0x620000 then 0x800 else 0x8000
  if o < g then none
  else match regRow (o - g) with
    | some r => if r.acc = .rws ∧ mirrorGap (o - g) = g then some (o - g) else none
    | none => none

/-- The value a register reads before anything has written it: its reset value (R111 for commit registers); an active
mirror's is its staged register's (R109). -/
def regReset (o : Nat) : Reg :=
  match regRow o with
  | some r => BitVec.ofNat 32 r.reset
  | none => match mirrorOf o with
    | some x => match regRow x with
      | some r => BitVec.ofNat 32 r.reset
      | none => 0
    | none => 0

end Sys2Proof.Machine
end

