-- ==== Sys2Proof/Machine/Types.lean ====
section
/-! DEFINITION. Machine/Types.lean: the parts State is made of, one structure per kind of state the chapters name. All of it
is plain data. Tables (`Tbl`) are keyed by the number the spec gives the thing and hold only what differs from its initial
value. -/

namespace Sys2Proof.Machine

/-! ## What the device sends -/

/-- FCX completion extension (R53). -/
structure CplExt where
  gen : Nat
  ttag : Nat
  late : Bool
  attr : Nat
  deriving DecidableEq, Repr

/-- DevLoad of an S2M message (R58, R59). -/
inductive DevLoad where
  | light | optimal | moderate | severe
  deriving DecidableEq, Repr

/-- Grant carried by a completion (R158). -/
inductive GrantSt where
  | none | s | e | m
  deriving DecidableEq, Repr

/-- Snoop kinds (R154). -/
inductive Snp where
  | shared | inv | cur
  deriving DecidableEq, Repr

/-- Kinds of CXL event record the chapters name. -/
inductive Ev where
  /-- a request failed a check of R46 (R47): tenancy tag or LD-ID -/
  | tenMismatch (id : Nat)
  /-- no-bay outcome (R361): TA -/
  | noBay (ta : Nat)
  /-- General Media Event naming a TA (R228, R504) -/
  | media (ta : Nat)
  /-- DRAM Event (R504): event code -/
  | dram (code : Nat)
  /-- Memory Module Event (R504): event code, channel -/
  | module (code ch : Nat)
  /-- domain down (R188): domain, cause -/
  | domainDown (dom cause : Nat)
  /-- contract demoted (R100) -/
  | demoted (con : Nat)
  /-- tenancy reset or removed: new generation (R372) -/
  | generation (ten gen : Nat)
  /-- Dynamic Capacity add / release request / forced release of the extent at a TA (R366, R368) -/
  | dcAdd (ta : Nat)
  | dcRelease (ta : Nat)
  | dcForced (ta : Nat)
  deriving DecidableEq, Repr

/-- One value of a packet payload: width in bytes, value (little-endian, R9). -/
abbrev PayVal := Nat × Nat

/-- A reply packet (R387): the endpoint and SEQ of its command, opcode, STATUS, DETAIL and payload. -/
structure Reply where
  via : Via
  seq : Nat
  opcode : Nat
  /-- FINAL = 0: an interim reply (R387) -/
  interim : Bool
  /-- REPLAYED (R390) -/
  replayed : Bool
  status : Nat
  detail : Nat
  payload : List PayVal
  deriving DecidableEq, Repr

/-- A notice (R399): code, two arguments, the time base when it arose. -/
structure Notice where
  code : Nat
  arg0 : Nat
  arg1 : Nat
  time : Nat
  deriving DecidableEq, Repr

/-- Protocols of a function's DOE mailbox (R43). -/
inductive DoeProt where
  | cmaSpdm | securedSpdm | tableAccess
  deriving DecidableEq, Repr

/-- What a function's configuration space answers (R42, R43, R45): Memory_Active and Mem_Enable of the CXL DVSEC, its Memory Active
timeout in seconds, the MSI-X vectors, whether ASPM L1 is allowed, the bytes BAR0 maps, the protocols of its DOE mailbox. -/
structure CfgAns where
  memActive : Bool
  memEnable : Bool
  memActiveTimeout : Nat
  vectors : Nat
  aspmL1 : Bool
  bar0 : Nat
  doe : List DoeProt
  deriving DecidableEq, Repr

/-- Everything the device emits. -/
inductive Out where
  /-- S2M DRS: read data (`none`: poisoned) to port, tag, grant, completion extension on FCX ports, DevLoad -/
  | drs (port ld tag : Nat) (data : Option Line) (grant : GrantSt) (ext : Option CplExt) (load : DevLoad)
  /-- S2M NDR (Cmp) -/
  | ndr (port ld tag : Nat) (grant : GrantSt) (ext : Option CplExt) (load : DevLoad)
  /-- S2M BISnp (R154): the line's TA in the member's space, kind, F, GEN and TTAG of the member, DevLoad (R59);
  `fcx` with companion slot -/
  | biSnp (port ta : Nat) (k : Snp) (f : Bool) (gen ttag : Nat) (fcx : Bool) (load : DevLoad)
  /-- FCX credit grant (R54), in the companion slot of the S2M header with this tag, which follows it (R51, R55) -/
  | grant (port ten rd wr transom gen tag : Nat)
  /-- CXL event record; the MSI-X interrupt goes with it -/
  | event (port : Nat) (e : Ev)
  /-- MSI-X vector of a port's function -/
  | msix (port vec : Nat)
  /-- BIConflictAck answer (R178) -/
  | biConflictAck (port ta : Nat)
  /-- a reply packet, an asynchronous notice to an endpoint or a ring -/
  | reply (r : Reply)
  | noticeTo (eid : Nat) (n : Notice)
  /-- CXL mailbox reply: opcode, return code, vendor status, payload -/
  | cxl (port ld opcode rc vendor : Nat) (payload : List PayVal)
  /-- SPDM response on a channel: message kind, free standard payload -/
  | spdm (ch : SpdmCh) (kind : Nat) (payload : Nat)
  /-- configuration response: retry status, or completed (R42) -/
  | cfgRetry (port ld : Nat)
  | cfgOk (port ld : Nat) (a : CfgAns)
  /-- register read data -/
  | regData (src : Src) (offset value : Nat)
  /-- an interrupt to firmware: EVENT register offset, bit (R69 and its likes) -/
  | fwInt (offset bitNo : Nat)
  /-- port signals: viral, AER fatal (R517, R64) -/
  | viral (port : Nat)
  | aerFatal (port : Nat)
  /-- SB_ALERT0_N / SB_ALERT1_N (R502, R517), true asserted; an alert that asserts is also the in-band interrupt of the management
  sideband (R67) -/
  | alert (n : Nat) (on : Bool)
  /-- a link frame between the dies (R462): command or notice code -/
  | ohmFrame (code : Nat)
  /-- a debug access completes (R429): the data of a read (`none`: poisoned), the status -/
  | dbgData (data : Option Line) (status : Nat)
  /-- a JTAG read of the window returns (R426) -/
  | dbgWord (value : Nat)
  deriving DecidableEq, Repr

/-! ## Ports (02) -/

/-- Port modes (R33). -/
inductive PortMode where
  | sld | mld | fcx
  deriving DecidableEq, Repr

/-- One SPDM session (R65, R66). -/
structure Session where
  id : Nat
  mutualAuth : Bool
  established : Bool
  keys : Nat
  deriving DecidableEq, Repr

/-- One host port. -/
structure Port where
  /-- HPn_PERST_N asserted -/
  perst : Bool
  /-- link training runs -/
  training : Bool
  linkUp : Bool
  speed : Nat
  x8 : Bool
  flit : Nat
  retrains : Nat
  /-- the committed link fields the running link trained under (R69) -/
  cfg : Reg
  /-- tenant LDs in force since link-up (R69) -/
  ldCount : Nat
  /-- Mem_Enable bit of each LD's DVSEC -/
  memEn : Nat
  /-- the mode fixed since Mem_Enable (R33) -/
  mode : Option PortMode
  fcxReq : Bool
  granted : Bool
  refuse : Nat
  epoch : Nat
  ideMem : Nat
  ideIo : Bool
  /-- IDE key sets: (CXL.mem stream?, set, value) (R62) -/
  ideKeys : List (Bool × Nat × Nat)
  /-- HELD: line rate the threshold holds (R37) -/
  held : Nat
  /-- a line rate to report at the next boundary (R37) -/
  report : Option Nat
  /-- Memory_Active of the CXL DVSEC (R42) -/
  memActive : Bool
  viral : Bool
  /-- start-up policy trains the port at x8 (R554) -/
  forceX8 : Bool
  sessions : List Session
  deriving DecidableEq, Repr

/-! ## Transactions on the path of a request -/

/-- What a request does. -/
inductive Op where
  | rd | wr | wrPart
  | rdShared | rdOwn | rdOwnNoData | rdCur
  deriving DecidableEq, Repr

/-- Where a request stands. -/
inductive Stage where
  /-- in its port's receive buffer: the home's hold is full (R121) -/
  | port
  /-- in the home's waitlist: line Busy, write-pending, set full or recall (R166, R296) -/
  | waitlist
  /-- waiting for the HBM directory set (R181) -/
  | dirFetch
  /-- it made its line Busy and waits for snoop responses (R160) -/
  | snoop
  /-- waiting for its page-map line (R290) -/
  | pageMap
  /-- held by HOLD of its page (R300, R336) -/
  | pageHold
  /-- in the home's hold for a queue entry (R117, R120) -/
  | hold
  /-- at the home for a place in the lane's write buffer -/
  | laneWait
  /-- passed to the memory side: transfers queued or issued -/
  | mem
  /-- a granule waits in the lane for its counter (R249) -/
  | counter
  /-- a re-read runs (R237) -/
  | test
  /-- a write at its page home (R297) -/
  | pane
  deriving DecidableEq, Repr

/-- Verdict of a granule read (R224): plaintext, or what failed. Codes are those of ITR_LAST_DGA_HI. -/
inductive GRes where
  | data (l : Line)
  | poisoned
  | keyMismatch
  | fail (code : Nat)
  | lost
  deriving DecidableEq, Repr

/-- A request in flight. -/
structure Txn where
  id : Nat
  /-- master identity (R15) -/
  master : Nat
  port : Nat
  ld : Nat
  tag : Nat
  ten : Nat
  gen : Nat
  op : Op
  ta : Nat
  dla : Nat
  /-- bay-table entry resolved at step 3 of R26 -/
  entry : Nat
  kidx : Nat
  data : Line
  mask : BitVec 64
  /-- deadline class 0–3, 4 best effort -/
  cls : Nat
  /-- time base at credit spend or receive (R81, R131) -/
  stamp : Nat
  /-- the port's link epoch (R40) -/
  epoch : Nat
  /-- matching contracts with their shares in the admission transom (R83, R84) -/
  matched : List (Nat × Nat)
  /-- contract whose share it drew from: an admitted line (R84) -/
  con : Option Nat
  louvre : Nat
  /-- FCX companion slots in use (R53) -/
  fcx : Bool
  stage : Stage
  ordered : Bool
  /-- channel of its granules -/
  ch : Nat
  /-- granules still wanted, and those that came back -/
  need : List Nat
  got : List (Nat × GRes)
  /-- want_kind of R224 and the pane it decodes: LEN, 8 for single granules (R291) -/
  wantKind : Nat
  paneLen : Nat
  /-- it served a substitution read (R267), a cache miss that may fill (R345) -/
  subst : Bool
  mayFill : Bool
  /-- arrivals whose counter is not known yet (R249) -/
  arrived : List (Nat × Arrival)
  /-- first failure of a granule under re-read (R237) -/
  retry : List (Nat × Nat)
  /-- a fault interruption on its path, a late host of another port (R93) -/
  faultHit : Bool
  hostLate : Bool
  /-- promoted by a contract line: deadline (R122) -/
  promoted : Option Nat
  /-- earlier transactions of other ports it waited behind (R93) -/
  waited : Nat
  /-- grant decided by the home (R160) -/
  grant : GrantSt
  /-- transom in which its best-effort queue entry was taken (R128) -/
  since : Nat
  /-- order number at which its crypto lane accepted it (R300) -/
  seq : Nat
  /-- transfers of requests promoted for it, drawn together with its own (R122) -/
  carry : Nat
  /-- its best-effort queue entry (R117), and its order number there -/
  own : Option Nat
  age : Nat
  /-- the codec that serves its channel errs on its pane (R295) -/
  slip : Bool
  /-- keystreams formed when the counter was delivered (R247): granule, MAJOR, minor, key -/
  ks : List (Nat × Nat × Nat × Nat)
  deriving DecidableEq, Repr

/-- How a request ends. -/
inductive Done where
  /-- data and the grant -/
  | data (l : Line) (g : GrantSt)
  /-- poisoned data -/
  | poison
  /-- Cmp of a write or a data-less grant -/
  | cmp (g : GrantSt)
  /-- poisoned write completion (R228) -/
  | poisonWr
  /-- an internal master's access that a region register denied: its status is NOT_PERMITTED (R417) -/
  | denied
  /-- dropped without an answer -/
  | gone
  deriving DecidableEq, Repr

/-- What waits to leave a host port (R130): the completion of a request, or an FCX credit grant (R55). -/
inductive Egr where
  | cpl (t : Txn) (r : Done)
  | grant (ten rd wr transom gen : Nat)
  deriving DecidableEq, Repr

/-- A port's sending side: what waits, and how many messages it has sent in which reference cycle (R36). -/
structure Egress where
  waiting : List Egr
  sentAt : Nat
  sent : Nat
  deriving DecidableEq, Repr

/-- An entry of a channel's best-effort queue (R117): its number, its louvre, the transom and the order in which it was taken. It
frees when no transfer under its number is left to issue. -/
structure BeEntry where
  own : Nat
  ch : Nat
  louvre : Nat
  since : Nat
  age : Nat
  deriving DecidableEq, Repr

/-- What reads and stores granules by itself, at the page home, the mover or the walker. -/
inductive WKey where
  /-- a page operation -/
  | page (seq : Nat)
  /-- a move's copy -/
  | copy (page : Nat)
  /-- a granule's re-key -/
  | rekey (dga : Nat)
  /-- a log buffer entry's line -/
  | log (ten : Nat) (mapB : Bool) (line : Nat)
  /-- a pending granule -/
  | reenc (dga : Nat)
  deriving DecidableEq, Repr

/-- Such an operation whose reads have been queued (R76, R96): the queue entry it holds, the granules read, when it entered. -/
structure WOp where
  key : WKey
  own : Option Nat
  gs : List Nat
  start : Nat
  deriving DecidableEq, Repr

/-- One transfer waiting in a channel's queues (R127): a granule read of a request, a granule write, a metadata
transfer. -/
structure Xfer where
  seq : Nat
  ch : Nat
  write : Bool
  dga : Nat
  /-- the request it serves -/
  txn : Option Nat
  /-- the best-effort queue entry it belongs to (R117); the line it serves, as DLA / 64 (`none`: metadata) -/
  own : Option Nat
  line : Option Nat
  /-- the operation whose read it is -/
  wop : Option WKey
  /-- group of R127: 2 contract, 3 contract metadata, 4 best effort -/
  group : Nat
  deadline : Nat
  louvre : Nat
  /-- transom from which it has waited, and its order among its louvre's (R127, R128): its entry's -/
  since : Nat
  age : Nat
  /-- slot class of R532 it is counted in when issued -/
  slotCls : Nat
  /-- contract whose line it serves (R231) -/
  con : Option Nat
  deriving DecidableEq, Repr

/-- An entry of a crypto lane's write buffer (R28, R226). -/
structure LaneEnt where
  seq : Nat
  ch : Nat
  dga : Nat
  /-- the line it stores (R228) -/
  dla : Nat
  data : Line
  kind : Nat
  poison : Bool
  kidx : Nat
  /-- DLA bay the store belongs to (R258, R369) and CACHE flag (R347) -/
  bay : Nat
  cache : Bool
  master : Nat
  louvre : Nat
  con : Option Nat
  group : Nat
  deadline : Nat
  /-- the best-effort entry it belongs to (R117), when it was taken and its order -/
  own : Option Nat
  since : Nat
  age : Nat
  /-- the job queue it stores for (R228) -/
  tag : Nat
  /-- a corrected granule written back unchanged (R225) -/
  raw : Option Granule
  /-- it re-encrypts a pending granule (R230): minor already 1 -/
  reenc : Bool
  /-- physical fill (R272, R198) -/
  fill : Bool
  /-- entered on the write-back lane (R168) -/
  wb : Bool
  /-- it waited for a pending image (R232) -/
  waited : Bool
  deriving DecidableEq, Repr

/-- A granule encrypted and waiting for its DRAM write slot. -/
structure WqEnt where
  seq : Nat
  dga : Nat
  g : Granule
  deriving DecidableEq, Repr

/-! ## Admission (03) and louvres (04) -/

inductive ConState where
  | awaiting | active | frozen | demoted
  deriving DecidableEq, Repr

/-- What a contract reserves: terms with PEAK and FETCH resolved (R85), its interleave set, DLA bays, share (R87). -/
structure ConUse where
  t : Terms
  set : Nat
  dla : List Nat
  share : Nat
  deriving DecidableEq, Repr

/-- A change to a contract (R90): the new terms, the command, the boundary its reply named (`none`: a leaf fill delays the reply). -/
structure Change where
  use : ConUse
  hdr : Hdr
  eff : Option Nat
  deriving DecidableEq, Repr

/-- A contract (R85, R90). -/
structure Contract where
  id : Nat
  ten : Nat
  use : ConUse
  st : ConState
  /-- acceptance order (R99) -/
  acc : Nat
  /-- the boundary its accepting reply named, while it awaits it -/
  eff : Option Nat
  /-- the command whose accepting reply a leaf fill delays (R221), with its opcode -/
  reply : Option (Hdr × Nat)
  /-- changes whose boundary has not come, oldest first (R90) -/
  changes : List Change
  /-- boundary at which CON_DELETE takes effect -/
  release : Option Nat
  /-- sweep verdict to apply at the next boundary (R99) -/
  verdict : Option Bool
  deriving DecidableEq, Repr

/-- Credit of a tenancy for the current transom (R58, R92). -/
structure Credit where
  rdAllot : Nat
  wrAllot : Nat
  rd : Nat
  wr : Nat
  deriving DecidableEq, Repr

/-- A share use record: contract, channel, transom, amount (R84, R231). -/
structure Draw where
  con : Nat
  ch : Nat
  transom : Nat
  n : Nat
  deriving DecidableEq, Repr

structure Trs where
  contracts : Tbl Contract
  nextAcc : Nat
  /-- schedulable slots in force on each channel, quarter-slot caps, port caps -/
  sched : Tbl Nat
  capQ : Tbl Nat
  capPort : Tbl Nat
  credit : Tbl Credit
  drawn : List Draw
  earned : List Draw
  debt : List Draw
  /-- boundary by which the running sweep ends (R99, R101) -/
  sweep : Option Nat
  demotedLast : Nat
  /-- contract commands received during a sweep (R101) -/
  deferred : List Instr
  deriving DecidableEq, Repr

/-- One louvre's measurement (R131–R133). -/
structure Lv where
  e : Nat
  step : Nat
  prio : Nat
  sum : Nat
  n : Nat
  deriving DecidableEq, Repr

/-- Readings of one DIMM (R134, R135, R138, R512, R544). -/
structure Dimm where
  present : Bool
  temp : Nat
  power : Nat
  readFail : Bool
  highTemp : Bool
  /-- consecutive failed reads -/
  fails : Nat
  /-- level the last reading gave, and the levels of the last two readings with thresholds lowered by HYST -/
  level : Nat
  hyst1 : Nat
  hyst2 : Nat
  /-- consecutive readings at or above TCRIT, DIMM_CRIT recorded -/
  crit : Nat
  critDone : Bool
  /-- above 85 °C (R73) -/
  hot85 : Bool
  deriving DecidableEq, Repr

/-- One DDR5 channel (R18, R511, R575). -/
structure Chan where
  trained : Bool
  excluded : Bool
  /-- excluded or untrained since start-up: CH_READMIT does not apply (R511) -/
  atStart : Bool
  dimms : Nat
  gib : Nat
  fast : Bool
  cons : Bool
  /-- SPARE_RANK field of MCHn_STAT -/
  spare : Nat
  /-- GiB of that rank, held out of the DGA space -/
  spareGib : Nat
  /-- throttle level in force and level waiting for the boundary (R135) -/
  level : Nat
  levelNext : Nat
  /-- best-effort slots issued in this transom (R136) -/
  beUsed : Nat
  /-- the louvre served last at each priority (R127) -/
  turn : Tbl Nat
  retired : List (Nat × Nat)
  /-- row tracker: (slot, row, count), least recently hit first (R503) -/
  tracker : List (Nat × Nat × Nat)
  /-- units serving the channel (R16, R513) -/
  lane : Nat
  codec : Nat
  /-- readmission waits for the boundary (R511) -/
  readmit : Bool
  /-- DIMM self-refresh after DIMM_CRIT (R511) -/
  selfRefresh : Bool
  /-- DIMM slot whose rank is being copied to the spare rank, and the row that failed in it -/
  spareSlot : Nat
  spareRow : Nat
  /-- a CH_READMIT that runs (R511) -/
  readmitCmd : Option Hdr
  deriving DecidableEq, Repr

/-! ## Coherence (05) -/

/-- Stable directory states (R149). -/
inductive DSt where
  | i | s | x | o
  deriving DecidableEq, Repr

/-- Directory state of a line: owner in X and O, sharer ports as bits. -/
structure Dir where
  st : DSt
  owner : Nat
  sharers : Nat
  deriving DecidableEq, Repr

/-- A directory entry (R151) with its place: its HBM way (R180), on-die copy, modified since fetched, use order, a copy in HBM. -/
structure DirEnt where
  dom : Nat
  d : Dir
  way : Nat
  onDie : Bool
  dirty : Bool
  inHbm : Bool
  lru : Nat
  deriving DecidableEq, Repr

/-- A snoop outstanding (R154–R156, R186). -/
structure SnpOut where
  port : Nat
  k : Snp
  f : Bool
  /-- time base when it became due -/
  due : Nat
  rsp : Option (Rsp × Bool)
  /-- data with the keyhole index it came with -/
  data : Option (Line × Nat)
  late : Bool
  deriving DecidableEq, Repr

/-- A Busy line (R150, R165): the transaction (`none`: a recall), stable state to fall back to, next state, snoops, data
taken, and the CompAck owed. -/
structure Busy where
  dla : Nat
  dom : Nat
  txn : Option Nat
  /-- its HBM set is being read (R181): what follows is not known yet -/
  fetch : Bool
  /-- the HBM way its entry has, or will have (R180) -/
  way : Nat
  stable : Dir
  next : Dir
  /-- the state the snoops were sent for: sharers that leave meanwhile are taken out, the snooped owner is not (R161) -/
  was : Dir
  snoops : List SnpOut
  /-- write-back data kept for the transaction (R172): port, data, keyhole index -/
  kept : List (Nat × Line × Nat)
  /-- CompAck owed by a port, the time base since when it is due (`none`: its completion has not left), late already counted (R186) -/
  ack : Option (Nat × Option Nat × Bool)
  /-- ports whose response or CompAck has been late (R93) -/
  lates : List Nat
  deriving DecidableEq, Repr

/-- A directory sweep (R145, R146, R192): domain, what it recalls (a leaving port, lines of a bay, all), whether it only
clears entries, HBM lines left, and the operation that waits for it. -/
structure Sweep where
  dom : Nat
  port : Option Nat
  bay : Option Nat
  clear : Bool
  linesLeft : Nat
  /-- the transom of its last step and the lines read in it (R146) -/
  last : Nat × Nat
  /-- the command it serves: DOM_LEAVE, DOM_DESTROY or DOM_REBUILD -/
  cmd : Option Instr
  deriving DecidableEq, Repr

inductive BaySt where
  | empty | live | recalling | fenced | scrubbing
  deriving DecidableEq, Repr

/-- A bay-table entry (R362). -/
structure Bt where
  st : BaySt
  cache : Bool
  mode : Nat
  inDom : Bool
  dom : Nat
  policy : Nat
  defKey : Nat
  ten : Nat
  dlaBay : Nat
  deriving DecidableEq, Repr

structure Home where
  txns : Tbl Txn
  nextTxn : Nat
  dir : Tbl DirEnt
  busy : List Busy
  sweeps : Tbl Sweep
  /-- peak waitlist occupancy per slice (R194) -/
  waitPeak : Tbl Nat
  /-- on-die directory locations disabled at start-up (R184, R551): slice × 2^16 + set -/
  waysOut : List Nat
  /-- lines whose recall waits for a place in its on-die set (R184), as DLA / 64 -/
  recalls : List Nat
  /-- access-count LFSR of each slice (R329) -/
  lfsr : Tbl (BitVec 16)
  /-- CHA0_DOM_STAT of each domain: STATE, CAUSE, PORT -/
  domState : Tbl (Nat × Nat × Nat)
  /-- BIConflicts received and not yet acknowledged: port, TA (R178) -/
  conflicts : List (Nat × Nat)
  /-- bays staying with a DOWN domain although no entry names them any more, with the entry they had (R378) -/
  kept : Tbl (List Bt)
  /-- DOM_REBUILD commands whose domain's bays are being scrubbed (R192) -/
  rebuilds : List Instr
  deriving DecidableEq, Repr

/-! ## Integrity (06) and keys (07) -/

/-- A counter node (R203): shared major, and the non-zero minors by slot. -/
structure Node where
  major : Nat
  minors : Tbl Nat
  deriving DecidableEq, Repr

/-- An off-die copy of a node with its MAC (R208, R211). -/
structure Stored where
  node : Node
  mac : Nat
  deriving DecidableEq, Repr

/-- A counter-cache entry (R212, R216): the node, dirty, use order, and who dirtied it last (group, louvre, contract). -/
structure CcEnt where
  node : Node
  dirty : Bool
  lru : Nat
  group : Nat
  louvre : Nat
  con : Option Nat
  deriving DecidableEq, Repr

/-- A pending image (R229): leaf index, the old image, slots still to re-encrypt, the cause of the overflow. -/
structure Pending where
  leaf : Nat
  image : Node
  mask : List Nat
  group : Nat
  louvre : Nat
  con : Option Nat
  deriving DecidableEq, Repr

/-- A leaf-cache block (R217–R222). -/
structure Block where
  bay : Option Nat
  /-- pins held: DLA bays whose contracts pin it -/
  pins : List Nat
  filled : Bool
  filling : Bool
  writing : Bool
  lru : Nat
  deriving DecidableEq, Repr

/-- A leaf line in a block (R211); its write-back has been queued (R222). -/
structure BlkLine where
  s : Stored
  dirty : Bool
  queued : Bool
  deriving DecidableEq, Repr

/-- A counter-lost range (R240): level and first page, and the bays erased or re-keyed since (R241). -/
structure Lost where
  level : Nat
  page : Nat
  cleared : List Nat
  deriving DecidableEq, Repr

structure Itr where
  ready : Bool
  tk : Option Nat
  /-- counter cache by level × 2^32 + index -/
  cc : Tbl CcEnt
  clock : Nat
  /-- off-die copies: leaves in DDR, L1 and L2 in HBM, by the same key -/
  home : Tbl Stored
  l3 : Tbl Node
  /-- L3 save images in DDR (R207, R223) -/
  l3save : Tbl Stored
  l4 : Tbl Node
  rootABad : Bool
  rootBBad : Bool
  blocks : Tbl Block
  /-- lines of the blocks by block × 2^18 + page in bay -/
  lines : Tbl BlkLine
  pend : List Pending
  lost : List Lost
  hwm : Tbl Nat
  /-- pages and interior ranges read-only (R233, R236): level, index -/
  readOnly : List (Nat × Nat)
  /-- node fetches under way: key, and which read runs: 0 the first, 1 the DDR read after a leaf-block miss, 2 the re-read -/
  fetches : List (Nat × Nat)
  deriving DecidableEq, Repr

inductive KeySt where
  | free | live | stopped | flushing | clearing | sealed
  deriving DecidableEq, Repr

/-- A key slot (R252, R254): state, LOADSEQ, key value (0 when none is held). -/
structure Slot where
  st : KeySt
  seq : Nat
  key : Nat
  deriving DecidableEq, Repr

/-- A bay a retirement clears: DLA bay, new index, reset allowed (R274), done, progress of a physical fill. -/
structure RetBay where
  bay : Nat
  new : Nat
  pre : List Nat
  reset : Bool
  done : Bool
  next : Nat
  /-- pages (erase, fill) or granules (re-key) left for last (R594) -/
  left : List Nat
  physLeft : Bool
  deriving DecidableEq, Repr

/-- A running retirement (R262–R274). -/
structure Retire where
  a : Nat
  erase : Bool
  phys : Bool
  t : Nat
  list : List (Nat × Nat)
  phase : KeySt
  acc : Nat
  bays : List RetBay
  /-- flush parts still outstanding (R263) -/
  parts : List FlushPart
  /-- sets still to walk for the cache part (R349) -/
  setsLeft : Nat
  hdr : Option Hdr
  /-- the Sanitize or Secure Erase command it belongs to: port, ld, opcode (R273) -/
  cxl : Option (Nat × Nat × Nat)
  deriving DecidableEq, Repr

structure Keys where
  slots : Tbl Slot
  loadSeq : Nat
  sealed : Bool
  rets : List Retire
  nextAcc : Nat
  /-- allowed list of each tenancy (R256) -/
  allowed : Tbl (List Nat)
  deriving DecidableEq, Repr

/-! ## Mapped storage (08), tiering and HBM cache (09) -/

inductive PgSt where
  | unmapped | plain | packed | lost
  deriving DecidableEq, Repr

/-- A page-map entry (R281): state, MOVE, ACC, run length in slabs, BASE = DGA[42:9], per pane (LEN, START). -/
structure PgEnt where
  st : PgSt
  move : Bool
  acc : Nat
  run : Nat
  base : Nat
  panes : List (Nat × Nat)
  deriving DecidableEq, Repr

/-- A store bay (R278): physical bay; STORE_LOW already raised. -/
structure Store where
  bay : Nat
  low : Bool
  deriving DecidableEq, Repr

/-- A page operation at its page home (R297–R300). -/
inductive POp where
  /-- a write's pane operation: the request -/
  | write (txn : Nat)
  /-- a write-back-lane write into a mapped page: line DLA, data, key, port, louvre -/
  | wb (dla : Nat) (data : Line) (kidx port louvre : Nat)
  /-- mover mark and commit (R334) -/
  | mark
  | commit
  /-- re-key of a pane (R309): retiring index, pane -/
  | rekey (a pane : Nat)
  /-- a pane re-stored raw with all 8 granules poisoned (R295): pane, keyhole index -/
  | poison (pane kidx : Nat)
  deriving DecidableEq, Repr

/-- Who a pane is stored for: its key, master, tenancy and TA, louvre, contract and deadline; the shares its stores may draw from and
the transom they are drawn in (R302); a write-back of the lane of R168. -/
structure Writer where
  kidx : Nat
  bay : Nat
  master : Nat
  ten : Nat
  ta : Nat
  louvre : Nat
  con : Option Nat
  deadline : Nat
  matched : List (Nat × Nat)
  transom : Nat
  wb : Bool
  deriving DecidableEq, Repr

/-- A page operation waiting or in its HOLD exchange: slices still to receive HOLD, to answer, to receive RELEASE; the
stores and the entry it will write, the run it frees. -/
structure PageOp where
  seq : Nat
  page : Nat
  op : POp
  started : Bool
  /-- its writer, once its share has been drawn (R302) -/
  writer : Option Writer
  /-- its writer has been answered, and these other panes are read for the repack (R298 step 6) -/
  repack : Option (List Nat)
  holdLeft : List Nat
  answerLeft : List Nat
  relLeft : List Nat
  stores : List LaneEnt
  entry : PgEnt
  oldRun : Option (Nat × Nat)
  released : Bool
  /-- the line write-pending at its home until RELEASE (R296), as DLA / 64 -/
  wline : Option Nat
  deriving DecidableEq, Repr

/-- A move (R334): direction, phase (0 marking, 1 copying, 2 committing), new run (BASE, slabs) and form. -/
structure Move where
  page : Nat
  toPlain : Bool
  phase : Nat
  newRun : Option (Nat × Nat)
  newEnt : PgEnt
  deriving DecidableEq, Repr

/-- A scan (R332): bay, next page, and whether that page's line has been read. -/
structure Scan where
  bay : Nat
  next : Nat
  asked : Bool
  deriving DecidableEq, Repr

structure PMap where
  ents : Tbl PgEnt
  /-- SLABS of each group (R283) -/
  slabs : Tbl Nat
  /-- open lists and current groups by store × 8 + slice (R301); `none`: initial list, all groups in ascending order -/
  openL : Tbl (List Nat)
  current : Tbl Nat
  stores : Tbl Store
  /-- page-map cache of each slice: (slice, page) pairs, least recently used first (R290) -/
  cached : List (Nat × Nat)
  /-- pages a slice holds between HOLD and RELEASE -/
  held : List (Nat × Nat)
  ops : List PageOp
  nextOp : Nat
  /-- lines write-pending at their home (R296) -/
  wpend : List Nat
  /-- page-map lines being fetched: (slice, page) -/
  fetch : List (Nat × Nat)
  /-- groups whose page-map line was lost: their slabs stay out of use (R310) -/
  gone : List Nat
  deriving DecidableEq, Repr

structure Tir where
  scans : List Scan
  moves : List Move
  /-- page-map lines all scans have read in which transom (R332) -/
  read : Nat × Nat
  deriving DecidableEq, Repr

/-- A way of the memory-side cache (R342): the ciphertext line with TAG and KIC, partial tag, and the DGA it was filled
under is not held. -/
structure CacheWay where
  data : Line
  tag : Nat
  kic : Nat
  ptag : Nat
  deriving DecidableEq, Repr

/-- An access of the HBM controller (R351): what it is for. The data of a read come back with the row of its return. -/
inductive HbmOp where
  /-- a slice's fetch of a page-map line -/
  | pageMap (slice page : Nat)
  /-- the cache lookup of a request -/
  | lookup (txn : Nat)
  /-- a leaf-cache probe, an L1 or L2 fetch: the node's key -/
  | node (key : Nat)
  /-- a fetch of a line's directory set, the write of a line's entry into its way -/
  | dirFetch (dla : Nat)
  /-- the page home's read of a group that becomes current -/
  | groupRead (g : Nat)
  | dirWrite (dla : Nat)
  /-- the walker's write of a node, the page home's write of an entry -/
  | nodeWrite (key : Nat)
  | entryWrite (page : Nat)
  /-- a fill under an index among the ways of a mask, a store update -/
  | fill (dga k mask : Nat) (g : Granule)
  | update (dga : Nat) (g : Granule)
  /-- increment and halving of ACC -/
  | accInc (page : Nat)
  | accHalve (page : Nat)
  /-- a page-map scan's line, a flush walk's set, a directory sweep's lines, a leaf-block fill -/
  | scan (page : Nat)
  | flush (set : Nat)
  | sweep (lines : Nat)
  | leafFill (block : Nat)
  deriving DecidableEq, Repr

/-- HBM lines an access moves: a lookup or a walk reads eight half-lines of its set (R343, R349). -/
def HbmOp.lines (o : HbmOp) : Nat :=
  match o with
  | .lookup _ | .flush _ => 4
  | .sweep n => n
  | _ => 1

/-- An access waiting in the HBM controller's queue: its group of R351 and, in group 1, the deadline of its line. -/
structure HbmAcc where
  seq : Nat
  group : Nat
  due : Nat
  op : HbmOp
  deriving DecidableEq, Repr

structure Hbc where
  /-- ways by set × 8 + way -/
  ways : Tbl CacheWay
  fillMap : List Nat
  lfsr : BitVec 16
  /-- flush walk: next set, running; the transom it last made a step in (R349) -/
  walk : Option Nat
  walkAt : Option Nat
  /-- accesses waiting, and how many issued in which reference cycle -/
  queue : List HbmAcc
  issuedAt : Nat
  issued : Nat
  deriving DecidableEq, Repr

/-! ## Tenancies (10) -/

/-- What the tenancy manager holds beside the table, by DLA bay (R258, R362). -/
structure BayRec where
  keyList : List Nat
  primary : Nat
  secondary : Nat
  quota : Nat
  used : Nat
  deriving DecidableEq, Repr

inductive TenSt where
  | free | active | resetting | removing
  deriving DecidableEq, Repr

/-- A tenancy record's own state (R357, R372, R382). -/
structure Ten where
  st : TenSt
  gen : Nat
  actB : Bool
  ovfA : Bool
  ovfB : Bool
  deriving DecidableEq, Repr

/-- Phase of a bay's removal or scrub (R369). -/
inductive RemPhase where
  | waitHost | recall | fence | drain | scrub | free
  deriving DecidableEq, Repr

/-- One bay passing through fence, drain and scrub: entry, DLA bay, phase, why (removal, reset, tenancy removal, domain
rebuild), pages left to scrub, time limit of the host's release. -/
structure BayOp where
  entry : Nat
  bay : Nat
  phase : RemPhase
  /-- 0 BAY_REMOVE, 1 reset scrub, 2 tenancy removal, 3 domain rebuild -/
  why : Nat
  ten : Nat
  next : Nat
  /-- pages left for last (R594) -/
  left : List Nat
  until_ : Nat
  hdr : Option Hdr
  deriving DecidableEq, Repr

/-- A running reset, removal or resize of a tenancy (R376, R378, R371) with the boundary work left. -/
structure TenOp where
  ten : Nat
  /-- 0 reset, 1 removal, 2 resize -/
  kind : Nat
  scrub : Bool
  begun : Bool
  hdr : Option Hdr
  deriving DecidableEq, Repr

/-- A log buffer entry (R382): tenancy, map B, bitmap line number, bits. -/
structure LogEnt where
  ten : Nat
  mapB : Bool
  line : Nat
  bits : BitVec 512
  deriving DecidableEq, Repr

/-- A harvest waiting for its boundary or its buffer entries (R383): tenancy, retired map, boundary once swapped. -/
structure Harvest where
  ten : Nat
  mapB : Bool
  swapped : Option Nat
  hdr : Hdr
  deriving DecidableEq, Repr

structure Tens where
  recs : Tbl Ten
  bt : Tbl Bt
  bays : Tbl BayRec
  /-- free/used physical and mapped bays follow from `bt` and the stores -/
  bayOps : List BayOp
  ops : List TenOp
  logs : List LogEnt
  harvests : List Harvest
  /-- bay adds accepted and not yet LIVE (R379): tenancies -/
  adds : List Nat
  deriving DecidableEq, Repr

/-! ## Faults and tests (15) -/

/-- A fault record (R498). -/
structure Rec where
  unit : Nat
  code : Nat
  cls : Nat
  injected : Bool
  consequential : Bool
  ovf : Bool
  tested : Bool
  lasting : Bool
  master : Nat
  ten : Nat
  time : Nat
  addr : Nat
  syndrome : Nat
  seq : Nat
  epoch : Nat
  deriving DecidableEq, Repr

/-- A history queue (R497, R501): oldest first. -/
structure Hq where
  recs : List Rec
  next : Nat
  drops : Nat
  deriving DecidableEq, Repr

/-- A targeted test waiting or running (R505): kind 1 line, 2 row, 3 engine; unit; row for row tests; SEQ of the record;
forced lasting for injected records; time base it was queued at. -/
structure Test where
  kind : Nat
  unit : Nat
  row : Nat
  seq : Nat
  forced : Bool
  running : Bool
  queued : Nat
  deriving DecidableEq, Repr

/-- A reaction shadow (R516): reacting unit, time base it ends (`none`: reaction running), the channel a lane or codec served. -/
structure Shadow where
  unit : Nat
  ends : Option Nat
  chan : Option Nat := none
  deriving DecidableEq, Repr

/-- What a line test reads again (R237): a granule of a request, a counter node by its key. -/
inductive ReRead where
  | granule (txn dga : Nat)
  | node (key : Nat)
  deriving DecidableEq, Repr

/-- A fault interruption (R509): the unit, since when, and when it was detected; a re-read holds one while it runs (R239). -/
structure Intr where
  unit : Nat
  start : Nat
  found : Nat
  reread : Option ReRead
  deriving DecidableEq, Repr

structure Flt where
  lat : Tbl Rec
  hq : Tbl Hq
  seq : Nat
  doorstop : Bool
  selfParity : Bool
  causeUnit : Nat
  causeCode : Nat
  /-- doorstop's drain ended: DRAM in self-refresh (R517) -/
  drained : Bool
  tests : List Test
  stuDisabled : Bool
  /-- STU_LAST: kind, result, unit, seq -/
  stuLast : Nat × Nat × Nat × Nat
  shadows : List Shadow
  intrs : List Intr
  /-- current epoch by FLT_EPOCH index (R514) and the units' own registers -/
  epoch : Tbl Nat
  own : Tbl Nat
  /-- units dead: replaced, fenced or disabled -/
  dead : List Nat
  quarantine : List Nat
  /-- substitutions running: failed unit, spare, channel (R513) -/
  subst : List (Nat × Nat × Nat)
  /-- spares free (unit numbers) -/
  spares : List Nat
  /-- corrected events of a unit within the CE window: (unit, time base) -/
  ce : List (Nat × Nat)
  /-- injected fatal event waiting for its window (R520) -/
  injWait : Option Rec
  /-- injections whose coincidence window is open: unit, until -/
  injOpen : List (Nat × Nat)
  /-- sensors excluded -/
  sensorsOut : List Nat
  /-- disabled engine units of CJE, counts by kind 0 compressor 1 decompressor 2 pane -/
  cjeOut : Tbl Nat
  deriving DecidableEq, Repr

end Sys2Proof.Machine
end

