-- ==== Sys2Proof/Machine/Parts.lean ====
section
/-! DEFINITION. Machine/Parts.lean: the parts of the state the command interface, the job engine, power, telemetry, start-up,
the keep store, the deadbolt and the Ohmoux die hold (08, 11–14, 16, 17). Plain data, as in Types.lean. -/

namespace Sys2Proof.Machine

/-! ## The command interface (11) -/

/-- An endpoint (R390). -/
inductive Endp where
  | mailbox (port : Nat)
  | ldMailbox (port ld : Nat)
  | mctp (eid : Nat)
  | steward (port : Nat)
  | ring (k : Nat)
  deriving DecidableEq, Repr

/-- What an endpoint keeps of its most recent command (R390): `none` while it still runs. -/
structure Last where
  seq : Nat
  opcode : Nat
  reply : Option Reply
  deriving DecidableEq, Repr

/-- A ring entry fetched and not yet answered in memory (R395, R397): its number (entry i of pass p is p × 2^LOG2 + i), SEQ, opcode,
and its reply once there is one. -/
structure RingSub where
  no : Nat
  seq : Nat
  opcode : Nat
  reply : Option Reply
  deriving DecidableEq, Repr

/-- A command ring (R397): set-up terms, indices and the entries fetched so far. -/
structure Ring where
  valid : Bool
  role : Nat
  ten : Nat
  bay : Nat
  offset : Nat
  log2 : Nat
  vector : Nat
  port : Nat
  tail : Nat
  head : Nat
  /-- commands fetched in all -/
  fetched : Nat
  /-- the entry at HEAD is being read, and its lines so far (none: poisoned) -/
  asked : Bool
  got : Tbl (Option Line)
  /-- entries in progress, and replies not yet written, in ring order -/
  subs : List RingSub
  deriving DecidableEq, Repr

/-- A staged commit requested and waiting for its boundary (R105): the group, the time base of its GO, and the command it
belongs to with the registers that command writes (none: GO written to the register directly). -/
structure CommitReq where
  group : Group
  at_ : Nat
  cmd : Option Instr
  writes : List (Nat × Reg)
  /-- DETAIL of a commit of the same command that was rejected (R107) -/
  bad : Option Nat := none
  /-- the bay-table entry whose value it starts from: the one it changes, or the one it copies (R363, R371) -/
  source : Option Nat := none
  deriving DecidableEq, Repr

structure Mgt where
  ends : List (Endp × Last)
  /-- long commands in progress by endpoint (R392, R395) -/
  longs : List (Endp × Nat)
  notices : List Notice
  noticeNo : Nat
  /-- notices dropped since NOTICE_LOST was last delivered on a route: 0 sideband, 1 ring, 2 mailbox queue -/
  lost : Tbl Nat
  routeMask : Nat
  routeEid : Nat
  routeRing : Nat
  rings : Tbl Ring
  /-- commits waiting, first requested first; a group's next commit begins when its earlier one ends (R104–R108) -/
  commits : List CommitReq
  deriving DecidableEq, Repr

/-! ## The deadbolt (R403–R406) -/

/-- An open proposal: header bytes and body as held, signatures, failed signatures, commit boundary once accepted. -/
structure Proposal where
  id : Nat
  kind : Nat
  proposer : Nat
  time : Nat
  head : List Nat
  body : List Nat
  keeperSigned : Bool
  stewardSigned : Bool
  bad : Nat
  commit : Option Nat
  deriving DecidableEq, Repr

/-- A keeper's claim waiting for the steward's (R403). -/
structure Claim where
  eid : Nat
  secret : Nat
  port : Nat
  time : Nat
  deriving DecidableEq, Repr

structure Dbl where
  owned : Bool
  port : Nat
  eid : Nat
  changes : Nat
  claim : Option Claim
  nextId : Nat
  props : List Proposal
  /-- proposals that closed without a commit: ID and the status that closed them (R406) -/
  closed : List (Nat × Nat)
  deriving DecidableEq, Repr

/-! ## Worlds and debug (12) -/

/-- A management core (R421–R428): world, halted, a halt held, gate return register, held interrupts, registers the exit
clears, load reservation. -/
structure Core where
  secure : Bool
  halted : Bool
  haltHeld : Bool
  ret : Nat
  /-- where the gate sent the core last -/
  pc : Nat
  held : Bool
  x : Tbl Nat
  f : Tbl Nat
  fcsr : Nat
  resv : Bool
  /-- the trap vectors of the two worlds, and what the last trap left: its pc, cause and address (R422) -/
  vec : Nat
  secVec : Nat
  epc : Nat
  cause : Nat
  tval : Nat
  /-- the lines in its caches, each with the world of the access that filled it (R424) -/
  lines : List (Nat × Bool)
  deriving DecidableEq, Repr

structure Dbg where
  np : Bool
  ni : Bool
  sp : Bool
  si : Bool
  /-- DBG_NORMAL's values waiting for the boundary (R427) -/
  next : Option (Bool × Bool)
  /-- SI is granted at this time base, once the slots are zeroed (R431) -/
  siAt : Option Nat
  cores : Tbl Core
  /-- DLA bays the seal's erase has still to clear (R433), and indices of the seal for its one KEY_REFUSED each (R432) -/
  erase : List Nat
  refused : List Nat
  deriving DecidableEq, Repr

/-! ## Power (14) -/

/-- A power request (R473): slot code 1–4 PL0–PL3, 5–7 SL1–SL3, with the wake mask given. -/
structure PwrReq where
  code : Nat
  mask : Nat
  deriving DecidableEq, Repr

/-- STATE of PWR_STAT with the two sleeps' inner phases (R478–R481, R484). -/
inductive PwrSt where
  | run
  /-- SL1: request stands; `true`: the fabric clock is stopped -/
  | sl1 (stopped : Bool)
  /-- SL2 entry, SL2, SL2 exit -/
  | sl2Entry | sl2 | sl2Exit
  /-- SL3 entry with steps done (0 to 6), SL3, SL3 exit -/
  | sl3Entry (done : Nat) | sl3 | sl3Exit
  deriving DecidableEq, Repr

structure Pwr where
  level : Nat
  commanded : Nat
  floor : Nat
  hot : Bool
  st : PwrSt
  inflight : Option PwrReq
  pending : Option PwrReq
  deferred : Bool
  last : Nat
  /-- in-flight level request: frequency changed (slower order), voltage settled (faster order) (R469) -/
  freqDone : Bool
  settled : Bool
  /-- core voltage level requested on the pins -/
  volt : Nat
  /-- a VSETTLE wait runs -/
  settling : Bool
  wakeMask : Nat
  wakeCause : Nat
  lastWake : Nat
  /-- sources present since the sleep began (R486) -/
  present : Nat
  /-- return from the thermal cap: 1 the voltage settles, 2 it has settled (R471) -/
  back : Nat
  sensors : Tbl Int
  res : Tbl Nat
  sleepStart : Nat
  sleepEnd : Nat
  deriving DecidableEq, Repr

/-! ## Telemetry (16) -/

/-- A record being written (R538–R541): its slot, GAP or DUMP, its bytes. -/
structure DumpRec where
  slot : Nat
  gap : Bool
  /-- a write of it was denied or poisoned (R539) -/
  failed : Bool
  deriving DecidableEq, Repr

structure Pmu where
  ctr : Tbl Nat
  ovf : List Nat
  slots : Tbl Nat
  prod : Nat
  drops : Nat
  rseq : Nat
  lost : Nat
  resetSeen : Bool
  dump : Option DumpRec
  gapDue : Bool
  /-- time base of each DIMM's last reading (R541) -/
  dimmAt : Tbl Nat
  /-- boundary of the last snapshot (R537) -/
  snapped : Nat
  deriving DecidableEq, Repr

/-! ## Keep store and start-up (17) -/

/-- A keep write waiting or in progress (R557): register, value, the KEEP_WRITE it answers. -/
structure KeepWr where
  k : Nat
  v : Reg
  hdr : Option Hdr
  deriving DecidableEq, Repr

structure Kps where
  cells : Tbl Reg
  wear : Tbl Nat
  bad : List Nat
  ready : Bool
  queue : List KeepWr
  /-- KPS_LAST -/
  lastIdx : Nat
  lastRes : Nat
  deriving DecidableEq, Repr

structure Boot where
  /-- step entered last (R547); the steps run while `started` and not `hold` -/
  step : Nat
  started : Bool
  hold : Bool
  /-- step 15 has ended: commands are accepted and MUL fields are RWD (R393, R419) -/
  done : Bool
  /-- this start began at step 0 -/
  fresh : Bool
  image : Nat
  alt : Bool
  /-- images that have passed FW_VERIFY since their last FW_WRITE (R556) -/
  verified : List Nat
  /-- flash bytes written since manufacture (R555) -/
  flash : Tbl Nat
  /-- previous start's record and START_CFG/PORT_POL/CH_POL as read at step 3 -/
  prev : Reg
  /-- management SRAM bytes (4 MiB) -/
  sram : Tbl Nat
  gib : Nat
  trainedMask : Nat
  /-- unit of a fatal record made during the running start-up step (R548) -/
  fatal : Option Nat
  deriving DecidableEq, Repr

/-! ## The job engine (R311–R321) -/

/-- A queue's stream context (R317): open, FUNC and FRAME, the source so far (bytes, with the number 256 + FLUSH after each job's
bytes), the check value's running CRC-32C, the output bytes given so far. -/
structure Stream where
  isOpen : Bool
  func : Nat
  frame : Nat
  level : Nat
  src : List Nat
  given : Nat
  crc : Nat
  deriving DecidableEq, Repr

/-- Where a running job stands: its descriptor is being read, its chain list and source are being read, its output is being
written, its completion record is being written. -/
inductive JobPhase where
  | fetch | read | write | record
  deriving DecidableEq, Repr

/-- What a job ends with (R314): the completion's fields, and the stream context it leaves. -/
structure JobRes where
  status : Nat
  inBytes : Nat
  outBytes : Nat
  bufs : Nat
  crc : Nat
  frameCheck : Nat
  stream : Stream
  deriving DecidableEq, Repr

/-- A job fetched (R312, R373): ring index, descriptor bytes, generation and keyhole index at fetch, lines read so far by
DLA / 64 (`none`: poisoned), its result. -/
structure Job where
  idx : Nat
  desc : List Nat
  gen : Nat
  kidx : Nat
  phase : JobPhase
  got : Tbl (Option Line)
  /-- a write was refused by memory; an access was denied by a region register (R417) -/
  wfail : Bool
  barred : Bool
  res : Option JobRes
  /-- it must run again from its start (R508) -/
  rerun : Bool
  deriving DecidableEq, Repr

/-- A job queue: 0 disabled, 1 running, 2 stopped; head, whether the ring's pass is an odd one, last status, stream, running job,
Q_DISABLE waiting for it. -/
structure JobQ where
  st : Nat
  head : Nat
  pass : Bool
  last : Nat
  stream : Stream
  job : Option Job
  disabling : Option Hdr
  deriving DecidableEq, Repr

/-! ## CXL device state and SPDM (R44, R65) -/

structure Cxl where
  /-- timestamp set by the host and the time base then, by port × 32 + LD -/
  stamp : Tbl (Nat × Nat)
  /-- poisoned lines on the poison list: (tenancy, TA line) -/
  poison : List (Nat × Nat)
  /-- sideband sessions -/
  sessions : List Session
  nextSession : Nat
  /-- Sanitize or Secure Erase: a mailbox background command (R273) by port × 32 + LD -/
  busy : List Nat
  deriving DecidableEq, Repr

/-! ## The Ohmoux die (13) -/

/-- States of R460. `init` is also the unpowered state (OHM_STAT reads 0). -/
inductive OhmSt where
  | init | waitPresent | ramp | seq | good | cooldown | latched | fetShort | holdOff
  deriving DecidableEq, Repr

/-- RSTATE (R453). -/
inductive RState where
  | clear | cooldown | latched | fetShort
  deriving DecidableEq, Repr

/-- The entry record (R453). -/
structure EntryRec where
  retries : Nat
  rstate : RState
  cause : Nat
  trips : Nat
  goods : Nat
  deriving DecidableEq, Repr

/-- What a status frame carries to the main die (R462, R464). -/
structure Frame where
  st : OhmSt
  record : EntryRec
  feedAOk : Bool
  feedBOk : Bool
  feedAOn : Bool
  feedBOn : Bool
  prsnt : Bool
  pg : Nat
  trip : Nat
  soa : Nat
  cool : Nat
  retry : Nat
  vbus : Nat
  vout : Nat
  cdh : Nat
  /-- OHM_EVENT bits the frame reports -/
  events : Nat
  deriving DecidableEq, Repr

/-- A trip of the present reference cycle: its cause, and the state, the SEQ_EN and the SEQ_PG it found (R447). -/
structure TripNow where
  cause : Nat
  st : OhmSt
  seqEn : Nat
  pg : Nat
  deriving DecidableEq, Repr

structure Ohm where
  /-- the trip of this reference cycle (R447) -/
  tripNow : Option TripNow
  st : OhmSt
  powered : Bool
  /-- VBUS within the off thresholds of R442 -/
  vbusOk : Bool
  record : EntryRec
  /-- strap rows (R443) -/
  straps : Straps
  gate : Bool
  entry : Bool
  seqEn : Nat
  pg : Nat
  /-- the main die is released from reset -/
  released : Bool
  fltN : Bool
  killN : Bool
  prsnt : Bool
  debounced : Bool
  feedAOk : Bool
  feedBOk : Bool
  feedAOn : Bool
  feedBOn : Bool
  vbus : Nat
  vout : Nat
  /-- CDH voltage as last charged or sensed (mV) -/
  cdh : Nat
  /-- an orderly shutdown under way: ENTRY_LOSS was sent (R459) -/
  leaving : Bool
  /-- OHM_EVENT bits not sent yet -/
  events : Nat
  /-- last command and reply of the standby target (R390, R463) -/
  last : Option Last
  deriving DecidableEq, Repr

end Sys2Proof.Machine
end

