-- ==== Sys2Proof/Machine/State.lean ====
section
/-! DEFINITION. Machine/State.lean: the state of the block. `Die` is the main die with the HBM and what the DRAM holds;
`State` adds the queue of commands waiting. Everything is plain data. Initial values are those after power-on. -/

namespace Sys2Proof.Machine

/-! ## Initial values of the parts -/

/-- A port after power-on: PERST# asserted, link down (R39, R42, R69). -/
def Port.init : Port :=
  { perst := true, training := false, linkUp := false, speed := 0, x8 := false, flit := 0, retrains := 0, cfg := 0xa001,
    ldCount := 1, memEn := 0, mode := none, fcxReq := false, granted := false, refuse := 0, epoch := 0, ideMem := 0,
    ideIo := false, ideKeys := [], held := 0, report := none, memActive := false, viral := false,
    forceX8 := false, sessions := [] }

def Credit.init : Credit := { rdAllot := 0, wrAllot := 0, rd := 0, wr := 0 }

def Lv.init : Lv := { e := 0, step := 0, prio := 0, sum := 0, n := 0 }

def Egress.init : Egress := { waiting := [], sentAt := 0, sent := 0 }

/-- PMU_DIMMn.TEMP reads 0xFF before a reading (R546). -/
def Dimm.init : Dimm :=
  { present := false, temp := 255, power := 0, readFail := false, highTemp := false, fails := 0, level := 0, hyst1 := 0,
    hyst2 := 0, crit := 0, critDone := false, hot85 := false }

/-- Channel c before training; lane and codec c serve it (R16). -/
def Chan.init (c : Nat) : Chan :=
  { trained := false, excluded := false, atStart := true, dimms := 0, gib := 0, fast := false, cons := false, spare := 0,
    spareGib := 0, level := 0, levelNext := 0, beUsed := 0, turn := [], retired := [], tracker := [], lane := c, codec := c, readmit := false,
    selfRefresh := false, spareSlot := 0, spareRow := 0, readmitCmd := none }

def Dir.i : Dir := { st := .i, owner := 0, sharers := 0 }

def DirEnt.none : DirEnt := { dom := 0, d := Dir.i, way := 0, onDie := false, dirty := false, inHbm := false, lru := 0 }

/-- A node never written: all zeros (R210). -/
def Node.zero : Node := { major := 0, minors := [] }

def Stored.blank : Stored := { node := Node.zero, mac := 0 }

def Block.init : Block := { bay := none, pins := [], filled := false, filling := false, writing := false, lru := 0 }

def Slot.init : Slot := { st := .free, seq := 0, key := 0 }

/-- An UNMAPPED entry: all zeros (R282). -/
def PgEnt.unmapped : PgEnt := { st := .unmapped, move := false, acc := 0, run := 0, base := 0, panes := List.replicate 8 (0, 0) }

/-- An EMPTY bay-table entry (R357, R362). -/
def Bt.empty : Bt :=
  { st := .empty, cache := false, mode := 0, inDom := false, dom := 0, policy := 0, defKey := 0, ten := 0, dlaBay := 0 }

def BayRec.init : BayRec := { keyList := [], primary := 0xffff, secondary := 0xffff, quota := 0, used := 0 }

def Ten.init : Ten := { st := .free, gen := 0, actB := false, ovfA := false, ovfB := false }

def Hq.init : Hq := { recs := [], next := 0, drops := 0 }

/-- What an unlisted DRAM granule holds. It is never interpreted: a granule whose minor is 0 is not read (R202, R210). -/
def Granule.blank : Granule := { data := 0, tag := 0, kic := 0, poison := false, kind := 0, unwritten := false }

/-! ## The main die -/

/-- The main die, the HBM and the content of the DRAM. -/
structure Die where
  /-- always-on time base, in reference cycles (R30) -/
  time : Nat
  /-- draws of the random bit generator and of the free standard payloads: the model's own counter -/
  draws : Nat
  /-- everything sent, newest first: the model's own record -/
  out : List Out
  /-- registers that differ from their reset value, by window offset; active mirrors at their own offsets -/
  regs : Tbl Reg
  ports : Tbl Port
  /-- what waits to leave each port (R130) -/
  egr : Tbl Egress
  trs : Trs
  lv : Tbl Lv
  dimms : Tbl Dimm
  chans : Tbl Chan
  /-- channels of each interleave set, in the set's list order (R18, R19) -/
  setChans : Tbl (List Nat)
  /-- order number of the next transfer, buffer entry or queue entry -/
  seq : Nat
  xfers : List Xfer
  be : List BeEntry
  /-- operations whose reads are queued (R76) -/
  wops : List WOp
  lane : List LaneEnt
  wq : List WqEnt
  /-- granules stored in DRAM, by DGA / 64 -/
  dram : Tbl Granule
  home : Home
  itr : Itr
  keys : Keys
  pmap : PMap
  tir : Tir
  hbc : Hbc
  tens : Tens
  flt : Flt
  mgt : Mgt
  dbl : Dbl
  dbg : Dbg
  pwr : Pwr
  pmu : Pmu
  kps : Kps
  boot : Boot
  /-- the job engine's queues -/
  jobs : Tbl JobQ
  /-- the queue a job was fetched from last (R315) -/
  jobTurn : Nat
  cxl : Cxl
  /-- the last Ohmoux status frame received (R462) -/
  ohmSeen : Option Frame
  deriving DecidableEq, Repr

/-! ## Initial values of the control side -/

def Ring.init : Ring :=
  { valid := false, role := 0, ten := 0, bay := 0, offset := 0, log2 := 0, vector := 0, port := 0, tail := 0, head := 0,
    fetched := 0, asked := false, got := [], subs := [] }

/-- Notice routing starts at the mailbox queue only (R399, R563). -/
def Mgt.init : Mgt :=
  { ends := [], longs := [], notices := [], noticeNo := 0, lost := [], routeMask := 4, routeEid := 0, routeRing := 0,
    rings := [], commits := [] }

def Dbl.init : Dbl :=
  { owned := false, port := 0, eid := 0, changes := 0, claim := none, nextId := 1, props := [], closed := [] }

def Core.init : Core :=
  { secure := false, halted := false, haltHeld := false, ret := 0, pc := 0, held := false, x := [], f := [], fcsr := 0, resv := false,
    vec := 0, secVec := 0, epc := 0, cause := 0, tval := 0, lines := [] }

def Dbg.init : Dbg :=
  { np := false, ni := false, sp := false, si := false, next := none, siAt := none, cores := [], erase := [], refused := [] }

/-- PWR registers' reset values: PL0, FLOOR_PL 3, mask 0xE1C0 (R494). -/
def Pwr.init : Pwr :=
  { level := 0, commanded := 0, floor := 3, hot := false, st := .run, inflight := none, pending := none, deferred := false,
    last := 0, freqDone := false, settled := false, volt := 0, settling := false, wakeMask := 0xe1c0, wakeCause := 0,
    lastWake := 0, present := 0, back := 0, sensors := [], res := [], sleepStart := 0, sleepEnd := 0 }

def Pmu.init : Pmu :=
  { ctr := [], ovf := [], slots := [], prod := 0, drops := 0, rseq := 0, lost := 0, resetSeen := false, dump := none,
    gapDue := false, dimmAt := [], snapped := 0 }

/-- At manufacture every keep register holds 0 (R559). -/
def Kps.init : Kps := { cells := [], wear := [], bad := [], ready := false, queue := [], lastIdx := 0, lastRes := 0 }

def Boot.init : Boot :=
  { step := 0, started := false, hold := false, done := false, fresh := true, image := 0, alt := false, verified := [], flash := [],
    prev := 0, sram := [], gib := 0, trainedMask := 0, fatal := none }

def Stream.init : Stream := { isOpen := false, func := 0, frame := 0, level := 0, src := [], given := 0, crc := 0xffffffff }

def JobQ.init : JobQ :=
  { st := 0, head := 0, pass := false, last := 0, stream := Stream.init, job := none, disabling := none }

def Cxl.init : Cxl := { stamp := [], poison := [], sessions := [], nextSession := 1, busy := [] }

def Trs.init : Trs :=
  { contracts := [], nextAcc := 0, sched := [], capQ := [], capPort := [], credit := [], drawn := [], earned := [],
    debt := [], sweep := none, demotedLast := 0, deferred := [] }

def Home.init : Home :=
  { txns := [], nextTxn := 0, dir := [], busy := [], sweeps := [], waitPeak := [], waysOut := [], recalls := [], lfsr := [],
    domState := [], conflicts := [], kept := [], rebuilds := [] }

def Itr.init : Itr :=
  { ready := false, tk := none, cc := [], clock := 0, home := [], l3 := [], l3save := [], l4 := [], rootABad := false,
    rootBBad := false, blocks := [], lines := [], pend := [], lost := [], hwm := [], readOnly := [], fetches := [] }

def Keys.init : Keys := { slots := [], loadSeq := 0, sealed := false, rets := [], nextAcc := 0, allowed := [] }

def PMap.init : PMap :=
  { ents := [], slabs := [], openL := [], current := [], stores := [], cached := [], held := [], ops := [], nextOp := 0,
    wpend := [], fetch := [], gone := [] }

def Hbc.init : Hbc := { ways := [], fillMap := [], lfsr := 0, walk := none, walkAt := none, queue := [], issuedAt := 0, issued := 0 }

def Tens.init : Tens := { recs := [], bt := [], bays := [], bayOps := [], ops := [], logs := [], harvests := [], adds := [] }

/-- Spares: CRY16–CRY19, PCX16 and PCX17 (R16). -/
def Flt.init : Flt :=
  { lat := [], hq := [], seq := 0, doorstop := false, selfParity := false, causeUnit := 0, causeCode := 0, drained := false,
    tests := [], stuDisabled := false, stuLast := (0, 0, 0, 0), shadows := [], intrs := [], epoch := [], own := [], dead := [],
    quarantine := [], subst := [], spares := [0x88, 0x89, 0x8a, 0x8b, 0xa0, 0xa1], ce := [], injWait := none, injOpen := [],
    sensorsOut := [], cjeOut := [] }

/-- The main die before its release: every register at its reset value, nothing trained, nothing held. -/
def Die.init : Die :=
  { time := 0, draws := 0, out := [], regs := [], ports := [], egr := [], trs := Trs.init, lv := [], dimms := [], chans := [],
    setChans := [], seq := 0, xfers := [], be := [], wops := [], lane := [], wq := [], dram := [], home := Home.init, itr := Itr.init,
    keys := Keys.init, pmap := PMap.init, tir := { scans := [], moves := [], read := (0, 0) }, hbc := Hbc.init, tens := Tens.init,
    flt := Flt.init, mgt := Mgt.init, dbl := Dbl.init, dbg := Dbg.init, pwr := Pwr.init, pmu := Pmu.init, kps := Kps.init,
    boot := Boot.init, jobs := [], jobTurn := 63, cxl := Cxl.init, ohmSeen := none }

def EntryRec.init : EntryRec := { retries := 0, rstate := .clear, cause := 0, trips := 0, goods := 0 }

/-- Ohmoux without input; straps as left open (row 7 of R443), the values OHM_CFG resets to. -/
def Ohm.init : Ohm :=
  { tripNow := none, st := .init, powered := false, vbusOk := false, record := EntryRec.init,
    straps := { trip := 7, soa := 7, retry := 7, cool := 7 }, gate := false, entry := false, seqEn := 0, pg := 0,
    released := false, fltN := false, killN := false, prsnt := false, debounced := false, feedAOk := false, feedBOk := false,
    feedAOn := false, feedBOn := false, vbus := 0, vout := 0, cdh := 0, leaving := false,
    events := 0, last := none }

/-! ## The block -/

/-- The state of the block. -/
structure State where
  /-- commands waiting, first in, first out -/
  pending : List Instr
  /-- the Ohmoux die -/
  ohm : Ohm
  /-- status frames sent and not yet received (R462) -/
  link : List Frame
  /-- the main die, the HBM, the DRAM, the keep store and the flash -/
  die : Die
  deriving DecidableEq, Repr

/-- No command of this block ends in a fault: where the spec makes an event uncorrectable or fatal, the block goes on in a
state the spec describes (a fault record, doorstop, the recovery hold), and that is the command's effect. -/
inductive Fault where
  deriving DecidableEq, Repr

/-- Refusals. No meaning answers one. -/
inductive Refusal where
  /-- raised by an arm of `exec` whose command has no meaning yet; safe: nothing is claimed of it -/
  | notModelled (mnemonic : String)
  deriving DecidableEq, Repr

/-- The block right after reset: no input power, every register at its reset value, nothing waiting. -/
def State.reset : State := { pending := [], ohm := Ohm.init, link := [], die := Die.init }

end Sys2Proof.Machine
end

