-- ==== Sys2Proof/Machine/Status.lean ====
section
/-! DEFINITION. Machine/Status.lean: the status codes of R401, by their names. -/

namespace Sys2Proof.Machine.St

/-- SUCCESS (R401) -/
def success : Nat := 0x0000
/-- IN_PROGRESS (R401) -/
def inProgress : Nat := 0x0001
/-- SUPERSEDED (R401) -/
def superseded : Nat := 0x0002
/-- DEFERRED_SECURE (R401) -/
def deferredSecure : Nat := 0x0003
/-- BAD_OPCODE (R401) -/
def badOpcode : Nat := 0x0010
/-- BAD_LENGTH (R401) -/
def badLength : Nat := 0x0011
/-- BAD_PARAM (R401) -/
def badParam : Nat := 0x0012
/-- NOT_PERMITTED (R401) -/
def notPermitted : Nat := 0x0013
/-- BUSY (R401) -/
def busy : Nat := 0x0014
/-- COMMIT_REJECT (R401) -/
def commitReject : Nat := 0x0015
/-- NOT_FOUND (R401) -/
def notFound : Nat := 0x0016
/-- TOO_MANY (R401) -/
def tooMany : Nat := 0x0017
/-- NOTICE_LOST (R401) -/
def noticeLost : Nat := 0x0018
/-- DOORSTOP_ACTIVE (R401) -/
def doorstopActive : Nat := 0x0019
/-- NOT_READY (R401) -/
def notReady : Nat := 0x001A
/-- TEN_BUSY (R401) -/
def tenBusy : Nat := 0x0200
/-- NO_FREE_TENANCY (R401) -/
def noFreeTenancy : Nat := 0x0201
/-- LD_IN_USE (R401) -/
def ldInUse : Nat := 0x0202
/-- SEG_OVERLAP (R401) -/
def segOverlap : Nat := 0x0203
/-- NO_FREE_BAY (R401) -/
def noFreeBay : Nat := 0x0300
/-- SEG_FULL (R401) -/
def segFull : Nat := 0x0301
/-- BAY_MODE_INVALID (R401) -/
def bayModeInvalid : Nat := 0x0302
/-- BAY_IN_CONTRACT (R401) -/
def bayInContract : Nat := 0x0303
/-- BAY_IN_USE (R401) -/
def bayInUse : Nat := 0x0304
/-- BAY_BUSY (R401) -/
def bayBusy : Nat := 0x0305
/-- HOST_HOLDS (R401) -/
def hostHolds : Nat := 0x0306
/-- NO_BAY (R401) -/
def noBay : Nat := 0x0307
/-- STORE_FULL (R401) -/
def storeFull : Nat := 0x0308
/-- STORE_IN_USE (R401) -/
def storeInUse : Nat := 0x0309
/-- STORE_LOW (R401) -/
def storeLow : Nat := 0x030A
/-- CONTRACT_NO_FIT (R401) -/
def contractNoFit : Nat := 0x0400
/-- CLASS_NOT_ALLOWED (R401) -/
def classNotAllowed : Nat := 0x0401
/-- CAPACITY_HELD (R401) -/
def capacityHeld : Nat := 0x0402
/-- CONTRACT_DEMOTED (R401) -/
def contractDemoted : Nat := 0x0403
/-- CONTRACT_STATE (R401) -/
def contractState : Nat := 0x0404
/-- KEY_NOT_LIVE (R401) -/
def keyNotLive : Nat := 0x0500
/-- KEY_BUSY (R401) -/
def keyBusy : Nat := 0x0501
/-- KEY_IN_USE (R401) -/
def keyInUse : Nat := 0x0502
/-- KEY_KIC_CLASH (R401) -/
def keyKicClash : Nat := 0x0503
/-- KEY_LIST_MIXED (R401) -/
def keyListMixed : Nat := 0x0504
/-- KEY_REFUSED (R401) -/
def keyRefused : Nat := 0x0505
/-- MAJOR_END (R401) -/
def majorEnd : Nat := 0x0506
/-- KEY_RETIRED (R401) -/
def keyRetired : Nat := 0x0507
/-- PORT_NOT_READY (R401) -/
def portNotReady : Nat := 0x0600
/-- DOMAIN_MIN_MEMBERS (R401) -/
def domainMinMembers : Nat := 0x0601
/-- DOMAIN_DOWN (R401) -/
def domainDown : Nat := 0x0602
/-- DOMAIN_STATE (R401) -/
def domainState : Nat := 0x0603
/-- DESC_INVALID (R401) -/
def descInvalid : Nat := 0x0700
/-- FRAME_UNSUPPORTED (R401) -/
def frameUnsupported : Nat := 0x0701
/-- DATA_ERROR (R401) -/
def dataError : Nat := 0x0702
/-- INPUT_TRUNCATED (R401) -/
def inputTruncated : Nat := 0x0703
/-- OUTPUT_OVERFLOW (R401) -/
def outputOverflow : Nat := 0x0704
/-- CRC_MISMATCH (R401) -/
def crcMismatch : Nat := 0x0705
/-- POISON_READ (R401) -/
def poisonRead : Nat := 0x0706
/-- QUEUE_RUNNING (R401) -/
def queueRunning : Nat := 0x0707
/-- OHM_NOT_LATCHED (R401) -/
def ohmNotLatched : Nat := 0x0800
/-- INJECT_DISABLED (R401) -/
def injectDisabled : Nat := 0x0900
/-- IMAGE_BAD (R401) -/
def imageBad : Nat := 0x0B00
/-- IMAGE_ACTIVE (R401) -/
def imageActive : Nat := 0x0B01
/-- KEEP_WORN (R401) -/
def keepWorn : Nat := 0x0B02
/-- KEEP_SECURE (R401) -/
def keepSecure : Nat := 0x0B03
/-- DEBUG_LOCKED (R401) -/
def debugLocked : Nat := 0x0C00
/-- DEADBOLT_EXPIRED (R401) -/
def deadboltExpired : Nat := 0x0D00
/-- DEADBOLT_SIG_BAD (R401) -/
def deadboltSigBad : Nat := 0x0D01
/-- DEADBOLT_SAME_PARTY (R401) -/
def deadboltSameParty : Nat := 0x0D02
/-- DEADBOLT_CONFLICT (R401) -/
def deadboltConflict : Nat := 0x0D03
/-- DEADBOLT_UNOWNED (R401) -/
def deadboltUnowned : Nat := 0x0D04
/-- DEADBOLT_OWNED (R401) -/
def deadboltOwned : Nat := 0x0D05
/-- DEADBOLT_CANCELLED (R401) -/
def deadboltCancelled : Nat := 0x0D06

end Sys2Proof.Machine.St
end

