-- ==== Sys2Proof/Machine/Ops.lean ====
section
/-! DEFINITION. Machine/Ops.lean: the named operations every meaning is built from: registers, counts and events, what the
device sends, the geometry of the address spaces, tenancy and bay-table lookups, fault records, doorstop. -/

namespace Sys2Proof.Machine

/-! ## Registers -/

/-- The value stored for the register at `o` (its reset value where nothing wrote it). -/
def Die.regR (d : Die) (o : Nat) : Reg :=
  match d.regs.find? o with
  | some v => v
  | none => regReset o

/-- Store a register; a value equal to the reset value is not listed. -/
def Die.regW (d : Die) (o : Nat) (v : Reg) : Die :=
  { d with regs := if v = regReset o then d.regs.erase o else d.regs.insert o v }

/-- The active copy of the RWS register at `o` (R104, R109). -/
def Die.act (d : Die) (o : Nat) : Reg := d.regR (o + mirrorGap o)

/-- Add `n` to the 32-bit saturating count at `o`. -/
def Die.count (d : Die) (o n : Nat) : Die :=
  d.regW o (BitVec.ofNat 32 (min ((d.regR o).toNat + n) 0xffffffff))

/-- Emit one message. -/
def Die.emit (d : Die) (m : Out) : Die := { d with out := m :: d.out }

/-- Emit several messages, the first first. -/
def Die.emits (d : Die) (ms : List Out) : Die := ms.foldl Die.emit d

/-- Set bit `b` of the EVENT register at `o`; EVENT_EN stands 4 above it and lets the event interrupt firmware (R69). -/
def Die.event (d : Die) (o b : Nat) : Die :=
  let d1 := d.regW o (BitVec.ofNat 32 ((d.regR o).toNat ||| 2 ^ b))
  if bit (d.regR (o + 4)) b then d1.emit (.fwInt o b) else d1

/-- One draw of the random bit generator. -/
def Die.draw (d : Die) : Nat × Die := (Config.random d.draws, { d with draws := d.draws + 1 })

/-- One free standard payload (R44, R65). -/
def Die.payload (d : Die) : Nat × Die := (Config.standardPayload d.draws, { d with draws := d.draws + 1 })

/-- Take the next order number. -/
def Die.next (d : Die) : Nat × Die := (d.seq, { d with seq := d.seq + 1 })

/-! ## What a command may reach

The main die acts only while Ohmoux has released it (R458). In the recovery hold it stops (R550), and in SL3 nothing on it
acts but the always-on island (R480). -/

/-- The main die runs its blocks. -/
def Die.live (d : Die) : Bool := !d.boot.hold && decide (d.pwr.st ≠ .sl3)

/-- A meaning of the main die: no effect while the die is in reset. -/
def onDie (s : State) (f : Die → Die) : Host.Outcome State Fault Refusal :=
  .next (if s.ohm.released then { s with die := f s.die } else s)

/-- A meaning of the running blocks: no effect while the die is in reset, in the recovery hold or in SL3. -/
def onLive (s : State) (f : Die → Die) : Host.Outcome State Fault Refusal :=
  onDie s fun d => if d.live then f d else d

/-- A meaning of a packet command: in the recovery hold it is answered all the same (R393, R550). -/
def onCmd (s : State) (f : Die → Die) : Host.Outcome State Fault Refusal :=
  onDie s fun d => if d.live || d.boot.hold then f d else d

/-- Activity restarts the fabric clock of SL1 (R477). -/
def Die.active (d : Die) : Die :=
  match d.pwr.st with
  | .sl1 true => { d with pwr := { d.pwr with st := .sl1 false } }
  | _ => d

/-- An access that needs a gated domain or a channel in self-refresh: MEM_WAKE ends SL2 (R478, R482). -/
def Die.memWake (d : Die) : Die :=
  match d.pwr.st with
  | .sl2 => { d with pwr := { d.pwr with st := .sl2Exit, present := d.pwr.present ||| 2 ^ 14, sleepEnd := d.time } }
  | _ => d

/-! ## Performance counters (R524–R530, R533) -/

/-- Scopes of R528. -/
def scDev : Nat × Nat := (0, 0)
def scPort (p : Nat) : Nat × Nat := (1, p)
def scChan (c : Nat) : Nat × Nat := (2, c)
def scSlice (h : Nat) : Nat × Nat := (3, h)
def scLouvre (v : Nat) : Nat × Nat := (4, v)
def scTen (t : Nat) : Nat × Nat := (5, t)
def scMaster (m : Nat) : Nat × Nat := (6, m)

/-- Counters hold their values in SL1, SL2 and SL3 (R533). -/
def Die.counting (d : Die) : Bool :=
  match d.pwr.st with
  | .run | .sl2Entry => true
  | _ => false

/-- The chain bit of counter `k`'s pair (R526). -/
def Die.pmuChained (d : Die) (k : Nat) : Bool := bit (d.act (R.pmuChain (k / 64))) (k / 2 % 32)

/-- Add to one counter without regard to its selection; a wrap sets its overflow bit (R527). -/
def Die.pmuRaw (d : Die) (k n : Nat) : Die :=
  let v := Tbl.get 0 d.pmu.ctr k + n
  let d1 := { d with pmu := { d.pmu with ctr := d.pmu.ctr.set 0 k (v % 2 ^ 48) } }
  if v < 2 ^ 48 then d1
  else { d1 with pmu := { d1.pmu with ovf := if d1.pmu.ovf.contains k then d1.pmu.ovf else k :: d1.pmu.ovf } }.event R.pmuEvent 1

/-- Counter `k` adds `n` (R524); the low counter of a chained pair carries into the high one (R526). -/
def Die.pmuAdd (d : Die) (k n : Nat) : Die :=
  if d.pmuChained k ∧ k % 2 = 0 then
    let v := Tbl.get 0 d.pmu.ctr k + n
    let d1 := { d with pmu := { d.pmu with ctr := d.pmu.ctr.set 0 k (v % 2 ^ 48) } }
    if v < 2 ^ 48 then d1 else d1.pmuRaw (k + 1) (v / 2 ^ 48)
  else d.pmuRaw k n

/-- Event `ev` occurs, adding `n`, for the instances it belongs to: every counter whose active selection names it counts. -/
def Die.tally (d : Die) (ev n : Nat) (is : List (Nat × Nat)) : Die :=
  if !d.counting then d
  else d.regs.foldl (fun d (e : Nat × Reg) =>
    if R.pmuSel 0 + 0x8000 ≤ e.1 ∧ e.1 < R.pmuSel 512 + 0x8000 then
      let k := (e.1 - (R.pmuSel 0 + 0x8000)) / 4
      let high := d.pmuChained k && decide (k % 2 = 1)
      if fld e.2 11 0 = ev ∧ is.contains (fld e.2 31 28, fld e.2 27 16) ∧ !high then d.pmuAdd k n else d
    else d) d

/-! ## Time -/

/-- TRS_COUNT: the time base divided by 50 (R70). -/
def Die.transom (d : Die) : Nat := d.time / 50

/-! ## Parts by number -/

def Die.port (d : Die) (p : Nat) : Port := (d.ports.find? p).getD Port.init
def Die.setPort (d : Die) (p : Nat) (x : Port) : Die := { d with ports := d.ports.set Port.init p x }
def Die.egress (d : Die) (p : Nat) : Egress := (d.egr.find? p).getD Egress.init
def Die.setEgress (d : Die) (p : Nat) (x : Egress) : Die := { d with egr := d.egr.set Egress.init p x }
def Die.chan (d : Die) (c : Nat) : Chan := (d.chans.find? c).getD (Chan.init c)
def Die.setChan (d : Die) (c : Nat) (x : Chan) : Die := { d with chans := d.chans.set (Chan.init c) c x }
def Die.dimm (d : Die) (n : Nat) : Dimm := (d.dimms.find? n).getD Dimm.init
def Die.setDimm (d : Die) (n : Nat) (x : Dimm) : Die := { d with dimms := d.dimms.set Dimm.init n x }
def Die.louvre (d : Die) (v : Nat) : Lv := (d.lv.find? v).getD Lv.init
def Die.setLouvre (d : Die) (v : Nat) (x : Lv) : Die := { d with lv := d.lv.set Lv.init v x }
def Die.slot (d : Die) (k : Nat) : Slot := (d.keys.slots.find? k).getD Slot.init
def Die.setSlot (d : Die) (k : Nat) (x : Slot) : Die :=
  { d with keys := { d.keys with slots := d.keys.slots.set Slot.init k x } }
def Die.ten (d : Die) (t : Nat) : Ten := (d.tens.recs.find? t).getD Ten.init
def Die.setTen (d : Die) (t : Nat) (x : Ten) : Die :=
  { d with tens := { d.tens with recs := d.tens.recs.set Ten.init t x } }
def Die.bt (d : Die) (e : Nat) : Bt := (d.tens.bt.find? e).getD Bt.empty
def Die.setBt (d : Die) (e : Nat) (x : Bt) : Die :=
  { d with tens := { d.tens with bt := d.tens.bt.set Bt.empty e x } }
def Die.bay (d : Die) (b : Nat) : BayRec := (d.tens.bays.find? b).getD BayRec.init
def Die.setBay (d : Die) (b : Nat) (x : BayRec) : Die :=
  { d with tens := { d.tens with bays := d.tens.bays.set BayRec.init b x } }
def Die.credit (d : Die) (t : Nat) : Credit := (d.trs.credit.find? t).getD Credit.init
def Die.setCredit (d : Die) (t : Nat) (x : Credit) : Die :=
  { d with trs := { d.trs with credit := d.trs.credit.set Credit.init t x } }
def Die.granule (d : Die) (dga : Nat) : Granule := (d.dram.find? (dga / 64)).getD Granule.blank
def Die.setGranule (d : Die) (dga : Nat) (g : Granule) : Die :=
  { d with dram := d.dram.set Granule.blank (dga / 64) g }
def Die.setTxn (d : Die) (t : Txn) : Die := { d with home := { d.home with txns := d.home.txns.insert t.id t } }
def Die.dropTxn (d : Die) (id : Nat) : Die := { d with home := { d.home with txns := d.home.txns.erase id } }
def Die.txn? (d : Die) (id : Nat) : Option Txn := d.home.txns.find? id
/-- All transactions, oldest first. -/
def Die.txns (d : Die) : List Txn := d.home.txns.map Prod.snd

/-! ## Geometry (R17–R19, R204–R206) -/

/-- The home slice of a line (R17). -/
def homeOf (dla : Nat) : Nat := ((dla / 64) % 8) ^^^ ((dla / 512) % 8) ^^^ ((dla / 4096) % 8)

/-- The page home of a page (R280). -/
def pageHomeOf (page : Nat) : Nat := page % 8

/-- The bay a line lies in. -/
def bayOf (a : Nat) : Nat := a / 2 ^ 30

/-- A mapped bay's number (R277). -/
def mappedBay (b : Nat) : Bool := decide (8192 ≤ b)

/-- Interleave set n: VALID, BASE_BAY, DATA_BAYS, TOTAL_BAYS of its active registers (R205, R243). -/
structure SetInfo where
  valid : Bool
  base : Nat
  data : Nat
  total : Nat
  deriving DecidableEq, Repr

def Die.setInfo (d : Die) (n : Nat) : SetInfo :=
  let lo := d.act (R.itrSetLo n); let hi := d.act (R.itrSetHi n)
  { valid := bit hi 31, base := fld lo 12 0, data := fld lo 25 13, total := fld hi 13 0 }

/-- The set holding physical bay `b`, if any. -/
def Die.setOfBay (d : Die) (b : Nat) : Option Nat :=
  (List.range 16).find? fun n =>
    let s := d.setInfo n
    s.valid && decide (s.base ≤ b) && decide (b < s.base + s.total)

/-- `b` is a data bay of its set, not part of a leaf region (R205). -/
def Die.isDataBay (d : Die) (b : Nat) : Bool :=
  match d.setOfBay b with
  | some n => decide (b < (d.setInfo n).base + (d.setInfo n).data)
  | none => false

def Die.setChannels (d : Die) (n : Nat) : List Nat := (d.setChans.find? n).getD []

/-- The channel of a granule inside its set (R19). -/
def chanIndex (k rel : Nat) : Nat := if k = 0 then 0 else ((rel / 2 ^ 9) % 2 ^ k) ^^^ ((rel / 2 ^ 13) % 2 ^ k)

/-- The channel a DGA lies on (R19, R20). -/
def Die.chanOf (d : Die) (dga : Nat) : Nat :=
  match d.setOfBay (bayOf dga) with
  | some n =>
    let cs := d.setChannels n
    cs.getD (chanIndex (Nat.log2 cs.length) (dga - (d.setInfo n).base * 2 ^ 30)) 0
  | none => 0

/-- DDR address of the leaf of the page at `dga` (R205). -/
def Die.leafAddr (d : Die) (dga : Nat) : Nat :=
  match d.setOfBay (bayOf dga) with
  | some n =>
    let s := d.setInfo n
    (s.base + s.data) * 2 ^ 30 + (dga - s.base * 2 ^ 30) / 4096 * 64
  | none => 0

/-- The L3 save image of node n3 (R207). -/
def Die.saveAddr (d : Die) (n3 : Nat) : Nat :=
  let s := d.setInfo 0
  (s.base + s.data) * 2 ^ 30 + s.data * 2 ^ 24 + n3 * 64

/-- Schedulable slots of a channel (R73); none while it is out of service. -/
def Die.extRefresh (d : Die) (c : Nat) : Bool :=
  [2 * c, 2 * c + 1].any fun n => (d.dimm n).hot85 || decide (3 ≤ (d.dimm n).fails)

def Die.theoretical (d : Die) (c : Nat) : Nat := if (d.chan c).fast then 400 else 350

def Die.schedulable (d : Die) (c : Nat) : Nat :=
  let x := d.chan c
  if !x.trained || x.excluded then 0
  else match x.fast, d.extRefresh c with
    | true, false => 360
    | true, true => 320
    | false, false => 315
    | false, true => 280

/-! ## Tenancies and bays (R357–R364) -/

def Die.tenCfg (d : Die) (t : Nat) : Reg := d.act (R.tenCfg t)
def Die.tenPort (d : Die) (t : Nat) : Nat := fld (d.tenCfg t) 30 28
def Die.tenLd (d : Die) (t : Nat) : Nat := fld (d.tenCfg t) 27 23
def Die.tenClass (d : Die) (t : Nat) : Nat := fld (d.tenCfg t) 22 20
def Die.tenLouvre (d : Die) (t : Nat) : Nat := fld (d.tenCfg t) 7 0
def Die.segBase (d : Die) (t : Nat) : Nat := fld (d.act (R.tenSeg t)) 29 16
def Die.segLen (d : Die) (t : Nat) : Nat := fld (d.act (R.tenSeg t)) 12 0

/-- Tenancies whose record is not FREE. -/
def Die.tenList (d : Die) : List Nat := d.tens.recs.keys.filter fun t => decide ((d.ten t).st ≠ .free)

/-- ACTIVE or RESETTING: a request may find it (R359). -/
def Die.tenFound (d : Die) (t : Nat) : Bool :=
  decide ((d.ten t).st = .active) || decide ((d.ten t).st = .resetting)

/-- The tenancy a request on port `p` addresses (R358). -/
def Die.findTen (d : Die) (p ld ttag : Nat) : Option Nat :=
  match (d.port p).mode with
  | some .fcx => if d.tenFound ttag && decide (d.tenPort ttag = p) then some ttag else none
  | some .mld => d.tenList.find? fun t => d.tenFound t && decide (d.tenPort t = p) && decide (d.tenLd t = ld)
  | _ => d.tenList.find? fun t => d.tenFound t && decide (d.tenPort t = p) && decide (d.tenLd t = 0)

/-- The bay-table entry of a TA (R360). -/
def Die.entryOf (d : Die) (t ta : Nat) : Option Nat :=
  let i := ta / 2 ^ 30
  if i < d.segLen t then some (d.segBase t + i) else none

/-- Entries of tenancy `t`'s segment with their indices. -/
def Die.segEntries (d : Die) (t : Nat) : List Nat := range' (d.segBase t) (d.segLen t)

/-- The tenancy that owns the segment in which entry `e` lies. -/
def Die.entryOwner (d : Die) (e : Nat) : Option Nat :=
  d.tenList.find? fun t => decide (d.segBase t ≤ e) && decide (e < d.segBase t + d.segLen t)

/-- Every bay-table entry that is not EMPTY and lies in a segment: entries outside every segment have no effect (R371). -/
def Die.usedEntries (d : Die) : List Nat :=
  d.tens.bt.keys.filter fun e => decide ((d.bt e).st ≠ .empty) && (d.entryOwner e).isSome

/-- Entries whose DLA bay is `b`, not EMPTY. -/
def Die.entriesOfBay (d : Die) (b : Nat) : List Nat := d.usedEntries.filter fun e => decide ((d.bt e).dlaBay = b)

/-- The default key of a DLA bay. -/
def Die.defKeyOf (d : Die) (b : Nat) : Nat :=
  match d.entriesOfBay b with
  | e :: _ => (d.bt e).defKey
  | [] => 0

/-- The TA of a DLA in entry `e`. -/
def Die.taOf (d : Die) (e dla : Nat) : Nat :=
  match d.entryOwner e with
  | some t => (e - d.segBase t) * 2 ^ 30 + dla % 2 ^ 30
  | none => dla % 2 ^ 30

/-- An interleave set's number of a DLA bay: its own for a PLAIN bay, its primary store bay's for a mapped one (R279). -/
def Die.setOfDlaBay (d : Die) (b : Nat) : Option Nat :=
  if mappedBay b then
    match d.pmap.stores.find? (d.bay b).primary with
    | some s => d.setOfBay s.bay
    | none => none
  else d.setOfBay b

/-! ## Domains (R141, R194) -/

def Die.domCfg (d : Die) (n : Nat) : Reg := d.act (R.cha0DomCfg n)
def Die.domValid (d : Die) (n : Nat) : Bool := bit (d.domCfg n) 31
def Die.domFcx (d : Die) (n : Nat) : Bool := bit (d.domCfg n) 30
def Die.domMember (d : Die) (n p : Nat) : Bool := bit (d.domCfg n) (24 + p) && decide (p < 6)
def Die.domSnpTo (d : Die) (n : Nat) : Nat := fld (d.domCfg n) 9 0
/-- Member tenancy of domain `n` on port `p` (R194). -/
def Die.domTen (d : Die) (n p : Nat) : Nat :=
  let r := if p < 3 then d.act (R.cha0DomTena n) else d.act (R.cha0DomTenb n)
  let k := 10 * (p % 3)
  fld r (k + 9) k
def Die.domPorts (d : Die) (n : Nat) : List Nat := (List.range 6).filter (d.domMember n)
/-- CHA0_DOM_STAT's STATE, CAUSE, PORT; absent by default. -/
def Die.domStat (d : Die) (n : Nat) : Nat × Nat × Nat := (d.home.domState.find? n).getD (0, 0, 0)
def Die.setDomStat (d : Die) (n : Nat) (x : Nat × Nat × Nat) : Die :=
  { d with home := { d.home with domState := d.home.domState.set (0, 0, 0) n x } }
/-- UP or SWEEPING: the domain serves requests. -/
def Die.domUp (d : Die) (n : Nat) : Bool := decide ((d.domStat n).1 = 1) || decide ((d.domStat n).1 = 3)
def Die.domDown (d : Die) (n : Nat) : Bool := decide ((d.domStat n).1 = 2)
/-- The domain a tenancy is a member of. -/
def Die.domOfTen (d : Die) (t : Nat) : Option Nat :=
  (List.range 64).find? fun n => d.domValid n && (d.domPorts n).any fun p => decide (d.domTen n p = t)

/-! ## Ports: line rate and level (R36, R78) -/

/-- Line rate of a link (R36), from the table: speed code, width, flit mode. -/
def lineRate (speed : Nat) (x8 : Bool) (flit : Nat) : Nat :=
  match speed, x8, decide (flit = 1) with
  | 5, false, false => 875
  | 5, true, false => 437
  | 4, false, false => 437
  | 4, false, true => 390
  | 4, true, false => 218
  | 4, true, true => 195
  | 3, false, false => 218
  | 3, false, true => 195
  | 3, true, false => 109
  | 3, true, true => 97
  | 2, false, false => 109
  | 2, false, true => 97
  | 2, true, false => 54
  | 2, true, true => 48
  | _, _, _ => 0

def Port.rate (p : Port) : Nat := if p.linkUp && decide (p.flit ≠ 0) then lineRate p.speed p.x8 p.flit else 0

/-- CXL.mem enabled and carried (R35): MEM_ACTIVE. DEDUCED: the port serves CXL.mem, for every LD of an MLD port, once any LD has set
its Mem_Enable: R35 and R69 speak of the port alone (log entry 121). -/
def Port.memServes (p : Port) : Bool := p.linkUp && decide (p.memEn ≠ 0) && decide (2 ≤ p.speed) && decide (p.flit ≠ 0)

def Port.fcxActive (p : Port) : Bool := decide (p.mode = some .fcx) && p.linkUp

/-- The port presents itself as a multi-logical device (R33): by its mode while that is fixed, else as its active MLD_EN says. -/
def Die.mldPort (d : Die) (p : Nat) : Bool :=
  match (d.port p).mode with
  | some m => decide (m = .mld)
  | none => bit (d.act (R.hptPortCfg p)) 8

/-- The number the model gives the FM-owned LD of an MLD port (R44, R45): TEN_CFG.LD uses 31 for no LD. -/
def fmLd : Nat := 31

/-- A host's access through the BAR0 of a tenant LD (R45): it reaches that LD's 64 KiB of CXL component registers, device registers
and primary mailbox, its counters and doorbells (R572), not the management window. -/
def Die.ldBar (d : Die) (src : Src) : Bool :=
  decide (src.master < 6) && !src.jtag && d.mldPort src.port && decide (src.ld ≠ fmLd)

/-! ## Wake sources (R482–R486) -/

/-- A request leaves its slot with an outcome (PWR_REQ.LAST_STATUS). -/
def Die.endRequest (d : Die) (status : Nat) : Die :=
  { d with pwr := { d.pwr with inflight := none, last := status, freqDone := false, settled := false } }

/-- Wake codes of R482, in bit order. -/
def wakeCode (b : Nat) : Nat := if b < 6 then 1 + b else 0x10 + (b - 6)

/-- Lowest wake code among the sources of a mask; codes rise with the bit except that ports come first. -/
def lowestWake (m : Nat) : Nat :=
  match (List.range 16).find? fun b => m.testBit b with
  | some b => wakeCode b
  | none => 0

/-- R486: the sources present at an exit. -/
def Die.recordWake (d : Die) (m : Nat) : Die :=
  { d with pwr := { d.pwr with wakeCause := m &&& d.pwr.wakeMask, lastWake := lowestWake (m &&& d.pwr.wakeMask) } }

/-- Edge sources: lost in the final cycles of an entry (R485). -/
def edgeSource (b : Nat) : Bool := decide (b = 10 ∨ b = 11 ∨ b = 12)

/-- A wake source fires (R482–R486). -/
def Die.wake (d : Die) (b : Nat) : Die :=
  let m := d.pwr.present ||| 2 ^ b
  if !d.pwr.wakeMask.testBit b then d
  else
    let exit (st : PwrSt) : Die := { d with pwr := { d.pwr with st := st, present := m, sleepEnd := d.time } }
    let abort : Die :=
      (({ d with pwr := { d.pwr with st := .run, present := 0 } }.recordWake m).endRequest St.success).event R.pwrEvent 5
    match d.pwr.st with
    | .sl2 => exit .sl2Exit
    | .sl3 => exit .sl3Exit
    | .sl2Entry => abort
    | .sl3Entry n =>
      if n < 5 then abort
      else if edgeSource b then d
      else { d with pwr := { d.pwr with present := m } }
    | _ => d

/-! ## Fault records (R496–R502, R516, R517) -/

def unitHpt (p : Nat) : Nat := p
def unitPhy (p : Nat) : Nat := 6 + p
def unitCha (h : Nat) : Nat := 0x28 + h
def unitMch (c : Nat) : Nat := 0x30 + c
def unitDimm (c s : Nat) : Nat := 0x40 + 2 * c + s
def unitHbm (k : Nat) : Nat := 0x61 + k
def unitCry (n : Nat) : Nat := 0x78 + n
def unitPcx (n : Nat) : Nat := 0x90 + n
def unitTrs : Nat := 0x24
def unitHbc : Nat := 0x60
def unitItr : Nat := 0x8c
def unitPageMap : Nat := 0xa2
def unitKps : Nat := 0xb0
def unitKht : Nat := 0xb1
def unitDbl : Nat := 0xb2
def unitOhm : Nat := 0xb5

/-- The DIMM unit of a granule (R593). -/
def Die.dimmUnit (d : Die) (dga : Nat) : Nat := unitDimm (d.chanOf dga) (Config.slotOf dga % 2)

/-- The history queue of a privileged unit (R497). -/
def historyQueue (u : Nat) : Option Nat :=
  if 0x28 ≤ u ∧ u < 0x30 then some (u - 0x28)
  else if u = unitItr then some 8
  else if u = unitOhm then some 9
  else if u = unitDbl then some 10
  else if u = unitKps then some 11
  else none

/-- The FLT_EPOCH index of a unit that carries an epoch (R514, R521). -/
def epochIndex (u : Nat) : Option Nat :=
  if 0x78 ≤ u ∧ u < 0x8c then some (u - 0x78)
  else if 0x90 ≤ u ∧ u < 0xa2 then some (20 + (u - 0x90))
  else if 0xa8 ≤ u ∧ u < 0xac then some (38 + (u - 0xa8))
  else none

def Die.unitEpoch (d : Die) (u : Nat) : Nat :=
  match epochIndex u with
  | some i => (d.flt.epoch.find? i).getD 0
  | none => 0

/-- Units next to a shadow's reacting unit (R516); a lane or codec that was replaced keeps those of the channel it served. -/
def Die.neighbour (d : Die) (s : Shadow) (n : Nat) : Bool :=
  let u := s.unit
  let cry := decide (0x78 ≤ n ∧ n < 0x8c)
  if u < 0xc then decide (n = 0x10 + u % 6 ∨ n = 0x24 ∨ n = 0x25 ∨ n = 0x26)
  else if 0x28 ≤ u ∧ u < 0x30 ∨ 0x1c ≤ u ∧ u < 0x24 then decide (n = 0x60 ∨ n = unitItr ∨ n = 0x26) || cry
  else if 0x78 ≤ u ∧ u < 0x8c then s.chan.any fun c => decide (n = unitMch c ∨ n = unitPcx (d.chan c).codec ∨ n = unitItr)
  else if 0x90 ≤ u ∧ u < 0xa2 then s.chan.any fun c => decide (n = unitCry (d.chan c).lane)
  else if 0x30 ≤ u ∧ u < 0x40 then
    let c := u - 0x30
    decide (n = unitCry (d.chan c).lane ∨ n = unitDimm c 0 ∨ n = unitDimm c 1 ∨ n = 0xc8 + c / 2)
  else if u = 0xa5 then decide (n = 0x16 ∨ n = unitHbc)
  else if u = 0xa4 then decide (n = 0x17 ∨ n = unitHbc)
  else if u = 0xb8 then decide (n = 0x19 ∨ n = unitHbc)
  else if u = 0xb9 then decide (n = 0x1a ∨ n = unitHbc)
  else if 0xa8 ≤ u ∧ u < 0xac then
    decide (0xa8 ≤ n ∧ n < 0xac ∧ n ≠ u) || decide (n = 0xac ∨ n = unitKps ∨ n = 0xb9)
  else false

/-- A record with this code from this unit is consequential now (R516). -/
def Die.inShadow (d : Die) (u code : Nat) : Bool :=
  decide (0x33 ≤ code ∧ code ≤ 0x35) &&
    d.flt.shadows.any fun s => (match s.ends with | none => true | some t => decide (d.time ≤ t)) && d.neighbour s u

/-! ## The keep store (R557, R558) -/

/-- Endurance of a keep register. -/
def wearMax : Nat := 1000000

/-- What a keep register reads; a bad register reads 0. -/
def Die.keep (d : Die) (k : Nat) : Reg := if d.kps.bad.contains k then 0 else (d.kps.cells.find? k).getD 0

/-- The bits of a keep register that hold fields: RSV bits keep 0 whoever writes (R5, R559). -/
def keepMask (k : Nat) : Reg :=
  if k = 0 then 0xfffffff0#32
  else if k = 3 then 0x7cf#32
  else if k = 4 then 0x777777#32
  else if k = 6 ∨ k = 7 then 0#32
  else if 16 ≤ k ∧ k < 32 then 0x33#32
  else if k = 996 then 0xf00000ff#32
  else 0xffffffff#32

/-- One keep write made: wear, KPS_WRITES, KPS_LAST; refused at the wear limit (KEEP_WORN recorded by the caller), dropped
for a bad register. -/
def Die.keepMake (d : Die) (k : Nat) (v : Reg) : Die :=
  let set (d : Die) (res : Nat) : Die := { d with kps := { d.kps with lastIdx := k, lastRes := res } }
  if d.kps.bad.contains k then set d 3
  else if wearMax ≤ Tbl.get 0 d.kps.wear k then set (d.event R.kpsEvent 1) 2
  else
    let d1 := { d with kps := { d.kps with cells := d.kps.cells.set 0 k (v &&& keepMask k),
                                           wear := d.kps.wear.set 0 k (Tbl.get 0 d.kps.wear k + 1) } }
    set (d1.count R.kpsWrites 1) 1

/-- The eight words of a fault record (R498). -/
def Rec.words (r : Rec) (valid : Bool) : List Reg :=
  let flags := r.cls % 4 + b2n r.injected * 4 + b2n r.consequential * 8 + b2n r.ovf * 16 + b2n r.tested * 32 +
    b2n r.lasting * 64 + b2n valid * 128
  [r.unit % 2 ^ 16 + r.code % 2 ^ 16 * 2 ^ 16, flags + r.master % 256 * 2 ^ 8 + r.ten % 2 ^ 16 * 2 ^ 16,
   r.time % 2 ^ 32, r.time / 2 ^ 32 % 2 ^ 32, r.addr % 2 ^ 32, r.addr / 2 ^ 32 % 2 ^ 32, r.syndrome % 2 ^ 32,
   r.seq % 2 ^ 16 + r.epoch % 256 * 2 ^ 16].map (BitVec.ofNat 32)

/-- The fault summary of a doorstop: K5 counts it, K8–K15 take the fatal record (R517, R559). -/
def Die.faultSummary (d : Die) (r : Option Rec) : Die :=
  let d1 := d.keepMake 5 (BitVec.ofNat 32 (min ((d.keep 5).toNat + 1) 0xffffffff))
  match r with
  | some r => ((List.range 8).zip (r.words true)).foldl (fun d w => d.keepMake (8 + w.1) w.2) d1
  | none => d1

/-- Enter doorstop for a record's unit and code (R517): flags, viral and AER on every port, SB_ALERT0_N, the fault summary.
During start-up a fatal record fails the running step instead (R548). -/
def Die.doorstop (d : Die) (u code : Nat) (r : Option Rec) : Die :=
  if d.flt.doorstop then d
  else if !d.boot.done then { d with boot := { d.boot with fatal := some u } }
  else
    let d0 := d.faultSummary r
    let d1 := { d0 with flt := { d0.flt with doorstop := true, causeUnit := u, causeCode := code } }
    let d2 := (List.range 6).foldl (fun d p => ((d.setPort p { (d.port p) with viral := true }).emit (.viral p)).emit (.aerFatal p)) d1
    (d2.event R.fltEvent 4).emit (.alert 0 true)

/-- Of two records that reach a unit in one cycle, the one taken first (R500): real ones, the higher class, the lower code. -/
def Rec.before (r o : Rec) : Bool :=
  let key (x : Rec) : Nat × Nat := ((if x.injected then 4 else 0) + (3 - x.cls), x.code)
  decide ((key r).1 < (key o).1 ∨ ((key r).1 = (key o).1 ∧ (key r).2 < (key o).2))

/-- Put a record into its unit's latch (R500); records of one reference cycle count as those of one fabric cycle (log entry 159). -/
def latchWith (old : Option Rec) (r : Rec) : Rec :=
  match old with
  | none => r
  | some o =>
    if (o.injected && !r.injected) || (decide (o.time = r.time) && r.before o) then { r with ovf := true } else { o with ovf := true }

/-- Append to a history queue (R501): the oldest of 32 is overwritten. -/
def Hq.push (q : Hq) (r : Rec) : Hq :=
  { recs := if 32 ≤ q.recs.length then q.recs.drop 1 ++ [r] else q.recs ++ [r],
    next := (q.next + 1) % 32,
    drops := if 32 ≤ q.recs.length then min (q.drops + 1) 0xffff else q.drops }

/-- A real event coincides with an injected fatal one waiting in the same unit (R520): that one enters no doorstop. -/
def Die.coincide (d : Die) (u : Nat) : Die :=
  match d.flt.injWait with
  | some r => if r.unit = u ∧ d.time ≤ r.time + 50 then { d with flt := { d.flt with injWait := none } } else d
  | none => d

/-- Make one fault record (R498, R500–R502, R516): sequence, latch, history queue, counts, event bits, alert. What the
record sets going is `Die.record`. -/
def Die.recordOnly (d : Die) (u code cls master ten addr syn : Nat) (injected : Bool) : Die :=
  let shadowed := d.inShadow u code
  let r : Rec :=
    { unit := u, code := code, cls := cls, injected := injected, consequential := shadowed, ovf := false,
      tested := false, lasting := false, master := master, ten := ten, time := d.time, addr := addr, syndrome := syn,
      seq := d.flt.seq, epoch := d.unitEpoch u }
  let f := (if injected then d else d.coincide u).flt
  let full := match historyQueue u with
    | some q => decide (32 ≤ ((f.hq.find? q).getD Hq.init).recs.length)
    | none => false
  let f1 :=
    { f with
      seq := (f.seq + 1) % 2 ^ 32,
      lat := if shadowed then f.lat else f.lat.insert u (latchWith (f.lat.find? u) r),
      hq := match historyQueue u with
        | some q => f.hq.insert q (((f.hq.find? q).getD Hq.init).push r)
        | none => f.hq
      ce := if cls = 0 ∧ !shadowed then (u, d.time) :: f.ce else f.ce }
  let d1 := { d with flt := f1 }
  let d1 := if cls < 2 then d1.tally (0x80 + cls) 1 [scDev] else d1
  let d2 := d1.count (if cls = 0 then R.fltCntCorr else if cls = 1 then R.fltCntUc else R.fltCntFatal) 1
  let d3 := d2.event R.fltEvent (1 + cls)
  let d4 := if full then d3.event R.fltEvent 6 else d3
  let d5 := if shadowed then d4.count R.fltConseq 1 else d4
  let d6 := if cls = 0 then d5 else d5.wake 8
  if cls = 1 then d6.emit (.alert 1 true) else d6

/-! ## Events to hosts -/

/-- A CXL event record with its MSI-X interrupt, to a port whose link is up. -/
def Die.hostEvent (d : Die) (p : Nat) (e : Ev) : Die := if (d.port p).linkUp then d.emit (.event p e) else d

end Sys2Proof.Machine
end

