-- ==== Sys2Proof/Machine/Hbm.lean ====
section
/-! DEFINITION. Machine/Hbm.lean: the HBM controller: region checks (R415, R352), the memory-side cache's ways (R341–R347), the page
map's entries, and its queue of accesses in three groups (R351). -/

namespace Sys2Proof.Machine

/-! ## Region registers -/

/-- The region that decides on an access to an address of controller `ctl`: the lowest-numbered VALID one whose range holds it (R415). -/
def Die.regionAt (d : Die) (ctl addr : Nat) : Option Nat :=
  let page := addr / 4096
  (List.range 64).find? fun n =>
    let i := 64 * ctl + n
    bit (d.regR (R.mulCtl i)) 31 && decide ((d.regR (R.mulBase i)).toNat ≤ page) && decide (page ≤ (d.regR (R.mulLim i)).toNat)

/-- R415: may `master`, in the world given, make this access through controller `ctl`? -/
def Die.regionOk (d : Die) (ctl addr master : Nat) (write secure : Bool) : Bool :=
  match d.regionAt ctl addr with
  | none => false
  | some n =>
    let i := 64 * ctl + n
    bit (d.regR (R.mulMask i)) (master + if write then 16 else 0) && (secure || !bit (d.regR (R.mulCtl i)) 30)

/-- A denied access is counted, and DBG_RGN_LAST holds it with what denied it (R417, R438). -/
def Die.noteDeny (d : Die) (ctl addr master : Nat) (write secure : Bool) : Die :=
  let why : Nat := match d.regionAt ctl addr with
    | none => 2 ^ 7
    | some n => b2n (!secure && bit (d.regR (R.mulCtl (64 * ctl + n))) 30) * 2 ^ 6 + n
  (((d.count R.dbgRgnDeny 1).regW R.dbgRgnLastLo (BitVec.ofNat 32 (addr / 4096))).regW R.dbgRgnLastHi
    (BitVec.ofNat 32 (b2n write * 2 ^ 31 + master % 16 * 2 ^ 24 + ctl % 32 * 2 ^ 16 + why))).event R.dbgEvent 4

/-- HBC's number among the memory controllers (R415). -/
def hbcCtl : Nat := 16

/-- A master's accesses to the HBM carry this world (R410): the walker's and identity 14's are secure. -/
def hbmSecure (master : Nat) : Bool := decide (master = 10 ∨ master = 14)

/-! ## The memory-side cache -/

/-- Key-index check of a keyhole index (R196). -/
def kicOf (k : Nat) : Nat := (k % 256) ^^^ ((k / 256 % 16) * 17)

/-- Set of a granule (R341). -/
def hbSet (dga : Nat) : Nat := dga / 2 ^ 27 % 2 ^ 16 % 3 * 2 ^ 21 + dga / 64 % 2 ^ 21
/-- Partial tag (R341). -/
def hbPtag (dga : Nat) : Nat := dga / 2 ^ 27 % 128

def Die.way (d : Die) (set w : Nat) : Option CacheWay := d.hbc.ways.find? (set * 8 + w)
def Die.dropWay (d : Die) (set w : Nat) : Die := { d with hbc := { d.hbc with ways := d.hbc.ways.erase (set * 8 + w) } }
def Die.putWay (d : Die) (set w : Nat) (x : CacheWay) : Die :=
  { d with hbc := { d.hbc with ways := d.hbc.ways.insert (set * 8 + w) x } }

/-- CACHE_EN. -/
def Die.cacheOn (d : Die) : Bool := bit (d.act R.hbcCfg) 0

/-- The CACHE flag of a DLA bay (R327, R328). -/
def Die.bayCache (d : Die) (bay : Nat) : Bool :=
  d.cacheOn && match d.entriesOfBay bay with
    | e :: _ => (d.bt e).cache
    | [] => false

/-- The way of the set with the granule's partial tag whose content satisfies `p`. -/
def Die.findWay (d : Die) (dga : Nat) (p : CacheWay → Bool) : Option Nat :=
  (List.range 8).find? fun w => match d.way (hbSet dga) w with
    | some x => decide (x.ptag = hbPtag dga) && p x
    | none => false

/-- R343: the way a lookup under index `k` matches. -/
def Die.lookup (d : Die) (dga k : Nat) : Option Nat := d.findWay dga fun x => decide (x.kic = kicOf k)

/-- HBM address of a way (R341). -/
def wayAddr (set w : Nat) : Nat := 0x540000000 + (8 * set + w) * 64

/-- R346: the way a fill takes among the ways of a mask, after dropping a copy with the same partial tag outside it. -/
def Die.fillWay (d : Die) (dga mask : Nat) : Option Nat × Die :=
  let s := hbSet dga
  let inMask := (List.range 8).filter fun w => mask.testBit w
  match d.findWay dga fun _ => true with
  | some w =>
    if inMask.contains w then (some w, d)
    else
      let d1 := d.dropWay s w
      match inMask.find? fun w => (d1.way s w).isNone with
      | some w => (some w, d1)
      | none => (inMask[d1.hbc.lfsr.toNat % (max inMask.length 1)]?, d1)
  | none => match inMask.find? fun w => (d.way s w).isNone with
    | some w => (some w, d)
    | none => (inMask[d.hbc.lfsr.toNat % (max inMask.length 1)]?, d)

/-- A fill's write (R346). -/
def Die.fillNow (d : Die) (dga k mask : Nat) (g : Granule) : Die :=
  let d0 := { d with hbc := { d.hbc with lfsr := Config.lfsrNext d.hbc.lfsr } }
  match d0.fillWay dga mask with
  | (some w, d1) =>
    let d2 := d1.putWay (hbSet dga) w { data := g.data, tag := g.tag, kic := g.kic, ptag := hbPtag dga }
    ({ d2 with hbc := { d2.hbc with fillMap := if d2.hbc.fillMap.contains k then d2.hbc.fillMap else k :: d2.hbc.fillMap } }).count
      R.hbcFill 1
  | (none, d1) => d1

/-- A store update's write (R347): the way that matches without regard to KIC takes the new line. -/
def Die.updateNow (d : Die) (dga : Nat) (g : Granule) : Die :=
  match d.findWay dga fun _ => true with
  | some w => d.putWay (hbSet dga) w { data := g.data, tag := g.tag, kic := g.kic, ptag := hbPtag dga }
  | none => d

/-! ## The page map -/

/-- HBM address of a page's page-map line (R281). -/
def pageMapAddr (page : Nat) : Nat := 0x100000000 + page / 4 * 64

def Die.pgEnt (d : Die) (page : Nat) : PgEnt := (d.pmap.ents.find? page).getD PgEnt.unmapped
def Die.setPgEnt (d : Die) (page : Nat) (e : PgEnt) : Die :=
  { d with pmap := { d.pmap with ents := d.pmap.ents.set PgEnt.unmapped page e } }

/-! ## The queue (R351) -/

/-- Lines the HBM moves in a reference cycle: 3,200 lines a transom (R146). -/
def hbmPerCycle : Nat := 64

/-- Depth of the third group's queue: the spec gives none (R348); the model's is 256. -/
def g3Depth : Nat := 256

/-- Lines issued that the cycles passed since have not covered. -/
def Die.hbmUsed (d : Die) : Nat := d.hbc.issued - hbmPerCycle * (d.time - d.hbc.issuedAt)

/-- One more access may issue in this reference cycle. -/
def Die.hbmRoom (d : Die) : Bool := decide (d.hbmUsed < hbmPerCycle)

/-- Order of issue: by group, earliest deadline first in group 1, oldest first in the others. -/
def HbmAcc.before (a b : HbmAcc) : Bool :=
  if a.group ≠ b.group then decide (a.group < b.group)
  else if a.group = 1 ∧ a.due ≠ b.due then decide (a.due < b.due)
  else decide (a.seq < b.seq)

def firstHbm (l : List HbmAcc) : Option HbmAcc :=
  l.foldl (fun (a : Option HbmAcc) x => match a with
    | none => some x
    | some y => if x.before y then some x else some y) none

/-- ACC of a page that has a form changes (R330); an UNMAPPED or LOST entry holds no count (R282). -/
def Die.setAcc (d : Die) (page : Nat) (f : Nat → Nat) : Die :=
  let e := d.pgEnt page
  if e.st = .plain ∨ e.st = .packed then d.setPgEnt page { e with acc := f e.acc } else d

/-- What an access does where it issues; a read's data come back later (R330, R346, R347). -/
def Die.hbmEffect (d : Die) (op : HbmOp) : Die :=
  match op with
  | .fill dga k mask g => d.fillNow dga k mask g
  | .update dga g => d.updateNow dga g
  | .accInc page => d.setAcc page fun a => min 255 (a + 1)
  | .accHalve page => d.setAcc page fun a => a / 2
  | _ => d

/-- Issue one access. -/
def Die.hbmIssue (d : Die) (a : HbmAcc) : Die :=
  let d1 := { d with hbc := { d.hbc with queue := d.hbc.queue.filter fun (x : HbmAcc) => decide (x.seq ≠ a.seq),
                                         issuedAt := d.time, issued := d.hbmUsed + a.op.lines } }
  d1.hbmEffect a.op

/-- Issue while the HBM has room and something waits. -/
def Die.hbmDrain : Nat → Die → Die
  | 0, d => d
  | n + 1, d =>
    match firstHbm d.hbc.queue with
    | none => d
    | some a => if d.hbmRoom then Die.hbmDrain n (d.hbmIssue a) else d

/-- An access enters the queue and issues at once where there is room. -/
def Die.hbmPut (d : Die) (group due : Nat) (op : HbmOp) : Die :=
  let a : HbmAcc := { seq := d.seq, group := group, due := due, op := op }
  Die.hbmDrain (d.hbc.queue.length + 1) { d with seq := d.seq + 1, hbc := { d.hbc with queue := d.hbc.queue ++ [a] } }

/-- An access waits in the queue. -/
def Die.hbmWaits (d : Die) (op : HbmOp) : Bool := d.hbc.queue.any fun (a : HbmAcc) => decide (a.op = op)

/-- A denied HBM access is counted and recorded against its master (R417). -/
def Die.hbmDeny (d : Die) (addr master : Nat) (write : Bool) : Die :=
  (d.noteDeny hbcCtl addr master write (hbmSecure master)).recordOnly unitHbc 0x22 1 master 0xffff addr 0 false

/-- An access of `master` at an HBM address asks to enter the queue (R351, R415): whether it did. `write`: the right it needs — the
write right for a write and for an atomic read-modify-write made for a master, but the read right for the mover's halving of ACC
(R416). A full third group takes no fill, update or increment (R331, R348). -/
def Die.hbm (d : Die) (group due addr master : Nat) (write : Bool) (op : HbmOp) : Bool × Die :=
  if !d.regionOk hbcCtl addr master write (hbmSecure master) then (false, d.hbmDeny addr master write)
  else
    let drops : Bool := match op with
      | .fill .. | .update .. | .accInc _ => true
      | _ => false
    if drops ∧ g3Depth ≤ (d.hbc.queue.filter fun (a : HbmAcc) => decide (a.group = 3)).length then (false, d)
    else (true, d.hbmPut group due op)

end Sys2Proof.Machine
end

