-- ==== Sys2Proof/Machine/Integrity.lean ====
section
/-! DEFINITION. Machine/Integrity.lean: counter blocks, keystream, tags and node MACs (R195–R200, R208, R245–R246), the
counter tree with its on-die cache (R201–R216, R229–R236), and the verdict on a granule (R224). -/

namespace Sys2Proof.Machine

/-! ## Tags and keystream -/

/-- KIC of a granule of kind `kind` (R196). -/
def kicFor (kind k : Nat) : Nat := if kind = 0 ∨ kind = 1 then kicOf k else 0

/-- Counter block (R245), as the 16 bytes that enter AES. -/
def counterBlock (kidx dga major minor j : Nat) : List Nat :=
  leBytes 16 (major * 2 ^ 64 + minor * 2 ^ 57 + (dga / 64) % 2 ^ 37 * 2 ^ 20 + kidx * 2 ^ 8 + j)

/-- The 64 B keystream of a granule (R246), as a line. -/
def keystream (key kidx dga major minor : Nat) : Line :=
  lineOf ((List.range 4).flatMap fun j => aes256 (leBytes 32 key) (counterBlock kidx dga major minor j))

/-- Address block (R200). -/
def addressBlock (dga major minor kind : Nat) (poison : Bool) : List Nat :=
  leBytes 8 (dga / 64 * 64) ++ leBytes 8 major ++ [minor % 128] ++ [b2n poison * 128 + kind * 16] ++ List.replicate 14 0

/-- TAG of a granule (R199). -/
def tagOf (key kidx dga major minor kind : Nat) (poison : Bool) (cipher : Line) : Nat :=
  gmac48 (leBytes 32 key) (counterBlock kidx dga major minor 4)
    (addressBlock dga major minor kind poison ++ lineBytes cipher)

/-- The granule a lane stores (R226, R235): encrypted, tagged, with its sideband. -/
def sealGranule (key kidx dga major minor kind : Nat) (poison : Bool) (plain : Line) : Granule :=
  let c := plain ^^^ keystream key kidx dga major minor
  { data := c, tag := tagOf key kidx dga major minor kind poison c, kic := kicFor kind kidx, poison := poison,
    kind := kind, unwritten := false }

/-- Fill written in place of data (R198). -/
def fillGranule : Granule := { data := 0, tag := 0, kic := 0, poison := false, kind := 0, unwritten := true }

/-- A node's 64 B image (R203). -/
def Node.line (n : Node) : Line :=
  BitVec.ofNat 512 (n.major % 2 ^ 64 + (List.range 64).foldl (fun a i => a + Tbl.get 0 n.minors i % 128 * 2 ^ (64 + 7 * i)) 0)

def Node.minor (n : Node) (i : Nat) : Nat := Tbl.get 0 n.minors i
def Node.setMinor (n : Node) (i m : Nat) : Node := { n with minors := n.minors.set 0 i m }

/-- Node MAC (R208) of a node of `level` and `index` under the version its parent gives. -/
def nodeMac (tk level index major minor : Nat) (n : Node) : Nat :=
  gmac48 (leBytes 32 tk)
    (leBytes 16 (level * 2 ^ 126 + index % 2 ^ 31 * 2 ^ 95 + major * 2 ^ 31 + minor * 2 ^ 24))
    (leBytes 8 index ++ [level] ++ List.replicate 7 0 ++ lineBytes n.line)

/-! ## The tree -/

/-- Largest MAJOR. -/
def majorMax : Nat := 0xffffffffffffffff

/-- Key of a node in the counter cache: level code and node index (R204, R212). -/
def nodeKey (level idx : Nat) : Nat := level * 2 ^ 32 + idx
def keyLevel (k : Nat) : Nat := k / 2 ^ 32
def keyIdx (k : Nat) : Nat := k % 2 ^ 32

/-- Node index of a DGA at a level (R204). -/
def nodeIdx (level dga : Nat) : Nat := dga / 2 ^ (12 + 6 * level)

/-- First DGA a node covers. -/
def nodeBase (level idx : Nat) : Nat := idx * 2 ^ (12 + 6 * level)

/-- Slot of a granule in its leaf (R204). -/
def slotIn (dga : Nat) : Nat := dga / 64 % 64

def Itr.l3node (i : Itr) (n : Nat) : Node := (i.l3.find? n).getD Node.zero
def Itr.l4node (i : Itr) (n : Nat) : Node := (i.l4.find? n).getD Node.zero

/-- The latest copy of the node `k` levels below L3, where the die knows it without a fetch: L3 on the die, a cached node,
or a node whose version minor is 0 (R210, R212). -/
def Itr.known (i : Itr) : Nat → Nat → Option Node
  | 0, idx => some (i.l3node idx)
  | k + 1, idx =>
    match i.cc.find? (nodeKey (2 - k) idx) with
    | some e => some e.node
    | none => match i.known k (idx / 64) with
      | some p => if p.minor (idx % 64) = 0 then some Node.zero else none
      | none => none

/-- The latest known copy at a level code 0–3. -/
def Itr.latest (i : Itr) (level idx : Nat) : Option Node := i.known (3 - level) idx

/-- Nodes to fetch for the leaf of `dga`: every level from the leaf up to the first known one (R26, R212). -/
def Itr.missing (i : Itr) (dga : Nat) : List Nat :=
  (List.range 3).filterMap fun l =>
    if (i.latest l (nodeIdx l dga)).isNone then some (nodeKey l (nodeIdx l dga)) else none

/-- Dirty nodes in the counter cache (R215). -/
def Itr.dirty (i : Itr) : Nat := (i.cc.filter fun e => e.2.dirty).length

/-- The pending image of a leaf (R229). -/
def Itr.pendOf (i : Itr) (leaf : Nat) : Option Pending := i.pend.find? fun p => decide (p.leaf = leaf)

/-- A counter-lost range covers this DGA (R240). -/
def Itr.isLost (i : Itr) (dga : Nat) : Bool :=
  i.lost.any fun l => decide (nodeIdx l.level dga = nodeIdx l.level (l.page * 4096))

/-- The page of this DGA is read-only (R233, R236). -/
def Itr.isReadOnly (i : Itr) (dga : Nat) : Bool :=
  i.readOnly.any fun r => decide (nodeIdx r.1 dga = r.2)

/-- counter(dga) of R224: the pending image where the granule is pending, else its leaf; `none` while unknown. -/
def Itr.counter (i : Itr) (dga : Nat) : Option (Nat × Nat) :=
  let n0 := nodeIdx 0 dga
  let s := slotIn dga
  match i.pendOf n0 with
  | some p => if p.mask.contains s then some (p.image.major, p.image.minor s)
    else (i.latest 0 n0).map fun n => (n.major, n.minor s)
  | none => (i.latest 0 n0).map fun n => (n.major, n.minor s)

/-! ## The leaf cache (R217–R222) -/

def Itr.block (i : Itr) (b : Nat) : Block := (i.blocks.find? b).getD Block.init
/-- The block that holds a physical bay's leaves. -/
def Itr.blockOf (i : Itr) (bay : Nat) : Option Nat :=
  (List.range 126).find? fun b => decide ((i.block b).bay = some bay)
def lineKey (b leaf : Nat) : Nat := b * 2 ^ 18 + leaf % 2 ^ 18
/-- The leaf a line of a block assigned to `bay` holds. -/
def leafOfLine (bay key : Nat) : Nat := bay * 2 ^ 18 + key % 2 ^ 18
def Block.pinned (b : Block) : Bool := decide (b.pins ≠ []) || b.writing

/-- Assign the least recently used unpinned block to `bay` (R220). -/
def Itr.assign (i : Itr) (bay : Nat) : Itr :=
  let free := (List.range 126).filter fun b => !(i.block b).pinned
  let pick := free.foldl (fun (a : Option Nat) b =>
    match a with
    | none => some b
    | some x => if (i.block b).lru < (i.block x).lru then some b else some x) none
  match pick with
  | some b => { i with blocks := i.blocks.set Block.init b { Block.init with bay := some bay, lru := i.clock }, clock := i.clock + 1 }
  | none => i

/-- A transfer rises to the group and deadline of one behind it on its granule: the order of a granule's accesses never changes
(R122, R129), so the later one is only as early as this. -/
def Xfer.raise (x : Xfer) (dga group deadline : Nat) : Xfer :=
  if x.dga ≠ dga ∨ x.group < group then x
  else if group < x.group then { x with group := group, deadline := deadline }
  else { x with deadline := min x.deadline deadline }

/-- Queue a transfer on the channel of its granule. -/
def Die.queueXfer (d : Die) (x : Xfer) : Die :=
  let y : Xfer := { x with seq := d.seq, ch := d.chanOf x.dga }
  { d with seq := d.seq + 1, xfers := (if x.group < 4 then d.xfers.map fun z => z.raise x.dga x.group x.deadline else d.xfers) ++ [y] }

/-- Slot classes of R532 a transfer is counted in. -/
def slotData : Nat := 0
def slotMeta : Nat := 1

/-! ## Node fetches -/

/-- A metadata transfer of the walker or the lanes, charged to the line that causes it (R76, R127). -/
def Die.queueMeta (d : Die) (write : Bool) (dga group deadline louvre : Nat) (con : Option Nat) : Die :=
  d.queueXfer { seq := 0, ch := 0, write := write, dga := dga, txn := none, own := none, line := none, wop := none, group := group,
                deadline := deadline, louvre := louvre, since := d.transom, age := d.seq, slotCls := slotMeta, con := con }

/-- HBM address of a node's off-die copy (R204, R217). -/
def Die.nodeHbm (d : Die) (level idx : Nat) : Nat :=
  if level = 1 then idx * 64
  else if level = 2 then 0x80000000 + idx * 64
  else match d.itr.blockOf (idx / 2 ^ 18) with
    | some b => 0x82000000 + (b * 262144 + idx % 2 ^ 18) * 64
    | none => 0

/-- What a metadata transfer is charged to (R76, R127, R216): group, deadline, louvre, contract. -/
structure Charge where
  group : Nat
  due : Nat
  louvre : Nat
  con : Option Nat
  deriving DecidableEq, Repr

/-- A charge of the mover's and the walker's own work: best effort at a louvre. -/
def Charge.own (louvre : Nat) : Charge := { group := 4, due := 0, louvre := louvre, con := none }

/-- A charge to no louvre: leaf-block fills, unpin write-backs and what no line causes, in group 3 of R127 (R115, R221, R222). -/
def freeCharge : Charge := { group := 3, due := 0, louvre := 256, con := none }

/-- Group of an HBM access on the path of a line charged so (R351). -/
def Charge.hbm (c : Charge) : Nat := if c.con.isSome then 1 else 2

/-- The leaf-cache block holds a line of this leaf. -/
def Itr.inBlock (i : Itr) (n0 : Nat) : Bool :=
  match i.blockOf (n0 / 2 ^ 18) with
  | some b => (i.lines.find? (lineKey b n0)).isSome
  | none => false

/-- A leaf is read from its DDR home: a metadata transfer on its channel (R26, R127). -/
def Die.leafRead (d : Die) (n0 : Nat) (c : Charge) : Die :=
  d.queueMeta false (d.leafAddr (n0 * 4096)) c.group c.due c.louvre c.con

/-- Phases of a node fetch: its first read; the DDR read after a leaf-block miss; the re-read; an access that was denied. -/
def phFirst : Nat := 0
def phDdr : Nat := 1
def phAgain : Nat := 2
def phDenied : Nat := 3

/-- Start one node's fetch (R212): L1, L2 and a leaf its block holds from the HBM, other leaves from DDR. -/
def Die.startFetch (d : Die) (key : Nat) (c : Charge) : Die :=
  let add (d : Die) (ph : Nat) : Die := { d with itr := { d.itr with fetches := d.itr.fetches ++ [(key, ph)] } }
  let l := keyLevel key; let idx := keyIdx key
  if d.itr.fetches.any fun f => decide (f.1 = key) then
    let la := d.leafAddr (idx * 4096)
    if l = 0 ∧ c.group < 4 then { d with xfers := d.xfers.map fun x => x.raise la c.group c.due } else d
  else
    if l ≠ 0 ∨ d.itr.inBlock idx then
      let r := d.hbm c.hbm c.due (d.nodeHbm l idx) 10 false (.node key)
      add r.2 (if r.1 then phFirst else phDenied)
    else (add d phFirst).leafRead idx c

/-- Start the fetches the leaf of `dga` needs. -/
def Die.fetchCounter (d : Die) (dga : Nat) (c : Charge) : Die :=
  (d.itr.missing dga).foldl (fun (d : Die) key => d.startFetch key c) d

/-- A fetched node may arrive: its access has issued. -/
def Die.nodeIssued (d : Die) (key : Nat) : Bool :=
  let la := d.leafAddr (keyIdx key * 4096)
  !d.hbmWaits (.node key) && (decide (keyLevel key ≠ 0) || !d.xfers.any fun x => !x.write && x.txn.isNone && decide (x.dga = la))

/-- Write a node's off-die copy in the HBM (R214, R351). -/
def Die.nodeWrite (d : Die) (key : Nat) (f : Die → Die) : Die :=
  let r := d.hbm 2 0 (d.nodeHbm (keyLevel key) (keyIdx key)) 10 true (.nodeWrite key)
  if r.1 then f r.2 else r.2

/-- Write a leaf's off-die copy (R214 step 4): a pinned block only, else DDR and the bay's block. -/
def Die.putLeaf (d : Die) (idx : Nat) (s : Stored) (e : CcEnt) : Die :=
  let bay := idx / 2 ^ 18
  let home (d : Die) : Die :=
    { d with itr := { d.itr with home := d.itr.home.set Stored.blank (nodeKey 0 idx) s } }.queueMeta true
      (d.leafAddr (idx * 4096)) e.group 0 e.louvre e.con
  match d.itr.blockOf bay with
  | some b =>
    let put (dirty : Bool) (d : Die) : Die := d.nodeWrite (nodeKey 0 idx) fun d =>
      { d with itr := { d.itr with lines := d.itr.lines.insert (lineKey b idx) { s := s, dirty := dirty, queued := false } } }
    if (d.itr.block b).pinned then put true d else home (put false d)
  | none => home d

/-- High-water mark of a level's majors (R241). -/
def Itr.mark (i : Itr) (level major : Nat) : Itr :=
  { i with hwm := i.hwm.set 0 level (max (Tbl.get 0 i.hwm level) major) }

/-- Record a page or interior range read-only, once (R233). Unit, counts and event of R593 with it. -/
def Die.majorEnd (d : Die) (level idx : Nat) : Die :=
  if d.itr.readOnly.contains (level, idx) then d
  else
    let dga := nodeBase level idx
    let d1 := { d with itr := { d.itr with readOnly := (level, idx) :: d.itr.readOnly } }
    let d2 := ((d1.count R.itrMajorEnd 1).event R.itrEvent 7).regW R.itrLastDgaLo (BitVec.ofNat 32 (dga % 2 ^ 32))
    (d2.regW R.itrLastDgaHi (BitVec.ofNat 32 (0xa * 2 ^ 28 + dga / 2 ^ 32))).recordOnly unitItr 0x07 0 0xff 0xffff dga 0xa false

/-- Every minor that is not 0 set to 1 (R229, R236). -/
def onesOf (t : Tbl Nat) : Tbl Nat := t.map fun e => (e.1, 1)

/-- Clear a granule's pending bit; an image whose mask empties is released (R230). -/
def clearPend (ps : List Pending) (n0 s : Nat) : List Pending :=
  (ps.map fun p => if p.leaf = n0 then { p with mask := p.mask.filter (· ≠ s) } else p).filter fun p => decide (p.mask ≠ [])

/-- Raise slot `s` of a parent node by one (R214 step 2), with the overflow of R236: the raised parent and whether it
overflowed; `none` where its MAJOR is exhausted. -/
def raiseMinor (p : Node) (s : Nat) : Option (Node × Bool) :=
  if p.minor s + 1 < 127 then some (p.setMinor s (p.minor s + 1), false)
  else if p.major = majorMax then none
  else some ({ major := p.major + 1, minors := Tbl.set 0 (onesOf p.minors) s 1 }, true)

/-- Load ITR_LAST_DGA, set the event bit, count (R238). -/
def Die.itrNote (d : Die) (dga outcome ev cnt : Nat) : Die :=
  let d1 := (d.count cnt 1).regW R.itrLastDgaLo (BitVec.ofNat 32 (dga / 64 * 64 % 2 ^ 32))
  (d1.regW R.itrLastDgaHi (BitVec.ofNat 32 (outcome % 16 * 2 ^ 28 + dga / 2 ^ 32 % 2 ^ 11))).event R.itrEvent ev

/-- Record a range counter-lost (R240), named by the DGA of the access; with the table full the event is fatal. -/
def Die.addLost (d : Die) (level page dga : Nat) : Die :=
  let x : Lost := { level := level, page := page, cleared := [] }
  if d.itr.lost.any fun (l : Lost) => decide (l.level = level ∧ l.page = page) then d
  else if 64 ≤ d.itr.lost.length then
    let d1 := d.recordOnly unitItr 0x09 2 0xff 0xffff dga 9 false
    d1.doorstop unitItr 0x09 (d1.flt.lat.find? unitItr)
  else
    let d1 := { d with itr := { d.itr with lost := d.itr.lost ++ [x] } }
    (d1.itrNote dga 9 6 R.itrNodeFail).recordOnly unitItr 0x06 1 0xff 0xffff dga 9 false

/-- The first page under node `idx` of level `l`. -/
def firstPage (l idx : Nat) : Nat := idx * 64 ^ l

/-- The HBM pseudo-channel unit of an HBM address. -/
def hbmUnit (a : Nat) : Nat := unitHbm (Config.pseudoOf a % 16)

/-- A recovered node failure (R237, R238): NODE_FAIL against the unit that held the node, with the DGA of the access (R593). -/
def Die.nodeFail (d : Die) (unit dga : Nat) : Die :=
  (d.itrNote dga 8 8 R.itrNodeFail).recordOnly unit 0x05 0 0xff 0xffff dga 8 false

/-! ## Off-die copies read by the walker for its own work (R212, R214, R236) -/

/-- A stored copy verifies under its parent's version (R208). -/
def Itr.macOk (i : Itr) (level idx : Nat) (p : Node) (s : Stored) : Bool :=
  decide (s.mac = nodeMac (i.tk.getD 0) level idx p.major (p.minor (idx % 64)) s.node)

/-- Where the off-die copy of a node is read from, verified (R208, R237). -/
inductive NodeSrc where
  /-- the bay's leaf-cache block -/
  | block (s : Stored)
  /-- DDR, or HBM for an interior node; `after`: a pinned block's line failed first -/
  | home (s : Stored) (after : Bool)
  /-- no copy verifies -/
  | bad
  deriving DecidableEq, Repr

/-- The off-die copy of a node as the walker reads it under its parent: a leaf's block line first; a dirty line of a pinned block has
no other copy (R212, R217, R237). -/
def Itr.offDie (i : Itr) (level idx : Nat) (p : Node) : NodeSrc :=
  let s := (i.home.find? (nodeKey level idx)).getD Stored.blank
  let home (after : Bool) : NodeSrc := if i.macOk level idx p s then .home s after else .bad
  let line := if level ≠ 0 then none
    else (i.blockOf (idx / 2 ^ 18)).bind fun b => (i.lines.find? (lineKey b idx)).map fun l => (i.block b, l)
  match line with
  | none => home false
  | some (b, l) =>
    if i.macOk 0 idx p l.s then .block l.s
    else if b.pinned ∧ l.dirty then .bad
    else home (b.pinned && b.filled)

def NodeSrc.node? : NodeSrc → Option Node
  | .block s => some s.node
  | .home s _ => some s.node
  | .bad => none

/-- The latest copy of the node `k` levels below L3, read and verified where the die does not hold it (R208, R210, R212). -/
def Itr.sure (i : Itr) : Nat → Nat → Option Node
  | 0, idx => some (i.l3node idx)
  | k + 1, idx =>
    match i.cc.find? (nodeKey (2 - k) idx) with
    | some e => some e.node
    | none => (i.sure k (idx / 64)).bind fun p =>
      if p.minor (idx % 64) = 0 then some Node.zero else (i.offDie (2 - k) idx p).node?

/-- A leaf's latest copy, verified. -/
def Itr.leafSure (i : Itr) (n0 : Nat) : Option Node := i.sure 3 n0

/-- counter(dga) of R224, verified; `none` where the leaf cannot be had. -/
def Itr.counterSure (i : Itr) (dga : Nat) : Option (Nat × Nat) :=
  let n0 := nodeIdx 0 dga; let s := slotIn dga
  match i.pendOf n0 with
  | some p => if p.mask.contains s then some (p.image.major, p.image.minor s)
    else (i.leafSure n0).map fun n => (n.major, n.minor s)
  | none => (i.leafSure n0).map fun n => (n.major, n.minor s)

/-- The granule has been stored: its minor is not 0 (R202). -/
def Itr.written (i : Itr) (dga : Nat) : Bool :=
  match i.counterSure dga with
  | some (_, m) => decide (m ≠ 0)
  | none => false

/-- Mark a node used most recently (R212). -/
def Itr.touch (i : Itr) (key : Nat) : Itr :=
  match i.cc.find? key with
  | some e => { i with cc := i.cc.insert key { e with lru := i.clock }, clock := i.clock + 1 }
  | none => i

/-- Children of a parent that overflows, read under its old image and dirty in the cache (R236); one that cannot be verified makes its
range counter-lost. -/
def Die.fetchKids (d : Die) (l idx : Nat) (p : Node) (e : CcEnt) : Die × List (Nat × CcEnt) :=
  p.minors.foldl (fun (a : Die × List (Nat × CcEnt)) m =>
    let ci := idx / 64 * 64 + m.1
    if m.2 = 0 ∨ ci = idx ∨ (a.1.itr.cc.find? (nodeKey l ci)).isSome then a
    else match (a.1.itr.offDie l ci p).node? with
      | some n => (a.1, a.2 ++ [(nodeKey l ci, { e with node := n, dirty := true })])
      | none => (a.1.addLost l (firstPage l ci) (nodeBase l ci), a.2)) (d, [])

/-- Write back one dirty node under its parent `p` (R214): the parent raised, the node's MAC under the new version, its off-die copy
written, the entry clean. Answers what enters the cache dirty: the parent and, after an interior overflow, the children (R236). -/
def Die.wbUnder (d : Die) (key : Nat) (e : CcEnt) (p : Node) : Die × List (Nat × CcEnt) :=
  let l := keyLevel key; let idx := keyIdx key
  match raiseMinor p (idx % 64) with
  | none => (d.majorEnd (l + 1) (idx / 64), [])
  | some (p', ovf) =>
    let k := if ovf then d.fetchKids l idx p e else (d, [])
    let s : Stored := { node := e.node, mac := nodeMac (d.itr.tk.getD 0) l idx p'.major (p'.minor (idx % 64)) e.node }
    let i1 := k.1.itr.mark (l + 1) p'.major
    let i2 := { i1 with cc := i1.cc.insert key { e with dirty := false } }
    let redo (c : Nat × CcEnt) : Nat × CcEnt :=
      if keyLevel c.1 = l ∧ keyIdx c.1 / 64 = idx / 64 ∧ c.1 ≠ key ∧ p.minor (keyIdx c.1 % 64) ≠ 0
      then (c.1, { c.2 with dirty := true }) else c
    let i3 := if ovf then { i2 with cc := i2.cc.map redo } else i2
    let d1 := { k.1 with itr := if l = 2 then { i3 with l3 := i3.l3.set Node.zero (idx / 64) p' } else i3 }
    let d2 := if l = 0 then d1.putLeaf idx s e
      else d1.nodeWrite key fun d => { d with itr := { d.itr with home := d.itr.home.set Stored.blank key s } }
    (d2, (if l = 2 then [] else [(nodeKey (l + 1) (idx / 64), { e with node := p', dirty := true })]) ++ k.2)

/-- Write back one dirty node, its parent read first where the die does not hold it (R214 step 1); where that cannot be verified the
node's range is counter-lost (R240). -/
def Die.wbCore (d : Die) (key : Nat) : Die × List (Nat × CcEnt) :=
  match d.itr.cc.find? key with
  | none => (d, [])
  | some e =>
    let l := keyLevel key; let idx := keyIdx key
    match d.itr.sure (3 - (l + 1)) (idx / 64) with
    | some p => d.wbUnder key e p
    | none => ({ d with itr := { d.itr with cc := d.itr.cc.erase key } }.addLost l (firstPage l idx) (nodeBase l idx), [])

/-- Set of the counter cache a key lies in (R212). -/
def ccSet (key : Nat) : Nat := (keyIdx key % 8192) ^^^ (keyLevel key * 0x800)

/-- A dirty leaf's home is on an excluded channel, and no pinned block takes it (R511). -/
def Die.homeOut (d : Die) (key : Nat) : Bool :=
  decide (keyLevel key = 0) &&
  (match d.itr.blockOf (keyIdx key / 2 ^ 18) with
    | some b => !(d.itr.block b).pinned
    | none => true) &&
  (d.chan (d.chanOf (d.leafAddr (keyIdx key * 4096)))).excluded

/-- The least recently used entry of a set whose home is in service: the one that leaves (R212, R511). -/
def Die.ccVictim (d : Die) (set : Nat) : Option Nat :=
  ((d.itr.cc.filter fun e => decide (ccSet e.1 = set) && !(e.2.dirty && d.homeOut e.1)).foldl (fun (a : Option (Nat × Nat)) e =>
    match a with
    | none => some (e.1, e.2.lru)
    | some x => if e.2.lru < x.2 then some (e.1, e.2.lru) else some x) none).map Prod.fst

/-- A dirty leaf must leave the cache while its home is out of service: its page is counter-lost (R511). -/
def Die.dropLeaf (d : Die) (set : Nat) : Die :=
  match List.find? (fun (e : Nat × CcEnt) => decide (ccSet e.1 = set) && d.homeOut e.1) d.itr.cc with
  | none => d
  | some (k, _) => { d with itr := { d.itr with cc := d.itr.cc.erase k } }.addLost 0 (keyIdx k) (keyIdx k * 4096)

/-- Put a node into the counter cache (R212): as most recently used; a full set lets an entry leave, written back where it
is dirty (R214). The first argument bounds the chain of evictions. -/
def Die.place : Nat → Die → Nat → CcEnt → Die
  | 0, d, key, e =>
    { d with itr := { d.itr with cc := d.itr.cc.insert key { e with lru := d.itr.clock }, clock := d.itr.clock + 1 } }
  | n + 1, d, key, e =>
    let d1 :=
      if (d.itr.cc.find? key).isSome then d
      else if (d.itr.cc.filter fun x => decide (ccSet x.1 = ccSet key)).length < 16 then d
      else match d.ccVictim (ccSet key) with
        | none => d.dropLeaf (ccSet key)
        | some v =>
          let r := if ((d.itr.cc.find? v).map (·.dirty)).getD false then d.wbCore v else (d, [])
          let d2 := { r.1 with itr := { r.1.itr with cc := r.1.itr.cc.erase v } }
          r.2.foldl (fun d x => Die.place n d x.1 x.2) d2
    { d1 with itr := { d1.itr with cc := d1.itr.cc.insert key { e with lru := d1.itr.clock }, clock := d1.itr.clock + 1 } }

/-- The chain of evictions one placement may set off. -/
def evictChain : Nat := 64

/-- Write back one dirty node and place what it raises (R214, R215). -/
def Die.writeBack (d : Die) (key : Nat) : Die :=
  let r := d.wbCore key
  r.2.foldl (fun d x => d.place evictChain x.1 x.2) r.1

/-- A verified copy read from off the die enters the cache clean; a leaf read from DDR also goes to its bay's block, which a bay
without one takes now (R212, R220). -/
def Die.takeNode (d : Die) (key : Nat) (s : Stored) (ddr : Bool) : Die :=
  let idx := keyIdx key; let bay := idx / 2 ^ 18
  let i := if ddr ∧ (d.itr.blockOf bay).isNone then d.itr.assign bay else d.itr
  let i1 := if keyLevel key ≠ 0 then i
    else match i.blockOf bay with
      | none => i
      | some b =>
        if ddr then { i with lines := i.lines.insert (lineKey b idx) { s := s, dirty := false, queued := false } }
        else
          let x := i.block b
          { i with blocks := i.blocks.set Block.init b { x with lru := i.clock }, clock := i.clock + 1 }
  let e : CcEnt := { node := s.node, dirty := false, lru := 0, group := 4, louvre := 256, con := none }
  { d with itr := i1 }.place evictChain key e

/-- The walker reads one node of a path for its own work (R212, R237): the copies as they are stored. -/
def Die.learnNode (d : Die) (level idx : Nat) (c : Charge) (dga : Nat) : Die :=
  let key := nodeKey level idx
  if (d.itr.latest level idx).isSome then { d with itr := d.itr.touch key }
  else match d.itr.latest (level + 1) (idx / 64) with
    | none => d
    | some p =>
      match d.itr.offDie level idx p with
      | .block s => (d.hbm c.hbm c.due (d.nodeHbm 0 idx) 10 false (.node key)).2.takeNode key s false
      | .home s after =>
        if level ≠ 0 then (d.hbm c.hbm c.due (d.nodeHbm level idx) 10 false (.node key)).2.takeNode key s false
        else
          let d1 := if after then d.nodeFail (hbmUnit (d.nodeHbm 0 idx)) dga else d
          (d1.leafRead idx c).takeNode key s true
      | .bad => (d.count R.stuLineTests 1).addLost level (firstPage level idx) dga

/-- The path to the leaf of `dga` read for the walker's or the mover's own work: the leaf is known afterwards unless its range is
counter-lost. -/
def Die.learn (d : Die) (dga : Nat) (c : Charge) : Die :=
  [2, 1, 0].foldl (fun (d : Die) l => d.learnNode l (nodeIdx l dga) c dga) d

/-- Put a changed leaf into the counter cache, dirty, charged to the line that dirtied it (R213, R216). -/
def Die.setLeaf (d : Die) (n0 : Nat) (n : Node) (group louvre : Nat) (con : Option Nat) : Die :=
  d.place evictChain (nodeKey 0 n0) { node := n, dirty := true, lru := 0, group := group, louvre := louvre, con := con }

/-- What raising a granule's minor for a store gives (R226, R229–R233). -/
inductive Raise where
  /-- new counter value -/
  | ok (major minor : Nat) (d : Die)
  /-- the leaf is not known yet -/
  | wait (d : Die)
  /-- no pending image can be held, or DIRTY_MAX stands (R215, R232) -/
  | full (d : Die)
  /-- MAJOR is exhausted (R233) -/
  | ended (d : Die)

/-- Raise the minor of the granule at `dga` for a store (R213, R226), with the overflow of R229 and the end of R233; a
pending granule's bit clears (R230). -/
def Die.raiseCounter (d : Die) (dga group louvre : Nat) (con : Option Nat) : Raise :=
  let n0 := nodeIdx 0 dga; let s := slotIn dga
  if d.itr.isReadOnly dga then .ended d else
  match d.itr.latest 0 n0 with
  | none => .wait d
  | some n =>
    let newDirty := !(((d.itr.cc.find? (nodeKey 0 n0)).map (·.dirty)).getD false)
    if newDirty ∧ fld (d.act R.itrCfg) 16 0 ≤ d.itr.dirty then .full d
    else if n.minor s + 1 < 127 then
      let d1 := { d with itr := { d.itr with pend := clearPend d.itr.pend n0 s } }
      .ok n.major (n.minor s + 1) (d1.setLeaf n0 (n.setMinor s (n.minor s + 1)) group louvre con)
    else if n.major = majorMax then .ended (d.majorEnd 0 n0)
    else if 64 ≤ d.itr.pend.length ∨ (d.itr.pendOf n0).isSome then .full (d.event R.itrEvent 1)
    else
      let mask := (n.minors.map Prod.fst).filter (· ≠ s)
      let n' : Node := { major := n.major + 1, minors := Tbl.set 0 (onesOf n.minors) s 1 }
      let pi : Pending := { leaf := n0, image := n, mask := mask, group := group, louvre := louvre, con := con }
      let d1 := { d with itr := { d.itr with pend := if mask = [] then d.itr.pend else d.itr.pend ++ [pi] } }
      .ok (n.major + 1) 1 ((d1.count R.itrReenc 1).setLeaf n0 n' group louvre con)

/-- Clear the pending bit of a granule; an image whose mask empties is released (R230). -/
def Die.clearPending (d : Die) (n0 s : Nat) : Die :=
  { d with itr := { d.itr with pend := clearPend d.itr.pend n0 s } }

/-! ## The verdict on a granule (R224) -/

/-- The granule that arrived. -/
def arrivedGranule (a : Arrival) (stored : Granule) : Granule := a.altered.getD stored

/-- The decoder corrected the granule, directly or by trial (R197). -/
def mended (a : Arrival) : Bool := decide (a.ecc = .corrected) || a.trial.isSome

/-- What the decoder gives (R197): of the results of a trial the single one whose tag verifies; none or several is uncorrectable. -/
def decodedBy (a : Arrival) (tagOk : Granule → Bool) (stored : Granule) : Granule × Ecc :=
  match a.trial with
  | none => (arrivedGranule a stored, a.ecc)
  | some rs =>
    match rs.filter tagOk with
    | [g] => (g, .corrected)
    | _ => (stored, .uncorrectable)

/-- The granule's tag verifies under the key (R199). -/
def tagVerifies (g : Granule) (key kidx dga major minor : Nat) : Bool :=
  decide (g.tag = tagOf key kidx dga major minor g.kind g.poison g.data)

/-- R224 from the granule's arrival on, under a known counter and the key of the slot. -/
def verdict (key kidx dga major minor want : Nat) (g : Granule) (ecc : Ecc) : GRes :=
  if minor = 0 then .data 0
  else if ecc = .uncorrectable then .fail 0x3
  else if g.unwritten then .fail 0x5
  else if g.kic ≠ kicFor want kidx then .keyMismatch
  else if !tagVerifies g key kidx dga major minor then .fail 0x4
  else if g.kind ≠ want then .fail 0x6
  else if g.poison then .poisoned
  else .data (g.data ^^^ keystream key kidx dga major minor)

/-- The granule as the memory side holds it: the newest one in the channel's write queue, else DRAM (R22). -/
def Die.heldGranule (d : Die) (dga : Nat) : Granule :=
  match (d.wq.filter fun w => decide (w.dga = dga)).getLast? with
  | some w => w.g
  | none => d.granule dga

/-- The newest store of a granule buffered before order number `n` (R22, R300); a corrected granule on its way back is no store. -/
def Die.bufferedBefore (d : Die) (dga n : Nat) : Option LaneEnt :=
  (d.lane.filter fun e => decide (e.dga = dga) && decide (e.seq < n) && e.raw.isNone).getLast?

/-- The newest buffered store of a granule (R22). -/
def Die.buffered (d : Die) (dga : Nat) : Option LaneEnt :=
  (d.lane.filter fun e => decide (e.dga = dga) && e.raw.isNone).getLast?

/-- What a read gets from a buffered store (R22): its data under the index it was stored under. -/
def LaneEnt.read (e : LaneEnt) (kidx : Nat) : GRes :=
  if e.fill then .fail 0x5
  else if e.kidx ≠ kidx then .keyMismatch
  else if e.poison then .poisoned
  else .data e.data

end Sys2Proof.Machine
end

