-- ==== Sys2Proof/Machine/Complete.lean ====
section
/-! DEFINITION. Machine/Complete.lean: contract credit, matching and shares (R58–R61, R82–R84), louvre occupancy and DevLoad
(R58, R59, R117, R123), and the end of a request: its completion with lateness, generation and epoch checks (R40, R53, R93–R95,
R131, R228, R373). -/

namespace Sys2Proof.Machine

/-! ## Contracts as the data path sees them -/

def Die.contracts (d : Die) : List Contract := d.trs.contracts.map Prod.snd

/-- Deadline of a class in transoms (R97's totals: D0 1,000 ns, D1 2,000, D2 4,000, D3 16,000). -/
def classT (cls : Nat) : Nat := match cls with | 0 => 2 | 1 => 4 | 2 => 8 | _ => 32

/-- Deadline of a line in reference cycles of the time base (R81). -/
def Txn.deadline (t : Txn) : Nat := t.stamp + 50 * classT t.cls

/-- Is a class allowed for a bay (R80)? -/
def classAllowed (cls mode : Nat) (inDom : Bool) : Bool :=
  if cls = 4 then true
  else
    let byMode := if mode = 0 then true else if mode = 2 then decide (2 ≤ cls) else decide (cls = 3)
    byMode && (!inDom || decide (2 ≤ cls))

/-- Contracts of a tenancy that match a credited line now (R83), with their shares, ascending ID. -/
def Die.matching (d : Die) (ten cls dlaBay : Nat) : List (Nat × Nat) :=
  (d.contracts.filter fun c => decide (c.ten = ten) && decide (c.st = .active) && decide (c.use.t.cls = cls) &&
    c.use.dla.contains dlaBay).map fun c => (c.id, c.use.share)

/-- Sum of the amounts a list records for a contract and channel. -/
def drawSum (ds : List Draw) (con ch : Nat) (p : Nat → Bool) : Nat :=
  ds.foldl (fun a x => if x.con = con ∧ x.ch = ch ∧ p x.transom then a + x.n else a) 0

/-- What is left of a contract's share on a channel in a transom (R84, R231). -/
def Die.shareLeft (d : Die) (con ch transom share : Nat) : Nat := share - drawSum d.trs.drawn con ch (· = transom)

/-- Draw `n` transfers on `ch` from the first matching contract whose remaining share covers them (R84); each drawn
transfer earns a quarter-slot (R231). -/
def Die.drawShare (d : Die) (matched : List (Nat × Nat)) (ch transom n : Nat) : Option (Nat × Die) :=
  match matched.find? fun m => decide (n ≤ d.shareLeft m.1 ch transom m.2) with
  | some m => some (m.1,
      { d with trs := { d.trs with
          drawn := { con := m.1, ch := ch, transom := transom, n := n } :: d.trs.drawn
          earned := { con := m.1, ch := ch, transom := d.transom, n := n } :: d.trs.earned } })
  | none => none

/-- Terms a contract counts with: its own, and those of its accepted changes (R90). -/
def Contract.uses (c : Contract) : List ConUse := c.use :: c.changes.map (·.use)

/-- ACTIVE, FROZEN or awaiting. -/
def Contract.live (c : Contract) : Bool := decide (c.st ≠ .demoted)

def maxOf (us : List ConUse) (f : ConUse → Nat) : Nat := us.foldl (fun a u => max a (f u)) 0
def loadOf (cs : List Contract) (f : Contract → ConUse → Nat) : Nat := cs.foldl (fun a c => a + maxOf c.uses (f c)) 0

/-- Quarter-slots on a channel (R87). -/
def Die.chargeQ (d : Die) (ch : Nat) (u : ConUse) : Nat := if (d.setChannels u.set).contains ch then 5 * u.share else 0

/-- LOAD_Q of TRS_CH_LOADc (R112). -/
def Die.loadQ (d : Die) (c : Nat) : Nat := loadOf (d.contracts.filter Contract.live) fun _ => d.chargeQ c

/-- Settle what re-encryption still owes out of the shares of the transom that begins (R231). -/
def Die.settleDebt (d : Die) : Die :=
  let owed := d.trs.debt
  owed.foldl (fun (d : Die) x =>
    match d.trs.contracts.find? x.con with
    | none => d
    | some c =>
      let k := min x.n (d.shareLeft x.con x.ch d.transom c.use.share)
      let paid : List Draw := if k = 0 then [] else [{ x with transom := d.transom, n := k }]
      let left : List Draw := if k = x.n then [] else [{ x with n := x.n - k }]
      { d with trs := { d.trs with drawn := paid ++ d.trs.drawn, debt := d.trs.debt ++ left } })
    { d with trs := { d.trs with debt := [] } }

/-- Credit spending at the port (R58, R60): the class of an admitted line, or 4; and the new state. `rd`: the direction. -/
def Die.spend (d : Die) (port ten : Nat) (fcx rd : Bool) (ext : Ext) : Nat × Die :=
  let c := d.credit ten
  let left := if rd then c.rd else c.wr
  let cls := if fcx then (if ext.dcode ≤ 4 then ext.dcode else d.tenClass ten) else d.tenClass ten
  let spent := if rd then { c with rd := c.rd - 1 } else { c with wr := c.wr - 1 }
  if fcx then
    if ext.cc ∧ ext.dcode ≠ 4 then
      if left = 0 then (4, d.count (R.hptCcOverspend port) 1) else (cls, d.setCredit ten spent)
    else (4, d)
  else if cls = 4 ∨ left = 0 then (4, d)
  else (cls, d.setCredit ten spent)

/-! ## Louvres (R115, R117, R123) -/

def Die.shape (d : Die) (v : Nat) : Reg := d.act (R.lvrShape v)
def Die.qmax (d : Die) (v : Nat) : Nat := fld (d.shape v) 16 8
def Die.qmin (d : Die) (v : Nat) : Nat := fld (d.shape v) 7 0
def Die.ways (d : Die) (v : Nat) : Nat := fld (d.shape v) 31 24

/-- Entries louvre `v` holds on channel `ch`. -/
def Die.occ (d : Die) (ch v : Nat) : Nat := (d.be.filter fun e => decide (e.ch = ch) && decide (e.louvre = v)).length

/-- The test of R117. -/
def Die.mayTake (d : Die) (ch v : Nat) : Bool :=
  let used := (d.be.filter fun e => decide (e.ch = ch)).length
  let reserved := (List.range 256).foldl (fun a u => a + (d.qmin u - d.occ ch u)) 0
  if d.qmax v ≤ d.occ ch v then false
  else if d.occ ch v < d.qmin v then true
  else decide (used + reserved < 256)

/-- Something under the number of a best-effort entry still has a transfer to issue on its channel (R117). -/
def Die.entryHeld (d : Die) (e : BeEntry) : Bool :=
  (d.xfers.any fun x => decide (x.own = some e.own) && decide (x.ch = e.ch)) ||
  (d.lane.any fun x => decide (x.own = some e.own) && decide (x.ch = e.ch)) ||
  (d.wops.any fun w => decide (w.own = some e.own)) ||
  d.txns.any fun t => decide (t.own = some e.own) && decide (t.op = .wrPart)

/-- Free the entries whose last transfer has issued. -/
def Die.freeEntries (d : Die) : Die := { d with be := d.be.filter d.entryHeld }

/-- Forget an operation that will not go on. -/
def Die.dropReads (d : Die) (k : WKey) : Die :=
  let xs := (d.xfers.filter fun (x : Xfer) => decide (x.wop ≠ some k) || x.txn.isSome).map fun (x : Xfer) =>
    if x.wop = some k then { x with wop := none } else x
  { d with wops := d.wops.filter (fun (w : WOp) => decide (w.key ≠ k)), xfers := xs }.freeEntries

/-- Best-effort occupancy at the louvre's limit (R123). -/
def Die.atLimit (d : Die) (v : Nat) : Bool :=
  ((List.range 16).any fun ch => decide (d.qmax v ≤ d.occ ch v)) ||
    d.txns.any fun t => decide (t.stage = .hold) && decide (t.louvre = v)

/-- Louvre an internal master's traffic is charged to (R115); `ten` the tenancy a job queue is bound to. -/
def Die.masterLouvre (d : Die) (m : Nat) (ten : Option Nat) : Nat :=
  match m, ten with
  | 9, some t => d.tenLouvre t
  | 9, none => fld (d.act R.lvrMasterMap0) 15 8
  | 8, _ => fld (d.act R.lvrMasterMap0) 7 0
  | 11, _ => fld (d.act R.lvrMasterMap0) 23 16
  | 12, _ => fld (d.act R.lvrMasterMap0) 31 24
  | 10, _ => freeCharge.louvre
  | _, _ => fld (d.act R.lvrMasterMap1) 7 0

/-- DevLoad of a tenancy (R58, R59). -/
def Die.devLoad (d : Die) (ten : Nat) : DevLoad :=
  let c := d.credit ten
  let lim := d.atLimit (d.tenLouvre ten)
  if c.rdAllot = 0 then (if lim then .severe else .light)
  else if c.rd = 0 then (if lim then .severe else .moderate)
  else if 2 * (c.rdAllot - c.rd) < c.rdAllot then .light else .optimal

/-! ## Lateness (R93–R95, R509) -/

/-- A fault interruption covers the path of a request: port, agent port, slice, HBM, lane, codec, channel (R93, R508). -/
def Die.pathHit (d : Die) (t : Txn) : Bool :=
  let c := d.chan t.ch
  let host := decide (t.master < 6)
  d.flt.intrs.any fun i =>
    (host && decide (i.unit = unitHpt t.port ∨ i.unit = unitPhy t.port ∨ i.unit = 0x10 + t.port)) ||
    decide (i.unit = unitCha (homeOf t.dla) ∨ i.unit = 0x1c + homeOf t.dla ∨ i.unit = unitHbc ∨ (unitHbm 0 ≤ i.unit ∧ i.unit ≤ unitHbm 15)) ||
    (decide (t.ch < 16) && decide (i.unit = unitCry c.lane ∨ i.unit = unitPcx c.codec ∨ i.unit = unitMch t.ch ∨
      i.unit = unitDimm t.ch 0 ∨ i.unit = unitDimm t.ch 1 ∨ i.unit = 0xc8 + t.ch / 2))

/-- A request whose path stands within an interruption has met it (R93). -/
def Die.meetFault (d : Die) (t : Txn) : Txn := if d.pathHit t then { t with faultHit := true } else t

/-- Attribution of a late line (R93, R94): 2 fault, 1 host, 0 inside. -/
def Die.lateAttr (d : Die) (t : Txn) : Nat :=
  if t.faultHit || d.pathHit t then 2 else if t.hostLate || decide (1 < t.waited) then 1 else 0

/-- An admitted line completing after its deadline (R81, R93). -/
def Die.isLate (d : Die) (t : Txn) : Bool := t.con.isSome && decide (t.deadline < d.time)

/-- Count a late line; an inside-late one sets the event and makes the DEADLINE_MISS record (R95). -/
def Die.countLate (d : Die) (t : Txn) : Die :=
  if !d.isLate t then d
  else
    let d := d.tally 0x14 1 [scPort t.port, scTen t.ten]
    match d.lateAttr t with
    | 2 => d.count R.trsLateFault 1
    | 1 => d.count R.trsLateHost 1
    | _ => ((d.count R.trsLateInside 1).event R.trsEvent 2).recordOnly unitTrs 0x20 0 0xff t.ten t.ta (t.con.getD 0) false

/-- Completion extension on an FCX port (R53). -/
def Die.cplExt (d : Die) (t : Txn) : Option CplExt :=
  if t.fcx then
    some { gen := t.gen, ttag := t.ten, late := d.isLate t, attr := if d.isLate t then d.lateAttr t else 0 }
  else none

/-! ## The directory's storage (R149–R151, R165) -/

/-- Directory state of a line. -/
def Die.dirOf (d : Die) (dla : Nat) : Dir :=
  match d.home.dir.find? (dla / 64) with
  | some e => e.d
  | none => Dir.i

/-- The Busy entry of a line. -/
def Die.busyOf (d : Die) (dla : Nat) : Option Busy := d.home.busy.find? fun b => decide (b.dla = dla / 64 * 64)

/-- Record a line's directory state; a line in I has no entry. A new entry takes the way its Busy entry has chosen (R180). -/
def Die.setDir (d : Die) (dla dom : Nat) (x : Dir) : Die :=
  let h := d.home
  if x.st = .i then { d with home := { h with dir := h.dir.erase (dla / 64) } }
  else
    let old := (h.dir.find? (dla / 64)).getD { DirEnt.none with way := ((d.busyOf dla).map (·.way)).getD 0 }
    let e : DirEnt := { old with dom := dom, d := x, onDie := true, dirty := true, lru := d.seq }
    { d with seq := d.seq + 1, home := { h with dir := h.dir.insert (dla / 64) e } }

def Die.setBusy (d : Die) (b : Busy) : Die :=
  { d with home := { d.home with busy := d.home.busy.map fun x => if x.dla = b.dla then b else x } }

def Die.clearBusy (d : Die) (dla : Nat) : Die :=
  { d with home := { d.home with busy := d.home.busy.filter fun b => decide (b.dla ≠ dla / 64 * 64) } }

/-- Busy when a transaction's completion leaves the home (R165, R178): a CompAck will be due, or Busy clears into the next
state; a request that ends while its directory set is read leaves the line as it is. -/
def Die.endBusy (d : Die) (t : Txn) : Die :=
  match d.home.busy.find? fun b => decide (b.txn = some t.id) with
  | none => d
  | some b =>
    let acked := match t.op with
      | .rdShared | .rdOwn | .rdOwnNoData => d.domFcx b.dom
      | _ => false
    if b.fetch then d.clearBusy b.dla
    else if acked then d.setBusy { b with txn := none, snoops := [], kept := [], ack := some (t.port, none, false) }
    else (d.setDir b.dla b.dom b.next).clearBusy b.dla

/-! ## Completion -/

/-- The end of a read: data, or poison in its place. -/
def Done.isRead : Done → Bool
  | .data _ _ | .poison => true
  | _ => false

/-- A completed read is counted (R529); a best-effort one's latency adds to its louvre's transom sums (R131). -/
def Die.measure (d : Die) (t : Txn) (r : Done) : Die :=
  if !r.isRead then d
  else
    let ns := (d.time - t.stamp) * 10
    let is := [scPort t.port, scLouvre t.louvre, scTen t.ten, scMaster t.master]
    let d1 := (d.tally 0x15 ns is).tally 0x16 1 is
    if t.con.isSome then d1
    else
      let v := d1.louvre t.louvre
      d1.setLouvre t.louvre { v with sum := v.sum + ns, n := v.n + 1 }

/-! ## Leaving the port (R36, R53, R55, R59, R130) -/

/-- A louvre's effective priority for a request or transfer of this age (R128, R133). -/
def Die.prioOf (d : Die) (v since : Nat) : Nat :=
  if since + fld (d.act R.lvrCfg) 7 0 < d.transom then 7 else (d.louvre v).prio

/-- Messages a port sends in the reference cycle `c` of a transom at a line rate (R36). DESIGN CHOICE: the transom's lines are spread
evenly over its 50 reference cycles, and each message counts as one (log entry 122). -/
def linesIn (rate c : Nat) : Nat := ceilDiv (rate * (c + 1)) 50 - ceilDiv (rate * c) 50

/-- The port may send one more message in this reference cycle. -/
def Die.egressRoom (d : Die) (p : Nat) : Bool :=
  let e := d.egress p
  decide ((if e.sentAt = d.time then e.sent else 0) < linesIn (d.port p).rate (d.time % 50))

/-- Contract completions leave earliest deadline first (R130). -/
def Egr.contract : Egr → Option (Nat × Nat)
  | .cpl t _ => if t.con.isSome then some (t.deadline, t.id) else none
  | .grant .. => none

/-- Best-effort completions leave highest effective louvre priority first, oldest first within one (R130). -/
def Egr.bestEffort (d : Die) : Egr → Option (Nat × Nat)
  | .cpl t _ => if t.con.isSome then none else some (7 - d.prioOf t.louvre t.since, t.id)
  | .grant .. => none

/-- The waiting message with the lowest key. -/
def firstBy (key : Egr → Option (Nat × Nat)) (l : List Egr) : Option Egr :=
  (l.foldl (fun (a : Option (Egr × Nat × Nat)) x => match key x, a with
    | none, _ => a
    | some k, none => some (x, k)
    | some k, some y => if k.1 < y.2.1 ∨ (k.1 = y.2.1 ∧ k.2 < y.2.2) then some (x, k) else a) none).map Prod.fst

def Egr.isGrant : Egr → Bool
  | .grant .. => true
  | .cpl .. => false

/-- The CompAck of a completion is due once that has left (R186). -/
def Die.ackDue (d : Die) (t : Txn) : Die :=
  match d.busyOf t.dla with
  | some b => match b.ack with
    | some (p, none, l) => if p = t.port then d.setBusy { b with ack := some (p, some d.time, l) } else d
    | _ => d
  | none => d

/-- Send a completion: lateness and latency are those of this moment (R81, R95, R131), DevLoad too (R58). -/
def Die.sendCpl (d : Die) (t : Txn) (r : Done) : Die :=
  let ext := d.cplExt t
  let d1 := ((d.countLate t).measure t r).ackDue t
  let load := d1.devLoad t.ten
  match r with
  | .data l g => d1.emit (.drs t.port t.ld t.tag (some l) g ext load)
  | .poison => d1.emit (.drs t.port t.ld t.tag none t.grant ext load)
  | .cmp g => d1.emit (.ndr t.port t.ld t.tag g ext load)
  | .poisonWr => (d1.emit (.ndr t.port t.ld t.tag .none ext load)).hostEvent t.port (.media t.ta)
  | .denied | .gone => d1

/-- The tag of the carrier Cmp of R55. -/
def carrierTag : Nat := 0xffff

/-- Send a waiting grant in the companion slot of the S2M header with this tag. -/
def Die.sendGrant (d : Die) (p tag : Nat) : Egr → Die
  | .grant ten rd wr transom gen => d.emit (.grant p ten rd wr transom gen tag)
  | .cpl .. => d

/-- The port sends one message (R130): a contract completion, else a grant, else a best-effort completion. A grant rides with the
header that leaves; with none waiting it has a carrier Cmp (R55). -/
def Die.sendOne (d : Die) (p : Nat) : Die :=
  let e := d.egress p
  let g := e.waiting.find? Egr.isGrant
  let c := firstBy Egr.contract e.waiting <|> firstBy (Egr.bestEffort d) e.waiting
  let sent := (if e.sentAt = d.time then e.sent else 0) + 1
  let left := e.waiting.filter fun x => decide (some x ≠ c) && decide (some x ≠ g)
  let d1 := d.setEgress p { waiting := left, sentAt := d.time, sent := sent }
  match g, c with
  | some x, some (.cpl t r) => (d1.sendGrant p t.tag x).sendCpl t r
  | some x, _ => (d1.sendGrant p carrierTag x).emit
      (.ndr p 0 carrierTag .none (some { gen := 0, ttag := 0, late := false, attr := 0 }) .light)
  | none, some (.cpl t r) => d1.sendCpl t r
  | none, _ => d1

/-- The port sends while it may and something waits. -/
def Die.drainPort : Nat → Die → Nat → Die
  | 0, d, _ => d
  | n + 1, d, p => if (d.egress p).waiting = [] ∨ !d.egressRoom p then d else Die.drainPort n (d.sendOne p) p

/-- A message joins those waiting at its port, which sends what it may. -/
def Die.leave (d : Die) (p : Nat) (m : Egr) : Die :=
  let e := d.egress p
  let d1 := d.setEgress p { e with waiting := e.waiting ++ [m] }
  Die.drainPort (e.waiting.length + 1) d1 p

/-- A new reference cycle at the ports. -/
def Die.portsSend (d : Die) : Die :=
  (List.range 6).foldl (fun (d : Die) p => Die.drainPort (d.egress p).waiting.length d p) d

/-- A line of a job came back, or its write ended (R315). -/
def Die.jobLine (d : Die) (q dla : Nat) (r : Done) : Die :=
  match d.jobs.find? q with
  | none => d
  | some x =>
    match x.job with
    | none => d
    | some j =>
      let j1 : Job := match r with
        | .data l _ => { j with got := j.got.insert (dla / 64) (some l) }
        | .poison => { j with got := j.got.insert (dla / 64) none }
        | .denied => { j with got := j.got.insert (dla / 64) none, wfail := true, barred := true }
        | .cmp _ => j
        | _ => { j with wfail := true }
      { d with jobs := d.jobs.insert q { x with job := some j1 } }

/-- A line of the entry at a command ring's HEAD came (R397): ring number `k`. -/
def Die.ringLine (d : Die) (k dla : Nat) (r : Done) : Die :=
  match d.mgt.rings.find? k with
  | none => d
  | some x =>
    let l : Option Line := match r with
      | .data l _ => some l
      | _ => none
    { d with mgt := { d.mgt with rings := d.mgt.rings.insert k { x with got := x.got.insert (dla / 64 % 8) l } } }

/-- A line of the dumper's record is written or not (R538, R539): tag 1, its header's 0. -/
def Die.dumpLine (d : Die) (tag : Nat) (ok : Bool) : Die :=
  match d.pmu.dump with
  | some r => if ok ∨ tag ≠ 1 then d else { d with pmu := { d.pmu with dump := some { r with failed := true } } }
  | none => d

/-- Complete a request and forget it: epoch and generation checks at its port first (R40, R373), then its message waits to leave (R130).
In doorstop a read completes poisoned (R517). -/
def Die.complete (d : Die) (t : Txn) (r : Done) : Die :=
  let d := ((d.dropTxn t.id).endBusy t).freeEntries
  let r := match r with
    | .data l g => if d.flt.doorstop then Done.poison else .data l g
    | x => x
  if t.master = 9 then (d.measure t r).jobLine t.tag t.dla r
  else if t.master = 11 then d.dumpLine t.tag (match r with
    | .cmp _ => true
    | _ => false)
  else if t.master = 12 then
    let d := d.measure t r
    match r with
    | .data l _ => d.emit (.dbgData (some l) St.success)
    | .cmp _ => d.emit (.dbgData (some 0) St.success)
    | .denied => d.emit (.dbgData none St.notPermitted)
    | _ => d.emit (.dbgData none St.poisonRead)
  else if t.master = 13 ∧ t.op = .rd then d.ringLine t.tag t.dla r
  else if 6 ≤ t.master ∨ r = .gone then d
  else if (d.port t.port).epoch ≠ t.epoch then d.count (R.hptEpochDiscard t.port) 1
  else if (d.ten t.ten).gen ≠ t.gen then (d.count R.tenStaleDiscard 1).event R.tenEvent 1
  else d.leave t.port (.cpl t r)

/-- A read or a write? -/
def Op.isWrite : Op → Bool
  | .wr | .wrPart => true
  | _ => false

/-- The outcome of a request whose line cannot be served: poisoned read, or poisoned write completion (R240, R310, R511). -/
def Txn.failed (t : Txn) : Done := if t.op.isWrite then .poisonWr else .poison

/-- The outcome of a request that a region register denies (R417). -/
def Txn.barred (t : Txn) : Done := if t.master < 6 then t.failed else .denied

end Sys2Proof.Machine
end

