-- ==== Sys2Proof/Machine/Panes.lean ====
section
/-! DEFINITION. Machine/Panes.lean: the pane stream and its decoder (R285–R289), page-map entries (R281–R282), placement
(R299), runs and the allocator (R280, R301, R305, R306), and the page-map cache (R290). -/

namespace Sys2Proof.Machine

/-! ## The pane stream -/

/-- Bit `b` of a stream (R286). -/
def streamBit (bs : List Nat) (b : Nat) : Bool := (bs.getD (b / 8) 0).testBit (b % 8)

/-- A field of `n` bits from bit `b` on, least significant bit first (R286). -/
def streamField (bs : List Nat) (b n : Nat) : Nat :=
  (List.range n).foldl (fun a i => a + b2n (streamBit bs (b + i)) * 2 ^ i) 0

/-- Append `n` bytes copied from `back` bytes back, one at a time (R287); the output is held last byte first. -/
def copyBack : Nat → Nat → List Nat → List Nat
  | 0, _, out => out
  | n + 1, back, out => copyBack n back (out.getD (back - 1) 0 :: out)

/-- Decode tokens from bit `b` on (R287, R288): the 512 output bytes, or `none` for a decode error. The output is held last
byte first; the first argument bounds the tokens. -/
def paneTokens (bs : List Nat) : Nat → Nat → List Nat → Option (List Nat)
  | 0, _, _ => none
  | n + 1, b, out =>
    let limit := bs.length * 8
    if out.length = 512 then
      if (List.range (limit - b)).any fun i => streamBit bs (b + i) then none else some out.reverse
    else if limit < b + 9 then none
    else if !streamBit bs b then paneTokens bs n (b + 9) (streamField bs (b + 1) 8 :: out)
    else if !streamBit bs (b + 1) then
      let l := streamField bs (b + 2) 4 + 3; let k := streamField bs (b + 6) 9 + 1
      if limit < b + 15 ∨ out.length < k ∨ 512 < out.length + l then none
      else paneTokens bs n (b + 15) (copyBack l k out)
    else if !streamBit bs (b + 2) then
      let l := 8 * (streamField bs (b + 3) 6 + 1)
      if 512 < out.length + l then none else paneTokens bs n (b + 9) (List.replicate l 0 ++ out)
    else if !streamBit bs (b + 3) then
      let l := streamField bs (b + 4) 7 + 19; let k := streamField bs (b + 11) 9 + 1
      if limit < b + 20 ∨ out.length < k ∨ 512 < out.length + l then none
      else paneTokens bs n (b + 20) (copyBack l k out)
    else none

/-- Split 512 bytes into 8 lines. -/
def toLines (bs : List Nat) : List Line := (List.range 8).map fun i => lineOf ((bs.drop (64 * i)).take 64)

/-- Decode a pane from its stored granules (R285, R288): 8 lines. -/
def decodePane (len : Nat) (gs : List Line) : Option (List Line) :=
  if len = 0 then some (List.replicate 8 0)
  else if len = 8 then some gs
  else (paneTokens (gs.flatMap lineBytes) 514 0 []).map toLines

/-- Encode a pane (R289): LEN and the granules, and whether the encoding failed its check. -/
def encodePane (ls : List Line) : Nat × List Line × Bool :=
  if ls.all (· == 0) then (0, [], false)
  else match Config.paneEncode ls with
    | some gs =>
      if gs.length = 0 ∨ 7 < gs.length then (8, ls, false)
      else if decodePane gs.length gs = some ls then (gs.length, gs, false) else (8, ls, true)
    | none => (8, ls, false)

/-! ## Entries -/

/-- DLA bay of a mapped page. -/
def pageBay (page : Nat) : Nat := 8192 + page / 2 ^ 18

def PgEnt.len (e : PgEnt) (j : Nat) : Nat := (e.panes.getD j (0, 0)).1
def PgEnt.start (e : PgEnt) (j : Nat) : Nat := (e.panes.getD j (0, 0)).2

/-- Slots (from the run's first) a pane occupies. -/
def PgEnt.slots (e : PgEnt) (j : Nat) : List Nat := range' (e.start j) (e.len j)

/-- The rules of R282; an entry that breaks one is LOST. -/
def PgEnt.ok (e : PgEnt) : Bool :=
  match e.st with
  | .unmapped => e == PgEnt.unmapped
  | .lost => true
  | .plain => decide (e.run = 8) && decide (e.base % 32 + 7 ≤ 31) && e.panes.all (· == (0, 0))
  | .packed =>
    decide (1 ≤ e.run ∧ e.run ≤ 8) && decide (e.base % 32 + e.run - 1 ≤ 31) &&
    (List.range 8).all (fun j => decide (e.len j ≤ 8) &&
      (if e.len j = 0 then decide (e.start j = 0)
       else decide (e.start j % 8 + e.len j ≤ 8) && decide (e.start j + e.len j ≤ 8 * e.run))) &&
    decide ((List.range 8).flatMap e.slots).Nodup

/-- The entry of a page as the device treats it: LOST when it breaks R282. -/
def Die.pgEntry (d : Die) (page : Nat) : PgEnt :=
  let e := d.pgEnt page
  if e.ok then e else { PgEnt.unmapped with st := .lost }

/-- DGA of granule slot `s` of a page's run (R281, R282). -/
def PgEnt.dga (e : PgEnt) (s : Nat) : Nat := e.base * 512 + 64 * s

/-- DGAs of pane `j`'s granules. -/
def PgEnt.paneDgas (e : PgEnt) (j : Nat) : List Nat := (e.slots j).map e.dga

/-! ## Placement (R299) -/

/-- The lowest slab, then lowest slot, among `slabs` slabs with `n` free slots in one slab, given the slots in use. -/
def findSlot (used : List Nat) (slabs n : Nat) : Option Nat :=
  (List.range (8 * slabs)).find? fun s =>
    decide (s % 8 + n ≤ 8) && (range' s n).all fun x => !used.contains x

/-- First fit of pane lengths in pane order over 8 slabs: (LEN, START) of each (R299). -/
def firstFit (lens : List Nat) : List (Nat × Nat) :=
  (lens.foldl (fun (a : List (Nat × Nat) × List Nat) n =>
    if n = 0 then (a.1 ++ [(0, 0)], a.2)
    else match findSlot a.2 8 n with
      | some s => (a.1 ++ [(n, s)], a.2 ++ range' s n)
      | none => (a.1 ++ [(n, 0)], a.2)) ([], [])).1

/-- Slabs a placement needs: k of R299. -/
def slabsNeeded (ps : List (Nat × Nat)) : Nat := ps.foldl (fun a p => if p.1 = 0 then a else max a (p.2 / 8 + 1)) 0

/-! ## Runs (R280, R301, R305) -/

/-- Group number of a slab (DGA[42:9]) in the store bay `s` (R280). -/
def groupOf (s slab : Nat) : Nat := s * 65536 + slab % 2 ^ 21 / 32

/-- SLABS of a group: bit i, slab i in use. -/
def Die.slabs (d : Die) (g : Nat) : Nat := Tbl.get 0 d.pmap.slabs g

/-- The lowest start of `r` consecutive free slabs in a SLABS mask. -/
def freeRun (m r : Nat) : Option Nat :=
  (List.range (33 - r)).find? fun i => (List.range r).all fun j => !m.testBit (i + j)

/-- A fully free aligned octet (R301). -/
def freeOctet (m : Nat) : Bool := (List.range 4).any fun o => decide (m / 2 ^ (8 * o) % 256 = 0)

/-- Groups of a store bay that a slice owns, ascending: index within the bay ≡ slice modulo 8 (R280). -/
def Die.openList (d : Die) (s slice : Nat) : List Nat :=
  match d.pmap.openL.find? (s * 8 + slice) with
  | some l => l
  | none => (List.range 8192).map fun i => i * 8 + slice

/-- Store index of a physical bay that is a store bay. -/
def Die.storeOf (d : Die) (bay : Nat) : Option Nat :=
  (List.find? (fun (e : Nat × Store) => decide (e.2.bay = bay)) d.pmap.stores).map Prod.fst

/-- Free slabs of a store bay (PCX_STORE_FREE). -/
def Die.freeSlabs (d : Die) (s : Nat) : Nat :=
  2097152 - (d.pmap.slabs.filter fun e => decide (e.1 / 65536 = s)).foldl
    (fun a e => a + ((List.range 32).filter fun i => e.2.testBit i).length) 0

/-- Every slab of a store bay is free, but those of groups whose line was lost, which a release returns (R306, R310). -/
def Die.storeEmpty (d : Die) (s : Nat) : Bool :=
  d.pmap.slabs.all fun e => decide (e.1 / 65536 ≠ s) || d.pmap.gone.contains e.1

/-- Allocate `r` slabs in store bay `s` by the owner slice `h` (R301): the first slab's DGA[42:9]. -/
def Die.allocIn (d : Die) (s h r : Nat) : Option (Nat × Die) :=
  match d.pmap.stores.find? s with
  | none => none
  | some st =>
    let key := s * 8 + h
    -- the head of the open list becomes the current group: one HBM access
    let pop (d : Die) : Option (Nat × Die) := match d.openList s h with
      | [] => none
      | n :: rest =>
        let g := s * 65536 + n
        let r := d.hbm 2 0 (pageMapAddr (4 * g)) 14 false (.groupRead g)
        if r.1 then
          some (n, { r.2 with pmap := { r.2.pmap with current := d.pmap.current.insert key n, openL := d.pmap.openL.insert key rest } })
        else none
    let take (d : Die) (gi i : Nat) : Nat × Die :=
      let g := s * 65536 + gi
      let m := (List.range r).foldl (fun m j => m ||| 2 ^ (i + j)) (d.slabs g)
      (st.bay * 2 ^ 21 + gi * 32 + i, { d with pmap := { d.pmap with slabs := d.pmap.slabs.set 0 g m } })
    let fresh : Option (Nat × Die) := (pop d).bind fun x =>
      (freeRun (x.2.slabs (s * 65536 + x.1)) r).map fun i => take x.2 x.1 i
    match d.pmap.current.find? key with
    | some gi =>
      match freeRun (d.slabs (s * 65536 + gi)) r with
      | some i => some (take d gi i)
      | none => fresh
    | none => fresh

/-- Allocate `r` slabs for mapped bay `b` from its primary, then its secondary store bay (R301). -/
def Die.alloc (d : Die) (b h r : Nat) : Option (Nat × Die) :=
  match d.allocIn (d.bay b).primary h r with
  | some x => some x
  | none => d.allocIn (d.bay b).secondary h r

/-- STORE_LOW of a store bay (R306): event and notice once as the bay crosses LOW_WM. `notice` is sent by the caller. -/
def Die.storeLow (d : Die) (s : Nat) : Bool :=
  decide (d.freeSlabs s * 100 < fld (d.act R.pcxMapCfg) 15 8 * 2097152)

/-- Free a run (R301): clear its SLABS bits; a group that gains a free octet, neither listed nor current, goes to the head
of its list. A group whose line was lost takes nothing back (R310). -/
def Die.freeRunOf (d : Die) (base r : Nat) : Die :=
  match d.storeOf (base / 2 ^ 21) with
  | none => d
  | some s =>
    let g := groupOf s base; let gi := g % 65536; let h := g % 8; let key := s * 8 + h
    if d.pmap.gone.contains g then d else
    let m := (List.range r).foldl (fun m j => if m.testBit (base % 32 + j) then m - 2 ^ (base % 32 + j) else m) (d.slabs g)
    let d1 := { d with pmap := { d.pmap with slabs := d.pmap.slabs.set 0 g m } }
    if freeOctet m ∧ d.pmap.current.find? key ≠ some gi ∧ !(d.openList s h).contains gi then
      { d1 with pmap := { d1.pmap with openL := d1.pmap.openL.insert key (gi :: d.openList s h) } }
    else d1

/-- Add to (or take from) a mapped bay's USED (R305). -/
def Die.addUsed (d : Die) (b plus minus : Nat) : Die :=
  let r := d.bay b
  d.setBay b { r with used := r.used + plus - minus }

/-! ## The page-map cache (R290) -/

/-- Set of a page in its slice's page-map cache: the spec gives sets and ways, not the index; pages spread by number. -/
def pmSet (page : Nat) : Nat := page / 8 % 2048

def Die.pmCached (d : Die) (slice page : Nat) : Bool := d.pmap.cached.contains (slice, page)

/-- Cache a page's entry in a slice, the least recently used of its 16-way set leaving. -/
def Die.pmInsert (d : Die) (slice page : Nat) : Die :=
  let l := d.pmap.cached.filter (· ≠ (slice, page))
  let same := l.filter fun x => decide (x.1 = slice) && decide (pmSet x.2 = pmSet page)
  let l' := if 16 ≤ same.length then l.erase (same.headD (0, 0)) else l
  { d with pmap := { d.pmap with cached := l' ++ [(slice, page)] } }

def Die.pmDrop (d : Die) (slice page : Nat) : Die :=
  { d with pmap := { d.pmap with cached := d.pmap.cached.filter (· ≠ (slice, page)) } }

end Sys2Proof.Machine
end

