-- ==== Sys2Proof/Machine/Faults.lean ====
section
/-! DEFINITION. Machine/Faults.lean: what a fault record sets going (R499, R502–R516): targeted tests, reactions, channel
exclusion, substitution, slice and port resets, a domain going down (R188), link-down (R39–R41). -/

namespace Sys2Proof.Machine

/-! ## Requests taken out of the path -/

/-- Forget the transfers of a request; its queue entry frees with it. A transfer that serves an operation too goes on for that. -/
def Die.dropXfers (d : Die) (id : Nat) : Die :=
  { d with xfers := (d.xfers.filter fun x => decide (x.txn ≠ some id) || x.wop.isSome).map fun x =>
      if x.txn = some id then { x with txn := none } else x }

/-- Complete every request that satisfies `p` with its failed outcome. -/
def Die.failAll (d : Die) (p : Txn → Bool) : Die :=
  (d.txns.filter p).foldl (fun d t => (d.dropXfers t.id).complete t t.failed) d

/-- The domain of a DLA bay, where it belongs to one. -/
def Die.domOfBay (d : Die) (b : Nat) : Option Nat :=
  match d.entriesOfBay b with
  | e :: _ => if (d.bt e).inDom then some (d.bt e).dom else none
  | [] => none

/-- DLA bays of a domain, ascending. -/
def Die.domBays (d : Die) (n : Nat) : List Nat :=
  (((d.usedEntries.filter fun e => (d.bt e).inDom && decide ((d.bt e).dom = n)).map fun e => (d.bt e).dlaBay) ++
    (Tbl.get [] d.home.kept n).map fun (b : Bt) => b.dlaBay).mergeSort.eraseDups

/-! ## A domain going down (R188–R190) -/

/-- The domain goes down with a cause and the port of the cause (7: none). A line that an earlier transaction held is host-attributed
(R190). DESIGN CHOICE: R188 names CHAn_EVENT without a slice; the model sets slice 0's, which holds the domain table (log entry 123). -/
def Die.domainDown (d : Die) (n cause port : Nat) : Die :=
  if !d.domUp n then d
  else
    let mine (t : Txn) : Bool := decide (d.domOfBay (bayOf t.dla) = some n)
    let d0 := if cause = 5 then
        (d.txns.filter mine).foldl (fun d t => d.setTxn { t with faultHit := true }) d
      else d
    let d0 := (d0.txns.filter fun t => mine t && decide (t.waited ≠ 0)).foldl (fun d t => d.setTxn { t with hostLate := true }) d0
    let d1 := (d0.setDomStat n (2, cause, port))
    let d2 := d1.failAll mine
    let d3 := { d2 with home := { d2.home with busy := d2.home.busy.filter (fun b => decide (b.dom ≠ n)),
                                               recalls := d2.home.recalls.filter fun k => decide (d2.domOfBay (bayOf (k * 64)) ≠ some n) } }
    let d4 := (d3.domPorts n).foldl (fun d p => d.hostEvent p (.domainDown n cause)) d3
    (d4.event (R.chaEvent 0) 5).recordOnly (unitCha 0) 0x12 1 0xff 0xffff 0 (n + cause * 256 + port * 2048) false

/-- Every UP domain goes down with cause DIR_ERROR (R185, R508). -/
def Die.allDomainsDown (d : Die) : Die := (List.range 64).foldl (fun d n => d.domainDown n 5 7) d

/-! ## Link-down (R39–R41, R148) -/

/-- The link of port `p` goes down: configuration reset, FCX state cleared, epoch advanced, unordered requests dropped, completions that
still wait to leave discarded (R40), its members' domains down. The link trains again while PERST# is deasserted, the port is enabled and start-up has reached step 13 (R42). -/
def Die.linkDown (d : Die) (p : Nat) : Die :=
  let x := d.port p
  let cfg := d.act (R.hptPortCfg p)
  let y : Port :=
    { x with linkUp := false, training := !x.perst && bit cfg 0 && decide (13 ≤ d.boot.step), cfg := cfg, speed := 0, x8 := false,
             flit := 0, retrains := 0, memEn := 0, mode := none, fcxReq := false, granted := false, refuse := 0, epoch := x.epoch + 1,
             ideMem := 0, ideIo := false, ideKeys := [], report := none, memActive := false, sessions := [] }
  let d1 := d.setPort p y
  let d2 := if x.linkUp then d1.event (R.hptEvent p) 1 else d1
  let d3 := (d2.txns.filter fun t => decide (t.port = p) && decide (t.master = p) && !t.ordered).foldl
    (fun d t => d.dropTxn t.id) d2
  let late := ((d3.egress p).waiting.filter fun m => !m.isGrant).length
  let d3 := (d3.setEgress p Egress.init).count (R.hptEpochDiscard p) late
  let d4 := { d3 with home := { d3.home with conflicts := d3.home.conflicts.filter fun (x : Nat × Nat) => decide (x.1 ≠ p) } }
  (List.range 64).foldl (fun d n => if d.domMember n p && d.domValid n then d.domainDown n 3 p else d) d4

/-! ## Interruptions and shadows (R509, R516) -/

/-- Every request whose path stands within an interruption has met it (R93). -/
def Die.meetAll (d : Die) : Die := (d.txns.filter d.pathHit).foldl (fun (x : Die) t => x.setTxn (d.meetFault t)) d

/-- The channel a lane or codec serves now. -/
def Die.chanOfUnit (d : Die) (u : Nat) : Option Nat :=
  (List.range 16).find? fun c => decide (unitCry (d.chan c).lane = u ∨ unitPcx (d.chan c).codec = u)

/-- Open a fault interruption and a reaction shadow over a unit; requests on its path are within the interruption. -/
def Die.interrupt (d : Die) (u : Nat) : Die :=
  let is : List Intr := if d.flt.intrs.any (fun (i : Intr) => decide (i.unit = u) && i.reread.isNone) then d.flt.intrs
    else d.flt.intrs ++ [{ unit := u, start := d.time, found := d.time, reread := none }]
  let ss : List Shadow := (d.flt.shadows.filter (fun (s : Shadow) => decide (s.unit ≠ u))) ++
    [{ unit := u, ends := none, chan := d.chanOfUnit u }]
  { d with flt := { d.flt with intrs := is, shadows := ss } }.meetAll

/-- A re-read holds its line's channel path, by the DIMM of each granule, in a fault interruption (R239). -/
def Die.openReread (d : Die) (r : ReRead) (gs : List Nat) : Die :=
  let is : List Intr := ((gs.map d.dimmUnit).eraseDups).map fun u => { unit := u, start := d.time, found := d.time, reread := some r }
  { d with flt := { d.flt with intrs := d.flt.intrs ++ is } }.meetAll

def Die.closeReread (d : Die) (r : ReRead) : Die :=
  { d with flt := { d.flt with intrs := d.flt.intrs.filter fun (i : Intr) => decide (i.reread ≠ some r) } }

/-! ## Tests (R505) -/

/-- Engine tests exist for these units (R505). -/
def hasEngineTest (u : Nat) : Bool :=
  decide ((0x78 ≤ u ∧ u < 0x8c) ∨ (0x90 ≤ u ∧ u < 0xa2) ∨ (0xa8 ≤ u ∧ u < 0xac) ∨ (0x28 ≤ u ∧ u < 0x30) ∨ u = 0xa4)

/-- Running tests of a kind; row tests count per channel. -/
def Die.testsRunning (d : Die) (kind ch : Nat) : Nat :=
  (d.flt.tests.filter fun t => t.running && decide (t.kind = kind) && (decide (kind ≠ 2) || decide ((t.unit - 0x40) / 2 = ch))).length

/-- Room to run one more test of a kind (R505): 16 line, 1 row per channel, 2 engine; none in a disabled self-test unit. -/
def Die.testRoom (d : Die) (kind ch : Nat) : Bool :=
  !d.flt.stuDisabled && match kind with
  | 1 => decide (d.testsRunning 1 0 < 16)
  | 2 => decide (d.testsRunning 2 ch < 1)
  | _ => decide (d.testsRunning 3 0 < 2)

/-- What an engine test is for (`Test.row`): 0 the unit; 1 a slice after its reset; 3 a unit whose reaction came first; 4 + n the
on-die directory location n, slice × 2^16 + set. -/
def testOfReset : Nat := 1
def testAfter : Nat := 3
def testOfLoc (n : Nat) : Nat := 4 + n

/-- The self-test unit is disabled until the next start (R505): no test runs. -/
def Die.disableStu (d : Die) : Die :=
  { d with flt := { d.flt with stuDisabled := true, tests := d.flt.tests.map fun (x : Test) => { x with running := false } } }

/-- Queue a targeted test, running at once where there is room. -/
def Die.addTest (d : Die) (kind unit row seq : Nat) (forced : Bool) : Die :=
  let run := d.testRoom kind ((unit - 0x40) / 2)
  { d with flt := { d.flt with tests := d.flt.tests ++
      [{ kind := kind, unit := unit, row := row, seq := seq, forced := forced, running := run, queued := d.time }] } }

/-- Start waiting tests there is room for, oldest first. -/
def Die.startTests (d : Die) : Die :=
  d.flt.tests.foldl (fun d t =>
    if !t.running && d.testRoom t.kind ((t.unit - 0x40) / 2) then
      { d with flt := { d.flt with tests := d.flt.tests.map fun x => if x = t then { x with running := true } else x } }
    else d) d

/-- A test ends with a result (R505, R523): 1 passed, 2 lasting, 3 skipped. -/
def Die.stuEnd (d : Die) (kind unit seq result : Nat) : Die :=
  let d1 := { d with flt := { d.flt with stuLast := (kind, result, unit, seq) } }
  let d2 := if result = 2 then d1.count R.stuLasting 1 else d1
  d2.event R.stuEvent (result - 1)

/-- Flag the record that started a test as TESTED, and LASTING where the test found so (R498): in its latch and history queue. -/
def Die.markTested (d : Die) (u seq : Nat) (lasting : Bool) : Die :=
  let mark (r : Rec) : Rec := if r.seq % 65536 = seq ∧ r.unit = u then { r with tested := true, lasting := lasting } else r
  let lat := match d.flt.lat.find? u with
    | some r => d.flt.lat.insert u (mark r)
    | none => d.flt.lat
  let hq := match historyQueue u with
    | some q => match d.flt.hq.find? q with
      | some x => d.flt.hq.insert q { x with recs := x.recs.map mark }
      | none => d.flt.hq
    | none => d.flt.hq
  { d with flt := { d.flt with lat := lat, hq := hq } }

/-! ## Channel exclusion (R511) -/

/-- Tenancies with a bay in an interleave set. -/
def Die.tensInSet (d : Die) (set : Nat) : List Nat :=
  d.tenList.filter fun t => (d.segEntries t).any fun e =>
    decide ((d.bt e).st ≠ .empty) && decide (d.setOfDlaBay (d.bt e).dlaBay = some set)

/-- The interleave set of a channel. -/
def Die.setOfChan (d : Die) (c : Nat) : Option Nat := (List.range 16).find? fun n => (d.setChannels n).contains c

/-- The counter of a discarded store has risen, so that its granule fails verification afterwards (R511). -/
def Die.loseStore (d : Die) (e : LaneEnt) : Die :=
  match (d.learn e.dga (Charge.own e.louvre)).raiseCounter e.dga e.group e.louvre e.con with
  | .ok _ _ d' => d'
  | .wait d' => d'
  | .full d' => d'
  | .ended d' => d'

/-- The queued write-backs of unpinned blocks on a channel are gone with its queues: their lines wait (R594). -/
def Die.unqueueLeaves (d : Die) (c : Nat) : Die :=
  let onChan (x : Nat × BlkLine) : Bool := match (d.itr.block (x.1 / 2 ^ 18)).bay with
    | some bay => decide (d.chanOf (d.leafAddr (leafOfLine bay x.1 * 4096)) = c)
    | none => false
  let out (x : Nat × BlkLine) : Nat × BlkLine := if x.2.queued && onChan x then (x.1, { x.2 with queued := false }) else x
  { d with itr := { d.itr with lines := d.itr.lines.map out } }

/-- Exclude a channel while the device runs (R511); its controller is the unit excluded, with its shadow (R516). -/
def Die.excludeChan (d : Die) (c : Nat) : Die :=
  if (d.chan c).excluded then d
  else
    let shadow : Shadow := { unit := unitMch c, ends := some (d.time + 100) }
    let ss := if d.flt.shadows.any fun (s : Shadow) => decide (s.unit = unitMch c) then d.flt.shadows else d.flt.shadows ++ [shadow]
    let d1 := { d with flt := { d.flt with shadows := ss } }.setChan c { (d.chan c) with excluded := true }
    let lost := d1.lane.filter fun e => decide (e.ch = c)
    let d2 := { d1 with lane := d1.lane.filter (fun e => decide (e.ch ≠ c)) }
    let d3 := lost.foldl Die.loseStore d2
    let d4 := { d3 with wq := d3.wq.filter (fun w => decide (d3.chanOf w.dga ≠ c)) }
    let d5 := d4.failAll fun t => decide (t.ch = c) && (decide (t.stage = .mem) || decide (t.stage = .counter) ||
      decide (t.stage = .test) || decide (t.stage = .hold) || decide (t.stage = .laneWait))
    let d6 := { d5 with xfers := d5.xfers.filter (fun x => decide (x.ch ≠ c)), be := d5.be.filter (fun e => decide (e.ch ≠ c)) }
    let d7 := ((d6.unqueueLeaves c).event (R.mchEvent c) 3).recordOnly (unitMch c) 0x44 1 0xff 0xffff 0 0 false
    match d7.setOfChan c with
    | some n => (d7.tensInSet n).foldl (fun d t => d.hostEvent (d.tenPort t) (.module 0x44 c)) d7
    | none => d7

/-! ## Reactions (R508, R513) -/

/-- A free spare of a unit's group (R16): CRY groups of 4 channels, PCX groups of 8. -/
def Die.spareFor (d : Die) (u : Nat) : Option Nat :=
  if 0x78 ≤ u ∧ u < 0x8c then
    let g (n : Nat) : Nat := if n < 16 then n / 4 else n - 16
    d.flt.spares.find? fun s => decide (0x78 ≤ s ∧ s < 0x8c) && decide (g (s - 0x78) = g (u - 0x78)) && decide (s ≠ u)
  else if 0x90 ≤ u ∧ u < 0xa2 then
    let g (n : Nat) : Nat := if n < 16 then n / 8 else n - 16
    d.flt.spares.find? fun s => decide (0x90 ≤ s ∧ s < 0xa2) && decide (g (s - 0x90) = g (u - 0x90)) && decide (s ≠ u)
  else none

/-- ESCALATED, then doorstop (R508, R517). -/
def Die.escalate (d : Die) (u : Nat) : Die := 
  let d1 := d.recordOnly u 0x56 2 0xff 0xffff 0 0 false
  d1.doorstop u 0x56 (d1.flt.lat.find? u)

/-- Abandon every move that has not committed (R334, R340, R508): its new run is freed and taken off USED. -/
def Die.abandonMoves (d : Die) (p : Move → Bool) : Die :=
  let d1 := (d.tir.moves.filter p).foldl (fun d m =>
    let d1 := match m.newRun with
      | some (b, r) => (d.freeRunOf b r).addUsed (8192 + m.page / 2 ^ 18) 0 r
      | none => d
    (d1.dropReads (.copy m.page)).count R.tirAbort 1) d
  { d1 with tir := { d1.tir with moves := d1.tir.moves.filter fun m => !p m } }

/-- A free page of moves' marks: the page-op queue forgets the mover's marks and commits of abandoned pages. -/
def Die.dropMoverOps (d : Die) : Die :=
  { d with pmap := { d.pmap with ops := d.pmap.ops.filter fun o => o.started || decide (o.op ≠ .mark ∧ o.op ≠ .commit) } }

/-- Reset slice h (R508): waiting requests fail, every UP domain goes down, an engine test follows. -/
def Die.resetSlice (d : Die) (h : Nat) : Die :=
  let waiting (t : Txn) : Bool := decide (homeOf t.dla = h) && (match t.stage with
    | .waitlist | .hold | .laneWait | .pageMap | .dirFetch | .pageHold | .snoop => true
    | _ => false)
  let d1 := (d.failAll waiting).allDomainsDown
  if d1.flt.stuDisabled then d1 else d1.addTest 3 (unitCha h) testOfReset 0 false

/-- Every running job runs again from its start (R508, R318). -/
def Die.rerunJobs (d : Die) : Die :=
  let rerun (q : JobQ) : JobQ := match q.job with
    | some j => { q with job := some { j with rerun := true } }
    | none => q
  { d with jobs := d.jobs.map fun (e : Nat × JobQ) => (e.1, rerun e.2) }

/-- The reaction to a lasting fault of a unit other than a power domain (R508). -/
def Die.reactUnit (d : Die) (u : Nat) : Die :=
  if u < 0xc then
    (d.interrupt u).linkDown (u % 6)
  else if 0x10 ≤ u ∧ u < 0x16 then (d.interrupt u).linkDown (u - 0x10)
  else if u = 0x16 ∨ u = 0xa5 then ((d.interrupt u).abandonMoves fun _ => true).dropMoverOps
  else if u = 0x17 then (d.interrupt u).rerunJobs
  else if u = 0x19 ∨ u = 0xb8 then let d1 := d.interrupt u; { d1 with pmu := { d1.pmu with resetSeen := true } }
  else if u = 0x1a ∨ u = 0x1b ∨ u = 0xb9 then d.interrupt u
  else if u = 0x18 then d.escalate u
  else if 0x1c ≤ u ∧ u < 0x24 then ((d.interrupt u).resetSlice (u - 0x1c))
  else if 0x28 ≤ u ∧ u < 0x30 then ((d.interrupt u).resetSlice (u - 0x28))
  else if 0x24 ≤ u ∧ u ≤ 0x26 ∨ u = unitPageMap then d.escalate u
  else if 0x30 ≤ u ∧ u < 0x40 then (d.interrupt u).excludeChan (u - 0x30)
  else if 0x40 ≤ u ∧ u < 0x60 then (d.interrupt u).excludeChan ((u - 0x40) / 2)
  else if 0xc8 ≤ u ∧ u < 0xd0 then ((d.interrupt u).excludeChan (2 * (u - 0xc8))).excludeChan (2 * (u - 0xc8) + 1)
  else if (0x78 ≤ u ∧ u < 0x8c) ∨ (0x90 ≤ u ∧ u < 0xa2) then
    match d.chanOfUnit u with
    | none => { d with flt := { d.flt with spares := d.flt.spares.filter (· ≠ u), dead := u :: d.flt.dead } }
    | some c =>
      if d.flt.subst.any fun x => decide (x.1 = u) then d
      else match d.spareFor u with
      | some s =>
        let d1 := d.interrupt u
        { d1 with flt := { d1.flt with spares := d1.flt.spares.filter (· ≠ s), subst := d1.flt.subst ++ [(u, s, c)] } }
      | none => (d.interrupt u).excludeChan c
  else if u = unitHbc ∨ (0x61 ≤ u ∧ u < 0x71) ∨ u = unitItr then d.escalate u
  else if u = 0xa4 then
    let out := Tbl.get 0 d.flt.cjeOut 0
    if 7 ≤ out then d.escalate u
    else
      let d1 := (d.interrupt u).rerunJobs
      { d1 with flt := { d1.flt with cjeOut := d1.flt.cjeOut.set 0 0 (out + 1) } }
  else if 0xa8 ≤ u ∧ u < 0xac then
    let fenced := d.flt.dead.filter fun x => decide (0xa8 ≤ x ∧ x < 0xac)
    if 3 ≤ fenced.length then d.escalate u
    else
      let d1 := d.interrupt u
      let i := 38 + (u - 0xa8)
      { d1 with flt := { d1.flt with dead := u :: d1.flt.dead, quarantine := d1.flt.quarantine ++ [u],
                                     epoch := d1.flt.epoch.set 0 i ((Tbl.get 0 d1.flt.epoch i + 1) % 16) } }
  else if u = unitKps ∨ u = 0xae ∨ u = unitOhm then d
  else if u = 0xb7 then if d.flt.stuDisabled then d else (d.recordOnly u 0x67 0 0xff 0xffff 0 0 false).disableStu
  else if 0xc0 ≤ u ∧ u < 0xc8 then
    let out := if d.flt.sensorsOut.contains (u - 0xc0) then d.flt.sensorsOut else (u - 0xc0) :: d.flt.sensorsOut
    let d1 := { d with flt := { d.flt with sensorsOut := out } }
    if 8 ≤ out.length then d1.escalate u else d1
  else d.escalate u

/-- Units of power domain `n` (R490, R496). -/
def domainUnits (n : Nat) : List Nat :=
  match n with
  | 1 => 0xae :: range' 0xc8 8
  | 2 => range' 0xa8 5
  | 3 => [0xb0]
  | 4 => [0xb6]
  | 5 => [0xb7]
  | 6 => [0xb8]
  | 7 => [0xb9]
  | 8 => [0x24, 0x25, 0x26]
  | 19 => [0x60]
  | 20 => [0x8c]
  | 21 => [0xa4]
  | 22 => [0xa5]
  | 23 => [0x88, 0x89, 0xa0]
  | 24 => [0x8a, 0x8b, 0xa1]
  | _ =>
    if 9 ≤ n ∧ n < 13 then [0x28 + 2 * (n - 9), 0x29 + 2 * (n - 9)]
    else if 13 ≤ n ∧ n < 19 then [n - 13]
    else if 25 ≤ n ∧ n < 41 then [0x30 + (n - 25), 0x78 + (n - 25), 0x90 + (n - 25)]
    else [0xb4]

/-- The reaction to a lasting fault of a unit (R508); a power domain's units react each as its own row gives. -/
def Die.react (d : Die) (u : Nat) : Die :=
  let one (d : Die) (u : Nat) : Die :=
    if 0x10 ≤ u ∧ u < 0x24 ∧ u ≠ 0x18 then (d.reactUnit u).event R.xbrEvent 1 else d.reactUnit u
  if 0xd0 ≤ u ∧ u < 0xf9 then (domainUnits (u - 0xd0)).foldl one d else one d u

/-- A lasting fault that an engine test of a unit finds, by what the test is for. -/
def Die.engineLasting (d : Die) (u row : Nat) : Die :=
  if row = testOfReset then d.escalate u
  else if row = testAfter then d
  else if 4 ≤ row then { d with home := { d.home with waysOut := d.home.waysOut ++ [row - 4] } }
  else d.react u

/-- The targeted test of a code (R499): 0 none, 2 row, 3 engine. Line tests start where a re-read is made. -/
def testOf (code : Nat) : Nat :=
  match code with
  | 0x03 => 2
  | 0x0a | 0x11 | 0x30 | 0x33 | 0x34 | 0x35 | 0x66 => 3
  | _ => 0

/-- Corrected events of a unit within the window of R502. -/
def Die.ceCount (d : Die) (u : Nat) : Nat :=
  let w := 50 * 2 ^ fld (d.act R.fltCfg) 15 11
  (d.flt.ce.filter fun e => decide (e.1 = u) && decide (d.time < e.2 + w)).length

/-- The on-die directory location of an HBM directory set's address (R180, R181), in slice `h`. -/
def dirLoc (h addr : Nat) : Nat := h * 65536 + addr / 128 % 8192

/-- The fault record of an injected fatal event that waits for its window (R520). -/
def injectedFatal (u code seq time : Nat) : Rec :=
  { unit := u, code := code, cls := 2, injected := true, consequential := false, ovf := false, tested := false, lasting := false,
    master := 0xff, ten := 0xffff, time := time, addr := 0, syndrome := 0, seq := seq, epoch := 0 }

/-- The course of an uncorrected-contained record (R502, R505): its test, or its reaction where the unit has no such test; HANG's
reaction comes before its test, a slice's reset brings its own test, and a unit replaced or fenced has the test of R515; DIMM_CRIT excludes the channel (R511, R512). -/
def Die.contain (d : Die) (u code seq addr : Nat) (injected : Bool) : Die :=
  if code = 0x25 then
    let c := (u - 0x40) / 2
    let d1 := (d.interrupt u).excludeChan c
    d1.setChan c { (d1.chan c) with selfRefresh := true }
  else if code = 0x31 then
    let d1 := d.react u
    let later := d1.flt.quarantine.contains u || d1.flt.subst.any fun x => decide (x.1 = u)
    if hasEngineTest u ∧ !(0x28 ≤ u ∧ u < 0x30) ∧ !later ∧ !d.flt.stuDisabled then d1.addTest 3 u testAfter seq injected else d1
  else if d.flt.stuDisabled then
    if testOf code = 0 then d
    else if code = 0x11 then d.engineLasting u (testOfLoc (dirLoc (u - 0x28) addr))
    else d.react u
  else match testOf code with
    | 2 => if 0x40 ≤ u ∧ u < 0x60 then d.addTest 2 u (Config.rowOf addr) seq injected else d.react u
    | 3 =>
      if code = 0x11 then d.addTest 3 u (testOfLoc (dirLoc (u - 0x28) addr)) seq injected
      else if hasEngineTest u then d.addTest 3 u 0 seq injected
      else d.react u
    | _ => d

/-- What a record sets going (R502, R505): doorstop for a fatal one, once its window closes where it is injected (R520); the
course of an uncorrected-contained one; the engine tests of DEC_ERR and of CE_LIMIT. -/
def Die.setGoing (d : Die) (u code cls seq addr : Nat) (injected : Bool) : Die :=
  if cls = 2 then
    if injected then
      { d with flt := { d.flt with injWait := some (injectedFatal u code seq d.time), injOpen := (u, d.time + 50) :: d.flt.injOpen } }
    else d.doorstop u code (d.flt.lat.find? u)
  else if cls = 1 then d.contain u code seq addr injected
  else if !d.flt.stuDisabled ∧ hasEngineTest u ∧ fld (d.act R.fltCfg) 23 16 ≤ d.ceCount u then
    ({ d with flt := { d.flt with ce := d.flt.ce.filter fun e => decide (e.1 ≠ u) } }).addTest 3 u 0 seq injected
  else if code = 0x0a ∧ !d.flt.stuDisabled ∧ hasEngineTest u then d.addTest 3 u 0 seq injected
  else d

/-- Make a fault record and set its course going (R502); a consequential record starts nothing (R516). -/
def Die.record (d : Die) (u code cls master ten addr syn : Nat) (injected : Bool := false) : Die :=
  let seq := d.flt.seq
  let sh := d.inShadow u code
  let d1 := d.recordOnly u code cls master ten addr syn injected
  if sh then d1 else d1.setGoing u code cls (seq % 65536) addr injected

/-- Count ECC_CORR in the channel's row tracker (R503); a row reaching ROW_CE_MAX receives a row test. -/
def Die.trackRow (d : Die) (dga seq : Nat) : Die :=
  let c := d.chanOf dga
  let x := d.chan c
  let s := Config.slotOf dga % 2; let r := Config.rowOf dga
  let old := ((x.tracker.find? fun e => decide (e.1 = s) && decide (e.2.1 = r)).map fun e => e.2.2).getD 0
  let rest := x.tracker.filter fun e => !(decide (e.1 = s) && decide (e.2.1 = r))
  let rest := if 64 ≤ rest.length then rest.drop 1 else rest
  if fld (d.act R.fltCfg) 10 8 ≤ old + 1 then
    let d1 := d.setChan c { x with tracker := rest }
    if d.flt.stuDisabled then d1 else d1.addTest 2 (unitDimm c s) r seq false
  else d.setChan c { x with tracker := rest ++ [(s, r, old + 1)] }

end Sys2Proof.Machine
end

