-- ==== Sys2Proof/Machine/Access.lean ====
section
/-! DEFINITION. Machine/Access.lean: who may reach memory and under which key: region registers (R415–R418), the keyhole index of
a request and its checks (R255–R261, R267), the outcomes of a failed read (R228, R237–R240, R504), dirty logging (R381, R382),
buffered stores, and the whole reads of the walker and the mover. -/

namespace Sys2Proof.Machine

/-! ## Region registers -/

/-- A denied access is recorded (R417). -/
def Die.regionDeny (d : Die) (ctl addr master ten : Nat) (write : Bool) : Die :=
  (d.noteDeny ctl addr master write false).record (if ctl < 16 then unitMch ctl else unitHbc) 0x22 1 master ten addr 0

/-- A channel's check of a data access (R415), by the normal world. -/
def Die.granuleOk (d : Die) (dga master : Nat) (write : Bool) : Bool := d.regionOk (d.chanOf dga) dga master write false

/-! ## Keyhole indices -/

/-- The re-key retirement of index `a` that covers a DLA bay (R267). -/
def Die.rekeyOf (d : Die) (bay a : Nat) : Option Retire :=
  d.keys.rets.find? fun r => !r.erase && decide (r.a = a) && r.bays.any fun b => decide (b.bay = bay)

/-- The index a request resolves to (R255), remapped under R267, and whether it was. -/
def Die.remap (d : Die) (bay k : Nat) : Nat × Bool :=
  match d.rekeyOf bay k with
  | some r => (r.t, true)
  | none => (k, false)

/-- The index a granule is verified and decrypted under (R267): the retiring one where its KIC says so. -/
def Die.substIndex (d : Die) (bay k kic : Nat) : Nat :=
  match d.keys.rets.find? fun r => !r.erase && decide (kicOf r.a = kic) && r.bays.any fun b => decide (b.bay = bay) with
  | some r => if kicOf k = kic then k else r.a
  | none => k

def Die.allowedOf (d : Die) (t : Nat) : List Nat := (d.keys.allowed.find? t).getD []

def Die.live? (d : Die) (k : Nat) : Bool := decide ((d.slot k).st = .live)

/-- Does a slot hold a key (R254)? -/
def Die.hasKey (d : Die) (k : Nat) : Bool :=
  match (d.slot k).st with
  | .free | .sealed => false
  | _ => true

/-- Indices of stores on their way to a bay: they will enter its key list (R258). -/
def Die.comingKeys (d : Die) (bay : Nat) : List Nat :=
  ((d.txns.filter fun t => t.op.isWrite && decide (bayOf t.dla = bay)).map (·.kidx)) ++
  (d.pmap.ops.filter fun (o : PageOp) => decide (pageBay o.page = bay)).flatMap fun (o : PageOp) =>
    (o.writer.map Writer.kidx).toList ++ match o.op with
      | .wb _ _ k _ _ => [k]
      | _ => []

/-- A store under `k` would be a fifth entry of the bay's key list (R258), counting those on their way. -/
def Die.listFull (d : Die) (bay k : Nat) : Bool :=
  let l := ((d.bay bay).keyList ++ d.comingKeys bay).eraseDups
  !l.contains k && decide (4 ≤ l.length)

/-- A store adds its index to the bay's key list (R258), which counts against a retirement's guarantee until its clearing begins (R274).
An index that a re-key is taking off the list does not return to it (R267). -/
def Die.listKey (d : Die) (bay k : Nat) : Die :=
  let r := d.bay bay
  if r.keyList.contains k ∨ (d.rekeyOf bay k).isSome then d
  else
    let spoil (x : Retire) (b : RetBay) : RetBay :=
      if b.bay = bay ∧ k ≠ x.a ∧ k ≠ b.new then { b with reset := false } else b
    let note (x : Retire) : Retire := if x.phase = .clearing then x else { x with bays := x.bays.map (spoil x) }
    let d1 := d.setBay bay { r with keyList := r.keyList ++ [k] }
    { d1 with keys := { d1.keys with rets := d1.keys.rets.map note } }

/-- R257: is a host request refused? `k` as resolved, `re` remapped, `sel` KSEL. -/
def Die.keyRefused (d : Die) (ten entry k : Nat) (sel re store : Bool) : Bool :=
  if re then false
  else
    let b := d.bt entry
    (sel && !(d.allowedOf ten).contains k && decide (k ≠ b.defKey)) || !d.live? k || (store && d.listFull b.dlaBay k) ||
      d.dbg.erase.contains b.dlaBay

/-- The KEY_REFUSED record (R257, R593); one for each sealed index and seal (R432). -/
def Die.keyRefuse (d : Die) (master ten ta k : Nat) : Die :=
  if (d.slot k).st = .sealed then
    if d.dbg.refused.contains k then d
    else { d with dbg := { d.dbg with refused := k :: d.dbg.refused } }.record unitKht 0x21 1 master ten ta (k % 4096)
  else d.record unitKht 0x21 1 master ten ta (k % 4096)

/-! ## Buffered stores -/

/-- A store with nothing particular about it. -/
def LaneEnt.base : LaneEnt :=
  { seq := 0, ch := 0, dga := 0, dla := 0, data := 0, kind := 0, poison := false, kidx := 0, bay := 0, cache := false, master := 10,
    louvre := 0, con := none, group := 4, deadline := 0, own := none, since := 0, age := 0, tag := 0, raw := none, reenc := false, fill := false, wb := false,
    waited := false }

/-- Put a store into the write buffer of its channel's lane (R28). A store into a mapped or PLAIN bay lists its key (R258). -/
def Die.push (d : Die) (e : LaneEnt) : Die :=
  let e1 : LaneEnt := { e with seq := d.seq, ch := d.chanOf e.dga, since := if e.own.isSome then e.since else d.transom,
                               age := if e.own.isSome then e.age else d.seq }
  let d1 := { d with seq := d.seq + 1, lane := d.lane ++ [e1] }
  if e.fill ∨ e.raw.isSome then d1 else d1.listKey e.bay e.kidx

/-- A metadata store of the walker for a line, charged to it (R76). -/
def LaneEnt.metaFor (c : Charge) (dga bay : Nat) : LaneEnt :=
  { LaneEnt.base with dga := dga, dla := dga, bay := bay, louvre := c.louvre, con := c.con, group := c.group, deadline := c.due }

/-- Poison a granule (R235). -/
def Die.poisonGranule (d : Die) (dga kind kidx bay : Nat) (c : Charge) : Die :=
  d.push { LaneEnt.metaFor c dga bay with kind := kind, poison := true, kidx := kidx }

/-- A write of the granule has been ordered and has not reached DRAM: in a lane, in a write queue, or at its home (R21, R225). -/
def Die.writeOrdered (d : Die) (dga : Nat) : Bool :=
  (d.lane.any fun e => decide (e.dga = dga)) || (d.wq.any fun w => decide (w.dga = dga)) ||
    d.txns.any fun t => t.ordered && t.op.isWrite && (t.need.contains dga || decide (t.dla / 64 * 64 = dga))

/-- A corrected granule goes back to DRAM unchanged, unless a later write of it has been ordered (R225). -/
def Die.writeBackRaw (d : Die) (dga : Nat) (c : Charge) : Die :=
  if d.writeOrdered dga then d
  else d.push { LaneEnt.metaFor c dga (bayOf dga) with raw := some (d.granule dga) }

/-! ## Outcomes of reads (R228, R237, R238, R504) -/

/-- A General Media Event to the tenancy whose line an event names (R504). -/
def Die.mediaEvent (d : Die) (ten ta : Nat) : Die :=
  if ten < 1024 then d.hostEvent (d.tenPort ten) (.media ta) else d

/-- ECC corrected a granule (R225, R237): the granule is rewritten unchanged; the row tracker counts it (R503). -/
def Die.noteCorrected (d : Die) (dga master ten : Nat) (w : Charge) : Die :=
  let c := d.chanOf dga
  let d1 := (d.itrNote dga 1 2 R.itrEccCorr).count (R.mchEccCorr c) 1
  let seq := d1.flt.seq
  ((d1.record (d1.dimmUnit dga) 0x01 0 master ten dga 1).trackRow dga (seq % 65536)).writeBackRaw dga w

def Die.noteTransient (d : Die) (dga master ten : Nat) : Die :=
  (d.itrNote dga 2 3 R.itrTransient).record (d.dimmUnit dga) 0x02 0 master ten dga 2

/-- The re-read failed again: MEM_FAIL, and the row test follows (R237). -/
def Die.noteMemFail (d : Die) (dga code master ten ta : Nat) : Die :=
  ((d.itrNote dga code 5 R.itrMemFail).record (d.dimmUnit dga) 0x03 1 master ten dga code).mediaEvent ten ta

def Die.noteMismatch (d : Die) (dga master ten ta : Nat) : Die :=
  ((d.itrNote dga 7 4 R.itrKeyMismatch).record (unitCry (d.chan (d.chanOf dga)).lane) 0x04 1 master ten dga 7).mediaEvent ten ta

/-! ## Dirty logging (R380–R382) -/

/-- The tenancy's dirty log runs: LOG_EN, until its removal begins (R378). -/
def Die.logOn (d : Die) (t : Nat) : Bool := bit (d.tenCfg t) 19 && decide ((d.ten t).st ≠ .removing)

/-- Record page `p` of tenancy `t` in its active map's log buffer entry (R381, R382). -/
def Die.logPage (d : Die) (t p : Nat) : Die :=
  if !d.logOn t then d
  else
    let x := d.ten t
    let line := p / 512; let b : BitVec 512 := BitVec.ofNat 512 (2 ^ (p % 512))
    let hit (e : LogEnt) : Bool := decide (e.ten = t) && decide (e.mapB = x.actB) && decide (e.line = line)
    if d.tens.logs.any hit then
      { d with tens := { d.tens with logs := d.tens.logs.map fun e => if hit e then { e with bits := e.bits ||| b } else e } }
    else if d.tens.logs.length < 2048 then
      let d1 := { d with tens := { d.tens with logs := d.tens.logs ++ [{ ten := t, mapB := x.actB, line := line, bits := b }] } }
      -- in SL2, an occupancy of 1,024 entries is a wake source (R479)
      if d1.pwr.st = .sl2 ∧ 1024 ≤ d1.tens.logs.length then d1.wake 13 else d1
    else
      (d.setTen t (if x.actB then { x with ovfB := true } else { x with ovfA := true })).event R.tenEvent 4

/-- The tenancy and TA a DLA is logged for when the device poisons it (R381): its entry's. -/
def Die.ownerOf (d : Die) (dla : Nat) : Option (Nat × Nat) :=
  match d.entriesOfBay (bayOf dla) with
  | e :: _ => some ((d.bt e).ten, d.taOf e dla)
  | [] => none

def Die.logPoison (d : Die) (dla : Nat) : Die :=
  match d.ownerOf dla with
  | some (t, ta) => d.logPage t (ta / 4096)
  | none => d

/-! ## Best-effort entries (R117) -/

/-- In SL2 a channel without contract load is in self-refresh (R478). -/
def Die.chanAsleep (d : Die) (c : Nat) : Bool :=
  let held (x : Contract) : Bool := x.live && x.uses.any fun (u : ConUse) => decide (u.share ≠ 0) && (d.setChannels u.set).contains c
  decide (d.pwr.st = .sl2 ∨ d.pwr.st = .sl2Exit) && !d.trs.contracts.any fun (e : Nat × Contract) => held e.2

/-- Take an entry of a channel's best-effort queue under the number `own` (R117); a louvre that then holds QMAX entries is at its limit
(R123, R139), and a channel in self-refresh is a MEM_WAKE (R478) but for a request of the debug path (R437). -/
def Die.takeEntry (d : Die) (own ch louvre : Nat) (wakes : Bool := true) : Die :=
  let e : BeEntry := { own := own, ch := ch, louvre := louvre, since := d.transom, age := d.seq }
  let d1 := if wakes && d.chanAsleep ch then d.memWake else d
  let d2 := { d1 with be := d1.be ++ [e], seq := d1.seq + 1 }
  if d2.qmax louvre ≤ d2.occ ch louvre then d2.event R.lvrEvent 1 else d2

/-! ## Operations that read by themselves (R76, R96, R302) -/

/-- The granules of a list that a read must fetch from DRAM. -/
def Die.readsOf (d : Die) (gs : List Nat) : List Nat :=
  gs.filter fun g => !d.itr.isLost g && (d.buffered g).isNone && d.itr.written g

/-- Queue an operation's read of a granule. -/
def Die.queueWop (d : Die) (w : WOp) (c : Charge) (g : Nat) : Die :=
  let e := d.be.find? fun e => decide (some e.own = w.own) && decide (e.ch = d.chanOf g)
  d.queueXfer { seq := 0, ch := 0, write := false, dga := g, txn := none, own := w.own, line := none, wop := some w.key, group := c.group,
                deadline := c.due, louvre := c.louvre, since := (e.map (·.since)).getD d.transom, age := (e.map (·.age)).getD d.seq,
                slotCls := slotMeta, con := c.con }

/-- Take entries under the number `own` on the channels of a list where it has none yet (R117); `none` where one must wait. -/
def Die.takeEntries (d : Die) (own : Nat) (louvre : Nat) (chs : List Nat) : Option Die :=
  let new := chs.eraseDups.filter fun ch => !d.be.any fun e => decide (e.own = own) && decide (e.ch = ch)
  if new.any fun ch => !d.mayTake ch louvre then none
  else some (new.foldl (fun (d : Die) ch => d.takeEntry own ch louvre) d)

/-- The reads of an operation (`some`: they have all issued, and it goes on): at first it takes its entries and queues them, unless
one of its channels has no entry for it (R117). Reads that became needed since are queued too. `entry`: a best-effort operation takes
entries; a write-back never does (R168). -/
def Die.reads (d : Die) (k : WKey) (gs : List Nat) (c : Charge) (entry : Bool := true) : Option WOp × Die :=
  let d0 := gs.foldl (fun (d : Die) g => d.learn g c) d
  let ns := d0.readsOf gs
  match d0.wops.find? fun w => decide (w.key = k) with
  | some w =>
    let more := ns.filter fun g => !w.gs.contains g
    if more ≠ [] then
      let w1 : WOp := { w with gs := w.gs ++ more }
      (none, more.foldl (fun (d : Die) g => d.queueWop w1 c g)
        { d0 with wops := d0.wops.map fun x => if x.key = k then w1 else x })
    else if d0.xfers.any fun x => decide (x.wop = some k) then (none, d0)
    else (some w, d0)
  | none =>
    let own := if entry && decide (c.group = 4) then some d0.seq else none
    let taken := match own with
      | some n => { d0 with seq := n + 1 }.takeEntries n c.louvre (gs.map d0.chanOf)
      | none => some d0
    match taken with
    | none => (none, d0)
    | some d1 =>
      let w : WOp := { key := k, own := own, gs := ns, start := d0.time }
      let d2 := ns.foldl (fun (d : Die) g => d.queueWop w c g) { d1 with wops := d1.wops ++ [w] }
      (if ns = [] then some w else none, d2)

/-- An operation has stored what it read for: its reads were samples of its louvre (R131), and its entries free with its stores. -/
def Die.endReads (d : Die) (w : WOp) (louvre : Nat) : Die :=
  let d1 := { d with wops := d.wops.filter fun x => decide (x.key ≠ w.key) }
  let v := d1.louvre louvre
  let n := w.gs.length
  let d2 := if w.own.isSome ∧ louvre < 256 ∧ n ≠ 0 then
      d1.setLouvre louvre { v with sum := v.sum + n * ((d.time - w.start) * 10), n := v.n + n }
    else d1
  d2.freeEntries

/-- An operation ends: reads it has made are samples, others are forgotten. -/
def Die.closeReads (d : Die) (k : WKey) (louvre : Nat) : Die :=
  match d.wops.find? fun (w : WOp) => decide (w.key = k) with
  | none => d
  | some w => if d.xfers.any fun x => decide (x.wop = some k) then d.dropReads k else d.endReads w louvre

/-- A store of an operation under its entry on the store's channel. -/
def Die.underEntry (d : Die) (own : Option Nat) (e : LaneEnt) : LaneEnt :=
  match d.be.find? fun x => decide (some x.own = own) && decide (x.ch = d.chanOf e.dga) with
  | some x => { e with own := own, since := x.since, age := x.age }
  | none => e

/-- There is room in the lanes' write buffers for stores that enter together (R298 step 8). -/
def Die.storesFit (d : Die) (es : List LaneEnt) : Bool :=
  let mine := es.filter fun e => !e.wb
  ((mine.map fun e => d.chanOf e.dga).eraseDups).all fun ch =>
    decide ((d.lane.filter fun e => decide (e.ch = ch) && !e.wb).length + (mine.filter fun e => decide (d.chanOf e.dga = ch)).length ≤ 256)

/-- Stores of an internal master enter their lanes under queue entries of the number `own` (R117); `none` while an entry or a place in a
lane is missing. -/
def Die.pushUnder (d : Die) (own louvre : Nat) (es : List LaneEnt) : Option Die :=
  if !d.storesFit es then none
  else (d.takeEntries own louvre (es.map fun e => d.chanOf e.dga)).map fun d1 => es.foldl (fun (d : Die) e => d.push (d1.underEntry (some own) e)) d1

/-! ## Whole reads by the walker and the mover -/

/-- The arrivals a disturbance list gives a granule: of its read and of its re-read; unlisted, as stored. -/
def arrivalsOf (dist : List (Nat × Arrival)) (dga : Nat) : Arrival × Arrival :=
  match dist.filter fun (x : Nat × Arrival) => decide (x.1 = dga) with
  | [] => (Arrival.asStored, Arrival.asStored)
  | [x] => (x.2, Arrival.asStored)
  | x :: y :: _ => (x.2, y.2)

/-- Decode a compressed pane on the codec that serves its channel (R291, R295): `slip` where that codec errs, and the channel group's
spare decodes it again; a stream that breaks R288 fails on both. The codec is reported. -/
def Die.decode (d : Die) (ch n : Nat) (ls : List Line) (slip : Bool) (master ten dga : Nat) : Option (List Line) × Die :=
  let c := (d.chan ch).codec
  let d1 := (d.count (R.pcxDecCount c) 1).tally 0x50 1 [scChan ch]
  let err (cls : Nat) : Die := ((d1.count (R.pcxDecErr c) 1).event (R.pcxEvent c) 1).record (unitPcx c) 0x0a cls master ten dga 0
  match decodePane n ls with
  | some out => (some out, if slip then err 0 else d1)
  | none => (none, err 1)

/-- What a whole read ends with. -/
inductive Got where
  | data (l : Line)
  | poisoned
  | mismatch
  /-- failed on its re-read with this code -/
  | failed (code : Nat)
  deriving DecidableEq, Repr

/-- One read of a granule by R224 with one arrival. -/
def Die.readOnce (d : Die) (dga kidx bay want : Nat) (a : Arrival) : GRes :=
  match d.buffered dga with
  | some e => e.read (d.substIndex bay kidx (kicOf e.kidx))
  | none =>
    match d.itr.counterSure dga with
    | none => .lost
    | some c =>
      let under (x : Granule) : Nat := d.substIndex bay kidx x.kic
      let g := decodedBy a (fun x => tagVerifies x (d.slot (under x)).key (under x) dga c.1 c.2) (d.heldGranule dga)
      verdict (d.slot (under g.1)).key (under g.1) dga c.1 c.2 want g.1 g.2

/-- A read by R224 with its re-read and the notes of R237, for an internal master: the poisoning of the granule is the
caller's. -/
def Die.readWhole (d : Die) (dga kidx bay want master ten ta : Nat) (w : Charge) (dist : List (Nat × Arrival)) : Got × Die :=
  let ars := arrivalsOf dist dga
  let ec (d : Die) (a : Arrival) : Die := if mended a then d.noteCorrected dga master ten w else d
  if d.itr.isLost dga then (.poisoned, d)
  else match d.readOnce dga kidx bay want ars.1 with
    | .data l => (.data l, ec d ars.1)
    | .poisoned => (.poisoned, (ec d ars.1).count R.itrPoisonRead 1)
    | .keyMismatch => (.mismatch, d.noteMismatch dga master ten ta)
    | .lost => (.poisoned, d)
    | .fail _ =>
      let d0 := d.count R.stuLineTests 1
      let d1 := d0.stuEnd 1 (d.dimmUnit dga) 0 1
      match d0.readOnce dga kidx bay want ars.2 with
      | .data l => (.data l, d1.noteTransient dga master ten)
      | .poisoned => (.poisoned, d1.count R.itrPoisonRead 1)
      | .keyMismatch => (.mismatch, d1.noteMismatch dga master ten ta)
      | .lost => (.poisoned, d1)
      | .fail c => (.failed c, (d0.stuEnd 1 (d.dimmUnit dga) 0 2).noteMemFail dga c master ten ta)

/-- Key indices a DLA bay's granules may be stored under: its key list, and the index a re-key that covers it replaced there (R258,
R260, R267). -/
def Die.keysFor (d : Die) (bay : Nat) : List Nat :=
  (d.bay bay).keyList ++ (d.keys.rets.filter fun r => !r.erase && r.bays.any fun b => decide (b.bay = bay)).map (·.a)

/-- Key indices that may have stored a granule of physical bay `b`: the key lists of the bay itself and of the mapped bays it
stores. -/
def Die.keysOfPhys (d : Die) (b : Nat) : List Nat :=
  (d.tens.bays.flatMap fun (e : Nat × BayRec) =>
    let mine := decide (e.1 = b) || (mappedBay e.1 && match d.storeOf b with
      | some s => decide (e.2.primary = s ∨ e.2.secondary = s)
      | none => false)
    if mine then d.keysFor e.1 else []).eraseDups

/-- The index a granule was stored under, found by its KIC and then its tag (R230, R334). -/
def Die.indexOf (d : Die) (dga : Nat) (cands : List Nat) : Option Nat :=
  let g := d.heldGranule dga
  let c := (d.itr.counterSure dga).getD (0, 0)
  let fit (k : Nat) : Bool := decide (kicFor g.kind k = g.kic) && d.hasKey k
  match cands.filter fit with
  | [] => none
  | [k] => some k
  | ks => match ks.find? fun k => decide (g.tag = tagOf (d.slot k).key k dga c.1 c.2 g.kind g.poison g.data) with
    | some k => some k
    | none => ks.head?

end Sys2Proof.Machine
end

