-- ==== Sys2Proof/Machine/Memory.lean ====
section
/-! DEFINITION. Machine/Memory.lean: the memory side of a request: the memory-side cache (R341–R350), entry to a channel (R84,
R117, R122, R511), granule reads and their outcomes (R224, R237, R249, R295), stores (R22, R226, R228), the channel's plan (R96,
R127–R136, R531). -/

namespace Sys2Proof.Machine

/-! ## The memory-side cache -/

/-- A cached line as the granule R343 verifies. -/
def CacheWay.granule (x : CacheWay) : Granule :=
  { data := x.data, tag := x.tag, kic := x.kic, poison := false, kind := 0, unwritten := false }

/-- Fill a verified DDR granule (R345, R346, R348): group 3, dropped where that queue is full. -/
def Die.fill (d : Die) (dga k louvre : Nat) (g : Granule) : Die :=
  let mask := d.ways louvre
  if mask = 0 then d
  else
    let r := d.hbm 3 0 (wayAddr (hbSet dga) 0) 14 true (.fill dga k mask g)
    if r.1 then r.2 else r.2.count R.hbcFillDrop 1

/-- A store update (R347, R348). -/
def Die.storeUpdate (d : Die) (dga : Nat) (g : Granule) : Die :=
  let r := d.hbm 3 0 (wayAddr (hbSet dga) 0) 14 true (.update dga g)
  if r.1 then r.2 else r.2.count R.hbcFillDrop 1

/-! ## Entry to the channel -/

/-- The row of a granule is retired (R511). -/
def Die.retiredRow (d : Die) (dga : Nat) : Bool :=
  (d.chan (d.chanOf dga)).retired.contains (Config.slotOf dga % 2, Config.rowOf dga)

/-- The leaf of a granule is needed from an excluded channel and held nowhere else (R511). -/
def Die.leafGone (d : Die) (dga : Nat) : Bool :=
  let n0 := nodeIdx 0 dga
  (d.itr.latest 0 n0).isNone && (d.chan (d.chanOf (d.leafAddr dga))).excluded &&
    !(match d.itr.blockOf (n0 / 2 ^ 18) with
      | some b => (d.itr.lines.find? (lineKey b n0)).isSome
      | none => false)

/-- Where a line's data lie: the granules to read, the kind wanted, the pane's LEN (8: the line's own granule), LOST. -/
structure Loc where
  dgas : List Nat
  want : Nat
  len : Nat
  lost : Bool
  deriving DecidableEq, Repr

/-- A mapped page's number in the page map: DLA[41:12] (R277). -/
def pageOf (dla : Nat) : Nat := dla / 4096 - 8192 * 2 ^ 18

/-- The location of a line under a page-map entry (R291). -/
def PgEnt.locate (e : PgEnt) (dla : Nat) : Loc :=
  let i := dla / 64 % 64; let j := i / 8
  match e.st with
  | .unmapped => { dgas := [], want := 1, len := 0, lost := false }
  | .lost => { dgas := [], want := 1, len := 0, lost := true }
  | .plain => { dgas := [e.dga i], want := 0, len := 8, lost := false }
  | .packed =>
    if e.len j = 8 then { dgas := [e.dga (e.start j + i % 8)], want := 1, len := 8, lost := false }
    else { dgas := e.paneDgas j, want := 1, len := e.len j, lost := false }

/-- The location of a line; a PLAIN bay's line is its own granule (R13). -/
def Die.locate (d : Die) (dla : Nat) : Loc :=
  if mappedBay (bayOf dla) then (d.pgEntry (pageOf dla)).locate dla
  else { dgas := [dla / 64 * 64], want := 0, len := 8, lost := false }

/-- The channel whose share a line draws from: its granules', else the first of its bay's interleave set. -/
def Die.chanFor (d : Die) (l : Loc) (dla : Nat) : Nat :=
  match l.dgas with
  | g :: _ => d.chanOf g
  | [] => match d.setOfDlaBay (bayOf dla) with
    | some n => (d.setChannels n).headD 0
    | none => 0

/-- Transfers a request draws on its channel (R84, R202, R292): two for a partial write, LEN for a read of a PACKED page. -/
def Txn.draws (t : Txn) (l : Loc) : Nat :=
  if t.op = .wrPart then 2 else if t.op = .wr then 1 else if l.want = 1 then max 1 l.len else 1

/-- A line matched to contracts draws its share (R84), with the transfers of what it promoted (R122); `none`: best effort. -/
def Die.drawFor (d : Die) (t : Txn) (ch n : Nat) : Option Nat × Die :=
  if t.cls = 4 ∨ t.matched = [] then (none, d)
  else
    match d.drawShare t.matched ch (t.stamp / 50) n with
    | some (c, d1) => (some c, d1.tally (if t.op.isWrite then 0x13 else 0x12) 1 [scPort t.port, scTen t.ten])
    | none => (none, (d.count R.trsOvershare 1).event R.trsEvent 5)

/-- A line its share does not cover is best effort from then on (R84). -/
def Txn.bestEffort (t : Txn) : Txn := { t with cls := 4, matched := [], con := none }

/-- Slot class of R531 in which a request's reads are counted. -/
def Txn.slotCls (t : Txn) : Nat := if t.master = 8 ∨ t.master = 11 ∨ t.op = .wrPart then slotMeta else slotData

/-- A single KIND 0b000 granule is wanted: the line may lie in the memory-side cache. -/
def Txn.want0 (t : Txn) : Bool := decide (t.wantKind = 0) && decide (t.paneLen = 8)

/-- Group and deadline of a request's transfers (R122, R127). -/
def Txn.group (t : Txn) : Nat := if t.con.isSome ∨ t.promoted.isSome then 2 else 4
def Txn.due (t : Txn) : Nat := t.promoted.getD t.deadline

/-- What the metadata transfers a request causes are charged to (R76, R127, R216). -/
def Txn.charge (t : Txn) : Charge :=
  { group := if t.con.isSome ∨ t.promoted.isSome then 3 else 4, due := t.due, louvre := t.louvre, con := t.con }

/-- Queue the read of one granule of a request. A contract line's read shares that of an operation which still waits (R337). -/
def Die.queueRead (d : Die) (t : Txn) (g : Nat) : Die :=
  let same (x : Xfer) : Bool := decide (x.dga = g) && !x.write && x.wop.isSome && x.txn.isNone
  if t.con.isSome && d.xfers.any same then
    { d with xfers := d.xfers.map fun x => if same x then { (x.raise g t.group t.due) with txn := some t.id } else x }
  else
    d.queueXfer { seq := 0, ch := 0, write := false, dga := g, txn := some t.id, own := t.own, line := some (t.dla / 64), wop := none,
                  group := t.group, deadline := t.due, louvre := t.louvre, since := t.since, age := t.age, slotCls := t.slotCls, con := t.con }

/-- A granule needs no DRAM access: lost, buffered, or of minor 0. -/
def Die.noDram (d : Die) (t : Txn) (g : Nat) : Bool :=
  d.itr.isLost g || (d.bufferedBefore g t.seq).isSome || (match d.itr.counter g with
    | some (_, m) => decide (m = 0)
    | none => false)

/-- The memory-side cache holds a copy a request's lookup would match (R343). -/
def Die.cacheHit (d : Die) (t : Txn) : Bool :=
  t.want0 && d.bayCache (bayOf t.dla) && t.need.any fun g => (d.lookup g t.kidx).isSome

/-- The keystreams of a request's granules whose counters have been delivered (R247). -/
def Die.formKs (d : Die) (t : Txn) : Txn :=
  if !d.hasKey t.kidx then t
  else
    let new := t.need.filterMap fun g => if t.ks.any fun x => decide (x.1 = g) then none
      else (d.itr.counter g).map fun c => (g, c.1, c.2, (d.slot t.kidx).key)
    if new = [] then t else { t with ks := t.ks ++ new }

/-- Form the keystreams of every request in its lane whose counter is known now. -/
def Die.formAll (d : Die) : Die :=
  (d.txns.filter fun t => match t.stage with
    | .mem | .counter | .test => true
    | _ => false).foldl (fun d t => d.setTxn (d.formKs t)) d

/-- A read is accepted by its channel's lane: counter fetch, cache probe, transfers, queue entry. -/
def Die.acceptRead (d : Die) (t : Txn) : Die :=
  let probe := t.want0 && d.bayCache (bayOf t.dla)
  let hit := d.cacheHit t
  let t0 : Txn := { t with stage := .mem, seq := d.seq, mayFill := probe && !hit }
  let d1 := { d with seq := d.seq + 1 }
  let d2 := if probe then (d1.hbm t.charge.hbm t.due (wayAddr (hbSet (t.need.headD 0)) 0) 14 false (.lookup t.id)).2 else d1
  let d3 := if probe && !hit then (d2.count R.hbcMiss 1).tally 0x31 1 [scDev, scLouvre t.louvre, scTen t.ten] else d2
  let d4 := t.need.foldl (fun d g =>
    if (d.itr.counter g).isNone then (d.fetchCounter g t.charge).tally 0x32 1 [scDev, scChan (d.chanOf g)] else d) d3
  let reads := if hit then [] else t.need.filter fun g => !d4.noDram t0 g
  let entry := t.con.isNone && (decide (reads ≠ []) || decide (t.op = .wrPart))
  let t1 := d4.formKs (if entry then { t0 with own := some d4.seq, since := d4.transom, age := d4.seq } else { t0 with since := d4.transom })
  let d5 := if entry then d4.takeEntry d4.seq t.ch t.louvre (t.master ≠ 12) else d4
  reads.foldl (fun d g => d.queueRead t1 g) (d5.setTxn t1)

/-- A lane takes no more data but that of the write-back lane (R168, R513): its entries are all taken, by buffered stores and by partial
writes still reading, or its buffer is being copied to a spare, when the home slices hold the channel's requests. -/
def Die.laneFull (d : Die) (ch : Nat) : Bool :=
  (d.flt.subst.any fun x => decide (x.2.2 = ch)) || decide (256 ≤ (d.lane.filter fun e => decide (e.ch = ch) && !e.wb).length +
    (d.txns.filter fun t => decide (t.ch = ch) && decide (t.op = .wrPart) && (match t.stage with
      | .mem | .counter | .test => true
      | _ => false)).length)

/-- The store of a request's line (R28, R226). -/
def Die.storeLine (d : Die) (t : Txn) (dga : Nat) (data : Line) : Die :=
  d.push { LaneEnt.base with
    dga := dga, dla := t.dla, data := data, kidx := t.kidx, bay := bayOf t.dla, cache := d.bayCache (bayOf t.dla), master := t.master,
    louvre := t.louvre, con := t.con, group := t.group, deadline := t.due, own := t.own, since := t.since, age := t.age,
    tag := t.tag }

/-- A full-line write is accepted: its data in the write buffer, its completion sent (R28). -/
def Die.acceptWrite (d : Die) (t : Txn) (dga : Nat) : Die :=
  if t.con.isSome then (d.storeLine t dga t.data).complete t (.cmp t.grant)
  else
    let t1 : Txn := { t with own := some d.seq, since := d.transom, age := d.seq }
    ((d.takeEntry d.seq t.ch t.louvre (t.master ≠ 12)).storeLine t1 dga t.data).complete t1 (.cmp t.grant)

/-- Why a located request cannot be served by its channel: excluded, retired row, counter-lost range, leaf out of reach, or a
read-only page for a store. -/
def Die.outOfReach (d : Die) (t : Txn) (l : Loc) : Bool :=
  l.lost || l.dgas.any fun g => (d.chan (d.chanOf g)).excluded || d.retiredRow g || d.itr.isLost g || d.leafGone g ||
    (t.op.isWrite && d.itr.isReadOnly g)

/-- The granule of a location that the region registers deny to a request's master (R415–R417). -/
def Die.denied (d : Die) (t : Txn) (l : Loc) : Option Nat :=
  l.dgas.find? fun g => !((t.op = .wr || d.granuleOk g t.master false) && (!t.op.isWrite || d.granuleOk g t.master true))

/-- The slice's hold of 512 entries is full (R120, R121). -/
def Die.holdFull (d : Die) (h : Nat) : Bool :=
  decide (512 ≤ (d.txns.filter fun t => decide (t.stage = .hold) && decide (homeOf t.dla = h)).length)

/-- Requests waiting at a slice (R167). -/
def Die.waiting (d : Die) (h : Nat) : Nat :=
  (d.txns.filter fun t => decide (t.stage = .waitlist) && decide (homeOf t.dla = h)).length

/-- Put a request into its home's waitlist (R166). -/
def Die.toWaitlist (d : Die) (t : Txn) : Die :=
  let h := homeOf t.dla
  let d1 := (d.setTxn { t with stage := .waitlist }).tally 0x44 1 [scSlice h]
  { d1 with home := { d1.home with waitPeak := d1.home.waitPeak.set 0 h (max (Tbl.get 0 d1.home.waitPeak h) (d1.waiting h)) } }

/-- The oldest request of its louvre waiting for its channel (R120). -/
def Die.oldestHeld (d : Die) (t : Txn) : Bool :=
  !(d.txns.any fun u => decide (u.stage = .hold) && decide (u.id < t.id) && decide (u.louvre = t.louvre) && decide (u.ch = t.ch))

/-- A best-effort request goes into its home's hold (R117, R120), its louvre at its limit (R123); with the hold full it stays in the
waitlist. -/
def Die.toHold (d : Die) (t : Txn) : Die :=
  if t.stage ≠ .hold ∧ d.holdFull (homeOf t.dla) then d.toWaitlist t
  else ((d.setTxn { t with stage := .hold }).tally 0x17 1 [scLouvre t.louvre, scSlice (homeOf t.dla)]).event R.lvrEvent 1

/-- A request located in memory enters its channel: checks, share (R84), queue entry (R117) or hold (R120), a place in the lane for a
write. `force`: promoted out of the hold (R122). -/
def Die.enter (d : Die) (t : Txn) (l : Loc) (force : Bool) : Die :=
  let ch := d.chanFor l t.dla
  let t0 : Txn := d.meetFault { t with ch := ch, need := l.dgas, got := [], wantKind := l.want, paneLen := l.len }
  if d.outOfReach t0 l then d.complete t0 t0.failed
  else match d.denied t0 l with
    | some g => (d.regionDeny ch g t0.master t0.ten t0.op.isWrite).complete t0 t0.barred
    | none =>
      let hit := !t0.op.isWrite && d.cacheHit t0
      let r := if t0.con.isSome then (t0.con, d) else d.drawFor t0 ch ((if hit then 0 else t0.draws l) + t0.carry)
      let t1 : Txn := if r.1.isSome then { t0 with con := r.1 } else t0.bestEffort
      let queued := r.1.isNone && !hit && (t1.op.isWrite || decide (l.dgas ≠ []))
      if queued && !force && !(r.2.mayTake ch t1.louvre && r.2.oldestHeld t1) then r.2.toHold t1
      else if t1.op.isWrite && r.2.laneFull ch then r.2.setTxn { t1 with stage := .laneWait }
      else if t1.op = .wr then r.2.acceptWrite t1 (l.dgas.headD 0)
      else if l.dgas = [] then r.2.complete t1 (.data 0 t1.grant)
      else r.2.acceptRead t1

/-- Queue a page operation at its page home (R297); `wline`: the line it makes write-pending (R296). -/
def Die.pageOp (d : Die) (page : Nat) (op : POp) (wline : Option Nat := none) : Die :=
  let o : PageOp :=
    { seq := d.pmap.nextOp, page := page, op := op, started := false, writer := none, repack := none, holdLeft := [], answerLeft := [], relLeft := [],
      stores := [], entry := PgEnt.unmapped, oldRun := none, released := false, wline := wline }
  { d with pmap := { d.pmap with ops := d.pmap.ops ++ [o], nextOp := d.pmap.nextOp + 1 } }

/-- A slice asks the HBM for a page-map line (R290): on an admitted contract line's path in the first group (R351). -/
def Die.fetchMap (d : Die) (t : Txn) (h page : Nat) : Die :=
  if d.pmap.fetch.contains (h, page) then d.setTxn { t with stage := .pageMap }
  else
    let group := if t.cls = 4 ∨ t.matched = [] then 2 else 1
    let r := d.hbm group t.deadline (pageMapAddr page) 14 false (.pageMap h page)
    if r.1 then { r.2 with pmap := { r.2.pmap with fetch := r.2.pmap.fetch ++ [(h, page)] } }.setTxn { t with stage := .pageMap }
    else r.2.complete t t.failed

/-- Pass an ordered request to the memory side (R290, R291, R296, R335, R336). -/
def Die.passOne (d : Die) (t : Txn) (force : Bool) : Die :=
  if !mappedBay (bayOf t.dla) then d.enter t (d.locate t.dla) force
  else
    let h := homeOf t.dla; let page := pageOf t.dla
    if d.pmap.held.contains (h, page) then d.setTxn { t with stage := .pageHold }
    else if !d.pmCached h page then d.fetchMap t h page
    else
      let d0 := d.pmInsert h page
      let e := d0.pgEntry page
      if t.op.isWrite ∧ e.st ≠ .lost ∧ (e.st ≠ .plain ∨ e.move) then
        let d1 := { d0 with pmap := { d0.pmap with wpend := d0.pmap.wpend ++ [t.dla / 64] } }
        (d1.setTxn { t with stage := .pane }).pageOp page (.write t.id) (some (t.dla / 64))
      else d0.enter t (e.locate t.dla) force

/-- Promote the best-effort requests a contract line is ordered behind (R122): those of the line in the hold or in a queue, with the
stores and writes of the line that are still on their way. The transfers promoted are drawn with the line's own. -/
def Die.promoteFor (d : Die) (t : Txn) : Txn × Die :=
  if t.cls = 4 ∨ t.matched = [] then (t, d)
  else
    let line := t.dla / 64
    let us := d.txns.filter fun u => decide (u.id < t.id) && decide (u.dla / 64 = line) && u.con.isNone && u.ordered &&
      u.promoted.isNone && (decide (u.stage = .hold) || d.xfers.any fun x => decide (x.txn = some u.id))
    let stores := d.lane.filter fun e => decide (e.dla / 64 = line) && decide (e.group = 4) && e.own.isSome
    let waits (x : Xfer) : Bool := decide (x.line = some line) && decide (x.group = 4)
    let n := stores.length + (d.xfers.filter waits).length
    let d0 := { d with
      xfers := d.xfers.map fun x => if waits x then { x with group := 2, deadline := t.deadline } else x
      lane := d.lane.map fun e => if stores.contains e then { e with group := 2, deadline := t.deadline } else e }
    us.foldl (fun (a : Txn × Die) u =>
      let u1 : Txn := { u with promoted := some t.deadline }
      if u.stage = .hold then ({ a.1 with carry := a.1.carry + u.draws (a.2.locate u.dla) }, a.2.passOne u1 true)
      else ({ a.1 with carry := a.1.carry + if u.op = .wrPart then 1 else 0 }, a.2.setTxn u1)) ({ t with carry := t.carry + n }, d0)

/-! ## Order of one line's requests (R21, R22, R120, R296) -/

/-- A request must wait behind an earlier one to its line. -/
def Die.lineBlocked (d : Die) (t : Txn) : Bool :=
  d.pmap.wpend.contains (t.dla / 64) || (d.busyOf t.dla).isSome ||
    d.txns.any fun u => decide (u.id < t.id) && decide (u.dla / 64 = t.dla / 64) && u.ordered &&
      (decide (u.op = .wrPart) || (match u.stage with
        | .mem | .counter | .test | .port => false
        | _ => true))

/-- Pass an ordered request of a line no domain tracks. -/
def Die.pass (d : Die) (t : Txn) : Die :=
  if d.lineBlocked t then d.toWaitlist t else d.passOne t false

/-! ## Granules coming back -/

/-- Start a granule's re-read as a line test (R237, R239, R505): the line's channel path is in a fault interruption. -/
def Die.startRetry (d : Die) (t : Txn) (g code : Nat) : Die :=
  let u := d.dimmUnit g
  let run := d.testRoom 1 0
  let x : Test := { kind := 1, unit := u, row := t.id, seq := g / 64 % 65536, forced := false, running := run, queued := d.time }
  let d1 := { d with flt := { d.flt with tests := d.flt.tests ++ [x] } }.openReread (.granule t.id g) [g]
  d1.setTxn { t with stage := .test, retry := t.retry ++ [(g, code)], faultHit := true }

/-- Store a pane raw with all granules poisoned (R295), where a mapped line's pane fails. -/
def Die.poisonPane (d : Die) (t : Txn) : Die :=
  d.pageOp (pageOf t.dla) (.poison (t.dla / 512 % 8) t.kidx)

/-- A granule failed on its re-read (R237, R295): it, or its pane, is poisoned. -/
def Die.secondFail (d : Die) (t : Txn) (g code : Nat) : Die :=
  let d1 := d.noteMemFail g code t.master t.ten t.ta
  let d2 := if t.paneLen < 8 then d1.poisonPane t else d1.poisonGranule g t.wantKind t.kidx (bayOf t.dla) t.charge
  d2.logPoison t.dla

/-- Deliver a request's line: data to the requester, or the merged line stored (R227, R345). -/
def Die.deliverLine (d : Die) (t : Txn) (l : Line) : Die :=
  if t.op = .wrPart then
    let d1 := d.storeLine t (t.need.headD 0) (mergeLine l t.data t.mask)
    d1.complete t (.cmp t.grant)
  else d.complete t (.data l t.grant)

/-- Every granule wanted has come back (R291, R293, R295). -/
def Die.finishRead (d : Die) (t : Txn) : Die :=
  let res := t.need.map fun g => ((t.got.find? fun x => decide (x.1 = g)).map Prod.snd).getD .lost
  let lines := res.filterMap fun r => match r with
    | .data l => some l
    | _ => none
  if lines.length ≠ res.length then (d.dropXfers t.id).complete t t.failed
  else if t.paneLen = 8 then d.deliverLine t (lines.headD 0)
  else
    let c := d.decode t.ch t.paneLen lines t.slip t.master t.ten (t.need.headD 0)
    match c.1 with
    | some ls => c.2.deliverLine t (ls.getD (t.dla / 64 % 8) 0)
    | none => ((c.2.mediaEvent t.ten t.ta).poisonPane t).complete t t.failed

/-- Note one granule's result; the request ends when all are in. -/
def Die.addGot (d : Die) (t : Txn) (g : Nat) (r : GRes) : Die :=
  let t1 : Txn := { t with got := t.got ++ [(g, r)] }
  if t1.need.all fun x => t1.got.any fun y => decide (y.1 = x) then d.finishRead t1
  else d.setTxn { t1 with stage := if t1.retry = [] then .mem else .test }

/-- A granule's verdict (R224) is in: `again` on the re-read. -/
def Die.granuleResult (d : Die) (t : Txn) (g : Nat) (r : GRes) (corrected again : Bool) : Die :=
  let d := match again, r with
    | true, .fail _ => d.stuEnd 1 (d.dimmUnit g) 0 2
    | true, _ => d.stuEnd 1 (d.dimmUnit g) 0 1
    | false, _ => d
  let good (d : Die) : Die :=
    if again then d.noteTransient g t.master t.ten else if corrected then d.noteCorrected g t.master t.ten t.charge else d
  match r with
  | .data _ => (good d).addGot t g r
  | .poisoned => (d.count R.itrPoisonRead 1).addGot t g r
  | .keyMismatch => (d.noteMismatch g t.master t.ten t.ta).addGot t g r
  | .lost => d.addGot t g r
  | .fail c =>
    if again ∨ d.flt.stuDisabled then (d.secondFail t g c).addGot t g r
    else d.startRetry t g c

/-- A line whose cached copy was rejected goes on as a miss (R344): it draws its transfer now, or it is best effort and takes an entry or
waits for one. -/
def Die.missAfter (d : Die) (t : Txn) (g : Nat) : Die :=
  let t1 : Txn := { t with mayFill := true, stage := .mem }
  let r := if t1.con.isSome then d.drawFor t1 t1.ch 1 else (none, d)
  if r.1.isSome then (r.2.setTxn { t1 with con := r.1 }).queueRead { t1 with con := r.1 } g
  else
    let t2 := t1.bestEffort
    if !(r.2.mayTake t2.ch t2.louvre && r.2.oldestHeld t2) then r.2.toHold t2
    else
      let t3 : Txn := { t2 with own := some r.2.seq, since := r.2.transom, age := r.2.seq }
      ((r.2.takeEntry r.2.seq t2.ch t2.louvre (t.master ≠ 12)).setTxn t3).queueRead t3 g

/-- One granule arrives for a request: the counter may be missing (R249), a cached line may be rejected (R344). -/
def Die.arrive (d : Die) (t0 : Txn) (g : Nat) (a : Arrival) (again : Bool) : Die :=
  let t : Txn := { t0 with slip := t0.slip || a.slip }
  if d.itr.isLost g then d.granuleResult t g .lost false again
  else match d.bufferedBefore g t.seq with
    | some e => d.granuleResult t g (e.read (d.substIndex (bayOf t.dla) t.kidx (kicOf e.kidx))) false again
    | none =>
      let ks := t.ks.find? fun x => decide (x.1 = g)
      match (ks.map fun x => (x.2.1, x.2.2.1)) <|> d.itr.counter g with
      | none =>
        let n := (d.chan t.ch).lane
        ((d.fetchCounter g t.charge).count (R.cryKsWait n) 1).setTxn { t with arrived := t.arrived ++ [(g, a)], stage := .counter }
      | some (maj, mnr) =>
        let d := { d with itr := d.itr.touch (nodeKey 0 (nodeIdx 0 g)) }
        let keyOf (k : Nat) : Nat := if k = t.kidx then (ks.map fun x => x.2.2.2).getD (d.slot k).key else (d.slot k).key
        if mnr = 0 then d.granuleResult t g (.data 0) false again
        else if ks.isNone ∧ !d.hasKey t.kidx then
          let n := (d.chan t.ch).lane
          ((d.event (R.cryEvent n) 0).keyRefuse t.master t.ten t.ta t.kidx).addGot t g .poisoned
        else
          let hit := if t.want0 ∧ !t.mayFill ∧ !again ∧ d.bayCache (bayOf t.dla) then d.lookup g t.kidx else none
          match hit with
          | some w =>
            let x := ((d.way (hbSet g) w).getD { data := 0, tag := 0, kic := 0, ptag := 0 }).granule
            let k := d.substIndex (bayOf t.dla) t.kidx x.kic
            let is := [scDev, scLouvre t.louvre, scTen t.ten]
            match verdict (keyOf k) k g maj mnr 0 (arrivedGranule a x) .clean with
            | .data l => ((d.count R.hbcHit 1).tally 0x30 1 is).granuleResult t g (.data l) false again
            | _ => (((d.dropWay (hbSet g) w).count R.hbcReject 1).tally 0x31 1 is).missAfter t g
          | none =>
            let under (x : Granule) : Nat := d.substIndex (bayOf t.dla) t.kidx x.kic
            let dec := decodedBy a (fun x => tagVerifies x (keyOf (under x)) (under x) g maj mnr) (d.heldGranule g)
            let gr := dec.1
            let k := under gr
            let sub := decide (k ≠ t.kidx)
            let d1 := if sub then d.count (R.crySubstRead (d.chan t.ch).lane) 1 else d
            let r := verdict (keyOf k) k g maj mnr t.wantKind gr dec.2
            let ok : Bool := match r with
              | .data _ => true
              | _ => false
            let host := decide (t.master < 6 ∨ t.master = 9)
            let d2 := if ok && t.mayFill && t.want0 && !sub && host && d1.bayCache (bayOf t.dla) then d1.fill g k t.louvre gr else d1
            d2.granuleResult t g r (mended a) again

/-- A granule of a request may come back now: its transfer has issued, and it has not come back before. -/
def Die.expects (d : Die) (t : Txn) (g : Nat) : Bool :=
  (match t.stage with
    | .mem | .counter | .test => true
    | _ => false) && t.need.contains g && !(t.got.any fun x => decide (x.1 = g)) &&
  !(t.retry.any fun x => decide (x.1 = g)) && !(t.arrived.any fun x => decide (x.1 = g)) &&
  !(d.xfers.any fun x => decide (x.txn = some t.id) && decide (x.dga = g)) && !d.hbmWaits (.lookup t.id)

def execGranuleReadReturn (txn dga : Nat) (a : Arrival) (s : State) : Host.Outcome State Fault Refusal :=
  onLive s fun d =>
    match d.txn? txn with
    | some t => if d.expects t dga then d.arrive t dga a false else d
    | none => d

/-- Let go on the requests whose granules wait in the lane for a counter that is now known (R249). -/
def Die.resumeArrived (d : Die) : Die :=
  d.txns.foldl (fun d u =>
    u.arrived.foldl (fun d x =>
      match d.txn? u.id with
      | some t =>
        if (d.itr.counter x.1).isSome || d.itr.isLost x.1 then
          d.arrive { t with arrived := t.arrived.filter fun y => decide (y.1 ≠ x.1), stage := if t.retry = [] then .mem else .test } x.1 x.2 false
        else d
      | none => d) d) d

/-- A re-read ends (R237): its outcome decides. -/
def execLineTestDone (txn dga : Nat) (a : Arrival) (s : State) : Host.Outcome State Fault Refusal :=
  onLive s fun d =>
    match d.txn? txn with
    | none => d
    | some t =>
      if !(t.retry.any fun x => decide (x.1 = dga)) then d
      else
        let mine (x : Test) : Bool := decide (x.kind = 1) && decide (x.row = txn) && decide (x.seq = dga / 64 % 65536)
        if !(d.flt.tests.any fun x => mine x && x.running) then d
        else
          let rest := d.flt.tests.filter fun x => !mine x
          let d1 := ({ d with flt := { d.flt with tests := rest } }.closeReread (.granule txn dga)).startTests
          let d2 := d1.count R.stuLineTests 1
          d2.arrive { t with retry := t.retry.filter fun x => decide (x.1 ≠ dga) } dga a true

/-! ## Best-effort entries (R117, R120, R121) -/

def execBeQueueEntryTake (txn : Nat) (s : State) : Host.Outcome State Fault Refusal :=
  onLive s fun d =>
    match d.txn? txn with
    | some t =>
      if t.stage = .hold ∧ d.oldestHeld t ∧ d.mayTake t.ch t.louvre then d.passOne t false else d
    | none => d

/-! ## Stores -/

/-- A read accepted before a store of the same granule is still outstanding (R300). -/
def Die.readBefore (d : Die) (e : LaneEnt) : Bool :=
  d.txns.any fun t => (match t.stage with
    | .mem | .counter | .test => true
    | _ => false) && decide (t.seq < e.seq) && t.need.contains e.dga && !(t.got.any fun x => decide (x.1 = e.dga))

/-- Write-back-lane data waits for one of its 64 entries of the lane's write buffer, in order (R168). -/
def Die.wbWaits (d : Die) (e : LaneEnt) : Bool :=
  e.wb && decide (64 ≤ (d.lane.filter fun x => x.wb && decide (x.ch = e.ch) && decide (x.seq < e.seq)).length)

/-- The stores a lane can take, in order: per granule in order (R226), none that a read still precedes. -/
def Die.storesReady (d : Die) (ch : Nat) : List LaneEnt :=
  d.lane.filter fun e => decide (e.ch = ch) && !d.readBefore e && !d.wbWaits e &&
    !(d.lane.any fun x => decide (x.dga = e.dga) && decide (x.seq < e.seq))

/-- The first of them. -/
def Die.nextStore (d : Die) (ch : Nat) : Option LaneEnt := (d.storesReady ch).head?

def Die.dropEnt (d : Die) (e : LaneEnt) : Die := { d with lane := d.lane.filter fun x => decide (x.seq ≠ e.seq) }

/-- Queue an encrypted granule's DRAM write (R28, R250). -/
def Die.queueWrite (d : Die) (e : LaneEnt) (g : Granule) : Die :=
  let cls := if e.raw.isNone ∧ (e.master < 6 ∨ e.master = 9 ∨ e.master = 12 ∨ e.master = 13) then slotData else slotMeta
  let w : WqEnt := { seq := d.seq, dga := e.dga, g := g }
  let d1 : Die := { d with wq := d.wq ++ [w] }
  d1.queueXfer { seq := 0, ch := 0, write := true, dga := e.dga, txn := none, own := e.own, line := some (e.dla / 64), wop := none,
                 group := e.group, deadline := e.deadline, louvre := e.louvre, since := e.since, age := e.age, slotCls := cls, con := e.con }

/-- A store that cannot be made is dropped with a poisoned write completion (R228, R233): its Cmp has gone, so the event record, or a
job's status, follows alone. -/
def Die.dropStore (d : Die) (e : LaneEnt) : Die :=
  let d1 := (d.dropEnt e).freeEntries
  if e.master = 9 then d1.jobLine e.tag e.dla .poisonWr
  else if e.master = 11 then d1.dumpLine e.tag false
  else match d1.ownerOf e.dla with
    | some (t, ta) => if e.master < 6 then d1.mediaEvent t ta else d1
    | none => d1

/-- Earned quarter-slots of a contract on a channel pay a re-encryption transfer, or its share is debited: that of the current transom,
or those of following ones (R231). -/
def Die.payReenc (d : Die) (con ch n : Nat) : Die :=
  (List.range n).foldl (fun (d : Die) (_ : Nat) =>
    let fresh (x : Draw) : Bool := decide (x.con = con) && decide (x.ch = ch) && decide (d.transom ≤ x.transom + 1)
    let have_ : Nat := (d.trs.earned.filter fresh).foldl (fun (a : Nat) (x : Draw) => a + x.n) 0
    if 4 ≤ have_ then
      let r := d.trs.earned.foldl (fun (a : Nat × List Draw) (x : Draw) =>
        if fresh x ∧ a.1 ≠ 0 then
          let k := min a.1 x.n
          (a.1 - k, if x.n = k then a.2 else a.2 ++ [{ x with n := x.n - k }])
        else (a.1, a.2 ++ [x])) (4, [])
      { d with trs := { d.trs with earned := r.2 } }
    else
      let one : Draw := { con := con, ch := ch, transom := d.transom, n := 1 }
      let share := ((d.trs.contracts.find? con).map (·.use.share)).getD 0
      if d.shareLeft con ch d.transom share = 0 then { d with trs := { d.trs with debt := d.trs.debt ++ [one] } }
      else { d with trs := { d.trs with drawn := one :: d.trs.drawn } }) d

/-- Requests waiting for a place in a lane's write buffer get it, contract lines first by deadline, then the oldest. -/
def Die.laneRoom (d : Die) (ch : Nat) : Die :=
  let key (t : Txn) : Nat × Nat := if t.con.isSome then (0, t.deadline) else (1, t.id)
  let ts := (d.txns.filter fun t => decide (t.stage = .laneWait) && decide (t.ch = ch)).mergeSort fun a b =>
    decide ((key a).1 < (key b).1 ∨ ((key a).1 = (key b).1 ∧ (key a).2 ≤ (key b).2))
  ts.foldl (fun (d : Die) t => if d.laneFull ch then d else d.passOne t t.promoted.isSome) d

/-- A lane takes one buffered store (R226, R229–R233, R250, R347), and whether it left the buffer: one whose leaf is still to come, or
that R215 or R232 holds back, waits. -/
def Die.tryStore (d : Die) (e : LaneEnt) : Bool × Die :=
  match e.raw with
  | some g => (true, (d.dropEnt e).queueWrite e g)
  | none =>
    if e.fill then (true, (d.dropEnt e).queueWrite e fillGranule)
    else if !d.hasKey e.kidx then (true, ((d.event (R.cryEvent (d.chan e.ch).lane) 0).keyRefuse e.master 0xffff 0 e.kidx).dropStore e)
    else if d.itr.isLost e.dga then (true, d.dropStore e)
    else
      let charge : Charge := { group := if e.con.isSome ∨ e.group ≠ 4 then 3 else 4, due := e.deadline, louvre := e.louvre, con := e.con }
      let put (d : Die) (maj mnr : Nat) : Die :=
        let g := sealGranule (d.slot e.kidx).key e.kidx e.dga maj mnr e.kind e.poison e.data
        let d1 := ((d.dropEnt e).dropReads (.reenc e.dga)).queueWrite e g
        if e.cache && !e.poison && d1.bayCache e.bay then d1.storeUpdate e.dga g else d1
      if e.reenc then
        match d.itr.latest 0 (nodeIdx 0 e.dga) with
        | some n => (true, put (d.clearPending (nodeIdx 0 e.dga) (slotIn e.dga)) n.major 1)
        | none => (false, d.fetchCounter e.dga charge)
      else match d.raiseCounter e.dga charge.group e.louvre e.con with
        | .ok maj mnr d1 => (true, put d1 maj mnr)
        | .wait d1 => (false, d1.fetchCounter e.dga charge)
        | .full d1 => (false, d1)
        | .ended d1 => (true, d1.dropStore e)

/-- A crypto lane takes the first store that need not wait, and the place it leaves goes to a waiting request. -/
def Die.laneStore (d : Die) (ch : Nat) : Die :=
  ((d.storesReady ch).foldl (fun (a : Bool × Die) e => if a.1 then a else a.2.tryStore e) (false, d)).2.laneRoom ch

def execLaneStore (ch : Nat) (s : State) : Host.Outcome State Fault Refusal :=
  onLive s fun d => if 16 ≤ ch ∨ (d.chan ch).excluded then d else d.laneStore ch

/-! ## The channel's plan (R96, R127–R129, R136, R531) -/

/-- Order two waiting transfers of a channel (R127): within one priority the louvres take turns after the one served last, and within
one louvre the oldest entry goes first. -/
def Die.before (d : Die) (a b : Xfer) : Bool :=
  if a.group ≠ b.group then decide (a.group < b.group)
  else if a.group = 2 then decide (a.deadline < b.deadline ∨ (a.deadline = b.deadline ∧ a.seq < b.seq))
  else if a.group = 3 then decide (a.seq < b.seq)
  else
    let pa := d.prioOf a.louvre a.since; let pb := d.prioOf b.louvre b.since
    if pa ≠ pb then decide (pb < pa)
    else
      let last := Tbl.get 0 (d.chan a.ch).turn pa
      let turn (v : Nat) : Nat := (v + 511 - last) % 256
      if a.louvre ≠ b.louvre then decide (turn a.louvre < turn b.louvre)
      else decide (a.age < b.age ∨ (a.age = b.age ∧ a.seq < b.seq))

/-- A transfer keeps the order of its granule's accesses (R129). -/
def Die.mayIssue (d : Die) (x : Xfer) : Bool := !(d.xfers.any fun y => decide (y.dga = x.dga) && decide (y.seq < x.seq))

/-- The next transfer of a channel; best-effort ones only while the throttle level leaves slots (R136). -/
def Die.pick (d : Die) (ch : Nat) (be : Bool) : Option Xfer :=
  (d.xfers.filter fun x => decide (x.ch = ch) && d.mayIssue x && (be || decide (x.group < 4))).foldl
    (fun (a : Option Xfer) x => match a with
      | none => some x
      | some y => if d.before x y then some x else some y) none

/-- Issue one transfer: a write's granule reaches DRAM. -/
def Die.issue (d : Die) (x : Xfer) : Die :=
  let d1 := { d with xfers := d.xfers.filter fun y => decide (y.seq ≠ x.seq) }
  let d2 := if x.write then
      match d1.wq.find? fun w => decide (w.dga = x.dga) with
      | some w => { d1 with wq := d1.wq.filter fun y => decide (y.seq ≠ w.seq) }.setGranule x.dga w.g
      | none => d1
    else d1
  let c := d2.chan x.ch
  let d3 := if x.group = 4 then
      d2.setChan x.ch { c with beUsed := c.beUsed + 1, turn := c.turn.set 0 (d2.prioOf x.louvre x.since) x.louvre }
    else d2
  d3.freeEntries

/-- Best-effort slots per transom at the channel's throttle level (R136). -/
def Die.beLimit (d : Die) (ch : Nat) : Option Nat :=
  let l := (d.chan ch).level
  if l = 0 then none
  else
    let b := d.schedulable ch - ceilDiv (d.loadQ ch) 4
    some (b * 100 / 2 ^ l / 100)

/-- Issue up to `n` transfers; answers those issued as (retired, contract retired, other). -/
def Die.issueMany (ch : Nat) : Nat → Die → Nat × Nat × Nat → (Nat × Nat × Nat) × Die
  | 0, d, a => (a, d)
  | n + 1, d, a =>
    let be := match d.beLimit ch with
      | some m => decide ((d.chan ch).beUsed < m)
      | none => true
    match d.pick ch be with
    | none => (a, d)
    | some x =>
      let a1 := if x.slotCls = slotData then (a.1 + 1, a.2.1 + (if x.group = 2 then 1 else 0), a.2.2) else (a.1, a.2.1, a.2.2 + 1)
      Die.issueMany ch n (d.issue x) a1

/-- Add to a channel's slot counter (R532): 0 retired, 1 wasted, 2 front-starved, 3 back-starved. -/
def Die.addSlots (d : Die) (ch k n : Nat) : Die :=
  if !d.counting then d
  else
    { d with pmu := { d.pmu with slots := d.pmu.slots.set 0 (4 * ch + k) ((Tbl.get 0 d.pmu.slots (4 * ch + k) + n) % 2 ^ 64) } }.tally
      (0x20 + k) n [scChan ch]

/-- One re-planning interval of 100 ns (R96, R531): `overhead` slots go to turnarounds and rank switches, `refresh` to refresh,
refresh management and scrub, and `blocked` free ones find every waiting transfer held by timing or bank state. -/
def Die.replan (d : Die) (ch overhead refresh blocked : Nat) : Die :=
  let slots := d.theoretical ch / 5
  if (d.chan ch).excluded ∨ !(d.chan ch).trained then d.addSlots ch 2 slots
  else
    let lost := min slots (overhead + refresh)
    let avail := slots - lost - min blocked (slots - lost)
    let held := d.flt.subst.any fun x => decide (x.2.2 = ch)
    let r := if held then ((0, 0, 0), d) else Die.issueMany ch avail d (0, 0, 0)
    let used := r.1.1 + r.1.2.2
    let idle := slots - lost - used
    let left := r.2.xfers.any fun x => decide (x.ch = ch)
    let d1 := ((r.2.addSlots ch 0 r.1.1).addSlots ch 1 (lost + r.1.2.2)).addSlots ch (if left then 3 else 2) idle
    (d1.tally 0x24 r.1.2.1 [scChan ch]).tally 0x25 (min refresh slots) [scChan ch]

def execChannelReplan (ch overhead refresh blocked : Nat) (s : State) : Host.Outcome State Fault Refusal :=
  onLive s fun d =>
    if 16 ≤ ch then d
    else match d.pwr.st with
      | .sl1 true | .sl3 | .sl3Exit => d
      | _ => if d.flt.drained || d.chanAsleep ch then d else d.replan ch overhead refresh blocked

end Sys2Proof.Machine
end

