-- ==== Sys2Proof/Machine/Home.lean ====
section
/-! DEFINITION. Machine/Home.lean: the home slice's coherence work (R141–R194): what each request needs (R160–R163), Busy lines,
snoops and their answers (R154–R156, R161, R172), write-back-lane messages (R168–R172), the directory's ways and recalls
(R180–R185), sweeps (R145, R146), silent members (R186–R189). -/

namespace Sys2Proof.Machine

/-! ## Places in the directory (R180, R181) -/

/-- HBM set of a line (R180). -/
def dirSet (dla : Nat) : Nat := (dla / 2 ^ 9 % 2 ^ 20) ^^^ (dla / 2 ^ 29 % 2 ^ 15)
/-- The HBM set with its home slice. -/
def hbmPlace (dla : Nat) : Nat := homeOf dla * 2 ^ 20 + dirSet dla
/-- The on-die set with its home slice. -/
def diePlace (dla : Nat) : Nat := homeOf dla * 2 ^ 16 + dirSet dla % 8192

/-- Lines that hold a way of this line's HBM set (R182): entries of domains that are not DOWN, and Busy lines that will. -/
def Die.hbmLines (d : Die) (dla : Nat) : List Nat :=
  ((d.home.dir.filter fun (e : Nat × DirEnt) => decide (hbmPlace (e.1 * 64) = hbmPlace dla) && !d.domDown e.2.dom).map Prod.fst ++
    (d.home.busy.filter fun (b : Busy) => decide (hbmPlace b.dla = hbmPlace dla) && decide (b.next.st ≠ DSt.i)).map fun (b : Busy) => b.dla / 64).eraseDups

/-- On-die ways of a line's set: 16 less those faulty beyond the slice's 64 spare entries (R184, R551). -/
def Die.dieWays (d : Die) (dla : Nat) : Nat :=
  let h := homeOf dla
  16 - (((d.home.waysOut.filter fun x => decide (x / 2 ^ 16 = h)).drop 64).filter fun x => decide (x = diePlace dla)).length

/-- Busy lines of a line's on-die set. -/
def Die.busyInSet (d : Die) (dla : Nat) : List Nat :=
  (d.home.busy.filter fun (b : Busy) => decide (diePlace b.dla = diePlace dla)).map fun (b : Busy) => b.dla / 64

/-- Every location of the on-die set is Busy (R184). -/
def Die.setBusyFull (d : Die) (dla : Nat) : Bool := decide (d.dieWays dla ≤ (d.busyInSet dla).length)

/-- The on-die directory holds the line. -/
def Die.dirHit (d : Die) (dla : Nat) : Bool :=
  match d.home.dir.find? (dla / 64) with
  | some e => e.onDie
  | none => false

/-- HBM address of a line's directory set (R180). -/
def dirAddr (dla : Nat) : Nat := 0x500000000 + homeOf dla * 0x8000000 + dirSet dla * 128

/-- HBM address of a way of that set (R180). -/
def dirWayAddr (dla w : Nat) : Nat := dirAddr dla + w * 8

/-- HBM ways of a line's set that others hold or will hold (R182). -/
def Die.waysHeld (d : Die) (dla : Nat) : List Nat :=
  ((d.home.dir.filter fun (e : Nat × DirEnt) => decide (hbmPlace (e.1 * 64) = hbmPlace dla) && decide (e.1 ≠ dla / 64) && !d.domDown e.2.dom).map
    fun (e : Nat × DirEnt) => e.2.way) ++
  (d.home.busy.filter fun (b : Busy) => decide (hbmPlace b.dla = hbmPlace dla) && decide (b.dla ≠ dla / 64 * 64) && decide (b.next.st ≠ DSt.i)).map
    fun (b : Busy) => b.way

/-- The HBM way of a line: its entry's, else the lowest free one. -/
def Die.wayFor (d : Die) (dla : Nat) : Nat :=
  match d.home.dir.find? (dla / 64) with
  | some e => e.way
  | none => ((List.range 16).find? fun w => !(d.waysHeld dla).contains w).getD 0

/-- An entry leaves the on-die directory: a modified one is written to its HBM way (R181). A denied write leaves no entry (R417). -/
def Die.dirEvict (d : Die) (k : Nat) (e : DirEnt) : Die :=
  let r := if e.dirty then d.hbm 2 0 (dirWayAddr (k * 64) e.way) 14 true (.dirWrite (k * 64)) else (true, d)
  let h := r.2.home
  let e1 : DirEnt := { e with onDie := false, dirty := false, inHbm := true }
  { r.2 with home := { h with dir := if r.1 then h.dir.insert k e1 else h.dir.erase k } }

/-- Make room for a line in its on-die set: an entry that is not Busy goes to HBM (R150, R181). DESIGN CHOICE: the spec names no
replacement policy for the on-die directory; the least recently used one goes (log entry 124). -/
def Die.dieRoom (d : Die) (dla : Nat) : Die :=
  let busy := d.busyInSet dla
  let mine := d.home.dir.filter fun (e : Nat × DirEnt) =>
    e.2.onDie && decide (diePlace (e.1 * 64) = diePlace dla) && !busy.contains e.1
  if busy.contains (dla / 64) ∨ d.dirHit dla ∨ busy.length + mine.length < d.dieWays dla then d
  else
    let pick := mine.foldl (fun (a : Option (Nat × DirEnt)) (e : Nat × DirEnt) => match a with
      | none => some e
      | some x => if e.2.lru < x.2.lru then some e else some x) none
    match pick with
    | some (k, e) => d.dirEvict k e
    | none => d

/-- A line's entry is used (R181, R182). -/
def Die.touchDir (d : Die) (dla : Nat) : Die :=
  match d.home.dir.find? (dla / 64) with
  | some e => { d with seq := d.seq + 1, home := { d.home with dir := d.home.dir.insert (dla / 64) { e with lru := d.seq } } }
  | none => d

/-- A fetched entry enters the on-die directory, in the place its Busy line holds (R181). -/
def Die.dirLoad (d : Die) (dla : Nat) : Die :=
  match d.home.dir.find? (dla / 64) with
  | some e => { d with home := { d.home with dir := d.home.dir.insert (dla / 64) { e with onDie := true } } }
  | none => d

/-! ## Members -/

/-- The domain a line belongs to. -/
def Die.domOf (d : Die) (dla : Nat) : Option Nat := d.domOfBay (bayOf dla)

/-- The TA of a domain line in the member's space on port `p`. -/
def Die.memberTa (d : Die) (n p dla : Nat) : Nat :=
  match (d.entriesOfBay (bayOf dla)).find? fun e => decide (d.entryOwner e = some (d.domTen n p)) with
  | some e => d.taOf e dla
  | none => dla % 2 ^ 30

/-- Is tenancy `t` on port `p` a member of domain `n`? -/
def Die.isMember (d : Die) (n p t : Nat) : Bool := d.domMember n p && decide (d.domTen n p = t)

/-- Ports of a sharer set. -/
def portsIn (v : Nat) : List Nat := (List.range 6).filter v.testBit
def addPort (v p : Nat) : Nat := if p < 6 then v ||| 2 ^ p else v
def dropPort (v p : Nat) : Nat := if v.testBit p then v - 2 ^ p else v

def Dir.own (p : Nat) : Dir := { st := .x, owner := p, sharers := 0 }
def Dir.share (v : Nat) : Dir := if v = 0 then Dir.i else { st := .s, owner := 0, sharers := v }
def Dir.owned (o v : Nat) : Dir := if v = 0 then Dir.own o else { st := .o, owner := o, sharers := v }

/-- A port leaves the holders by CleanEvict (R160). -/
def Dir.evict (x : Dir) (p : Nat) : Dir :=
  match x.st with
  | .i => x
  | .x => if x.owner = p then Dir.i else x
  | .s => Dir.share (dropPort x.sharers p)
  | .o => Dir.owned x.owner (dropPort x.sharers p)

/-- The owner leaves: by WrBack, or where it answers without keeping the line (R160, R161). -/
def Dir.ownerLeaves (x : Dir) : Dir :=
  match x.st with
  | .x => Dir.i
  | .o => Dir.share x.sharers
  | _ => x

/-! ## What a request needs (R160–R163) -/

/-- Snoops to send (port, kind, F), the next state if the owner answers as expected, and the request as it is served. -/
structure CohPlan where
  snoops : List (Nat × Snp × Bool)
  next : Dir
  op : Op
  deriving DecidableEq, Repr

/-- SnpInv with F = 0 to a sharer set. -/
def invAll (v : Nat) : List (Nat × Snp × Bool) := (portsIn v).map fun p => (p, Snp.inv, false)

/-- RdOwn by port `r` (R160, R162); `none`: a protocol violation (R163). -/
def planOwn (x : Dir) (r : Nat) : Option CohPlan :=
  match x.st with
  | .i => some { snoops := [], next := Dir.own r, op := .rdOwn }
  | .s => some { snoops := invAll (dropPort x.sharers r), next := Dir.own r, op := .rdOwn }
  | .x => some { snoops := if x.owner = r then [] else [(x.owner, .inv, true)], next := Dir.own r, op := .rdOwn }
  | .o =>
    if x.owner = r then none
    else some { snoops := (x.owner, .inv, true) :: invAll (dropPort x.sharers r), next := Dir.own r, op := .rdOwn }

/-- What R160 gives for a request of port `r` (an internal master: 6 or above) on a line in state `x`. -/
def cohPlan (op : Op) (x : Dir) (r : Nat) : Option CohPlan :=
  match op with
  | .rdShared =>
    match x.st with
    | .i => some { snoops := [], next := Dir.own r, op := op }
    | .s => some { snoops := [], next := Dir.share (addPort x.sharers r), op := op }
    | .x =>
      if x.owner = r then some { snoops := [], next := Dir.own r, op := op }
      else some { snoops := [(x.owner, .shared, true)], next := Dir.owned x.owner (addPort 0 r), op := op }
    | .o =>
      if x.owner = r then none
      else some { snoops := [(x.owner, .shared, true)], next := Dir.owned x.owner (addPort x.sharers r), op := op }
  | .rdOwn => planOwn x r
  | .rdOwnNoData =>
    match x.st with
    | .i => planOwn x r
    | .s =>
      if x.sharers.testBit r then some { snoops := invAll (dropPort x.sharers r), next := Dir.own r, op := op } else planOwn x r
    | .x => if x.owner = r then some { snoops := [], next := Dir.own r, op := op } else planOwn x r
    | .o =>
      if x.owner = r then some { snoops := invAll x.sharers, next := Dir.own r, op := op }
      else if x.sharers.testBit r then
        some { snoops := (x.owner, .inv, false) :: invAll (dropPort x.sharers r), next := Dir.own r, op := op }
      else planOwn x r
  | .rd | .rdCur =>
    match x.st with
    | .i | .s => some { snoops := [], next := x, op := .rdCur }
    | .x =>
      if x.owner = r then some { snoops := [], next := Dir.i, op := .rdCur }
      else some { snoops := [(x.owner, .cur, true)], next := x, op := .rdCur }
    | .o => if x.owner = r then none else some { snoops := [(x.owner, .cur, true)], next := x, op := .rdCur }
  | .wr =>
    match x.st with
    | .i => some { snoops := [], next := Dir.i, op := op }
    | .s => some { snoops := invAll x.sharers, next := Dir.i, op := op }
    | .x => some { snoops := [(x.owner, .inv, false)], next := Dir.i, op := op }
    | .o => some { snoops := (x.owner, .inv, false) :: invAll x.sharers, next := Dir.i, op := op }
  | .wrPart =>
    match x.st with
    | .i => some { snoops := [], next := Dir.i, op := op }
    | .s => some { snoops := invAll x.sharers, next := Dir.i, op := op }
    | .x => some { snoops := [(x.owner, .inv, true)], next := Dir.i, op := op }
    | .o => some { snoops := (x.owner, .inv, true) :: invAll x.sharers, next := Dir.i, op := op }

/-- Sharers beside the owner. -/
def Dir.others (x : Dir) : Nat := if x.st = .o then x.sharers else 0

/-- The next state and grant once the owner has answered (R160, R161, R178): `keep` how it keeps the line, `dirty` whether data
dirty with respect to memory came. -/
def afterAnswer (op : Op) (x : Dir) (r : Nat) (keep : Option Rsp) (dirty : Bool) : Dir × GrantSt :=
  match op with
  | .rdShared =>
    match keep with
    | some .rspOData => (Dir.owned x.owner (addPort x.others r), .s)
    | some .rspSData | some .rspS => (Dir.share (addPort (addPort x.others x.owner) r), .s)
    | _ => let v := dropPort x.others r; if v = 0 then (Dir.own r, .e) else (Dir.share (addPort v r), .s)
  | .rdOwn => (Dir.own r, if dirty then .m else .e)
  | .rdOwnNoData => (Dir.own r, .m)
  | .rd | .rdCur => (if keep.isSome then x else x.ownerLeaves, .none)
  | .wr | .wrPart => (Dir.i, .none)

/-- The grant of a request served without an answer (R160). -/
def plainGrant (op : Op) (next : Dir) : GrantSt :=
  match op with
  | .rdShared => if next.st = .x then .e else .s
  | .rdOwn => .e
  | .rdOwnNoData => .m
  | _ => .none

/-! ## Snoops -/

/-- Send the snoops of a Busy line (R154): due from now. -/
def Die.sendSnoops (d : Die) (n dla : Nat) (l : List (Nat × Snp × Bool)) : Die :=
  l.foldl (fun d s =>
    let t := d.domTen n s.1
    let d1 := d.emit (.biSnp s.1 (d.memberTa n s.1 dla) s.2.1 (s.2.2 && d.domFcx n) (d.ten t).gen t (d.domFcx n) (d.devLoad t))
    d1.tally 0x42 1 [scSlice (homeOf dla), scPort s.1]) d

def snpOuts (time : Nat) (l : List (Nat × Snp × Bool)) : List SnpOut :=
  l.map fun s => { port := s.1, k := s.2.1, f := s.2.2, due := time, rsp := none, data := none, late := false }

/-- Mark a line Busy (R150, R165): it takes a place in its on-die set; `kept`: write-back data that came while its set was read. -/
def Die.openBusy (d : Die) (n dla : Nat) (txn : Option Nat) (fetch : Bool) (stable next : Dir) (l : List (Nat × Snp × Bool))
    (kept : List (Nat × Line × Nat)) : Die :=
  let d1 := d.dieRoom dla
  let b : Busy :=
    { dla := dla / 64 * 64, dom := n, txn := txn, fetch := fetch, way := d1.wayFor dla, stable := stable, next := next, was := stable,
      snoops := snpOuts d.time l, kept := kept, ack := none, lates := [] }
  { d1 with home := { d1.home with busy := (d1.home.busy.filter fun x => decide (x.dla ≠ b.dla)) ++ [b] } }

/-- Mark a line Busy for a transaction and send its snoops. -/
def Die.makeBusy (d : Die) (n dla : Nat) (txn : Option Nat) (stable next : Dir) (l : List (Nat × Snp × Bool))
    (kept : List (Nat × Line × Nat)) : Die :=
  (d.openBusy n dla txn false stable next l kept).sendSnoops n dla l

/-- Recall a line (R183): SnpInv with F = 1 to the owner and F = 0 to the sharers; it waits while its on-die set is all Busy (R184). -/
def Die.recall (d0 : Die) (dla : Nat) : Die :=
  let d := { d0 with home := { d0.home with recalls := d0.home.recalls.filter (· ≠ dla / 64) } }
  match d.home.dir.find? (dla / 64) with
  | none => d
  | some e =>
    if (d.busyOf dla).isSome then d
    else if d.setBusyFull dla then { d with home := { d.home with recalls := d.home.recalls ++ [dla / 64] } }
    else
      let l := match e.d.st with
        | .i => []
        | .s => invAll e.d.sharers
        | .x => [(e.d.owner, Snp.inv, true)]
        | .o => (e.d.owner, Snp.inv, true) :: invAll e.d.sharers
      let h := homeOf dla
      (d.count (R.chaRecallCount h) 1).makeBusy e.dom dla none e.d Dir.i l []

/-- The recalls of an on-die set that waited for a place in it start (R184). -/
def Die.startRecalls (d : Die) (dla : Nat) : Die :=
  (d.home.recalls.filter fun k => decide (diePlace (k * 64) = diePlace dla)).foldl (fun d k => d.recall (k * 64)) d

/-- An allocation that leaves fewer than two free ways starts a recall of the set's least recently used entry that is not Busy,
S before X and O (R182). -/
def Die.recallSet (d : Die) (dla : Nat) : Die :=
  let mine := d.home.dir.filter fun (e : Nat × DirEnt) =>
    decide (hbmPlace (e.1 * 64) = hbmPlace dla) && !d.domDown e.2.dom && (d.busyOf (e.1 * 64)).isNone &&
      !d.home.recalls.contains e.1
  let pick := mine.foldl (fun (a : Option (Nat × DirEnt)) (e : Nat × DirEnt) => match a with
    | none => some e
    | some x =>
      let es := decide (e.2.d.st = DSt.s); let xs := decide (x.2.d.st = DSt.s)
      if (es && !xs) || (decide (es = xs) && decide (e.2.lru < x.2.lru)) then some e else some x) none
  match pick with
  | some (k, _) => d.recall (k * 64)
  | none => d

/-- A recall of the line's set already runs or waits. -/
def Die.recalling (d : Die) (dla : Nat) : Bool :=
  (d.home.recalls.any fun k => decide (hbmPlace (k * 64) = hbmPlace dla)) || d.home.busy.any fun (b : Busy) => decide (hbmPlace b.dla = hbmPlace dla) && b.txn.isNone && b.ack.isNone

/-! ## Stores by the home -/

/-- A line written to memory by the home: write-back data, dirty data left without an owner (R160, R161, R168). A mapped page's
line goes to its page home unless the page is PLAIN and not moving (R296, R335). -/
def Die.homeStore (d : Die) (dla : Nat) (data : Line) (kidx port : Nat) : Die :=
  let bay := bayOf dla
  let ten := match d.domOf dla with
    | some n => d.domTen n port
    | none => (d.ownerOf dla).elim 0 Prod.fst
  let e0 : LaneEnt := { LaneEnt.base with
    dla := dla / 64 * 64, data := data, kidx := kidx, bay := bay, cache := d.bayCache bay, master := port, louvre := d.tenLouvre ten, wb := true }
  let put (d : Die) (g : Nat) : Die :=
    if (d.chan (d.chanOf g)).excluded || d.retiredRow g || d.itr.isLost g then
      match d.ownerOf dla with
      | some (t, ta) => d.mediaEvent t ta
      | none => d
    else if !d.granuleOk g port true then d.regionDeny (d.chanOf g) g port ten true
    else d.push { e0 with dga := g }
  if !mappedBay bay then put d (dla / 64 * 64)
  else
    let page := pageOf dla; let e := d.pgEntry page
    let busy := d.pmap.ops.any fun (o : PageOp) => decide (o.page = page)
    if e.st = .plain ∧ !e.move ∧ !busy then put d (e.dga (dla / 64 % 64))
    else if e.st = .lost then d
    else
      let d1 := { d with pmap := { d.pmap with wpend := d.pmap.wpend ++ [dla / 64] } }
      d1.pageOp page (.wb (dla / 64 * 64) data kidx port (d.tenLouvre ten)) (some (dla / 64))

/-! ## Answers -/

/-- A data-carrying response (R155). -/
def rspCarries : Rsp → Bool
  | .rspIData | .rspSData | .rspOData | .rspCurData => true
  | _ => false

/-- A snoop is answered in full (R155, R172, R186). -/
def Busy.answered (b : Busy) (s : SnpOut) : Bool :=
  match s.rsp with
  | none => false
  | some (r, _) =>
    if rspCarries r then s.data.isSome
    else if r = Rsp.rspIWbPending then b.kept.any fun k => decide (k.1 = s.port)
    else true

/-- The data the snooped owner gave: line, index, dirty, and whether it came with the response (R161, R172). -/
def Busy.given (b : Busy) : Option (Line × Nat × Bool × Bool) :=
  match b.snoops.find? fun s => s.data.isSome && (match s.rsp with | some (r, _) => rspCarries r | none => false) with
  | some s => match s.data, s.rsp with
    | some (l, k), some (_, dirty) => some (l, k, dirty, true)
    | _, _ => none
  | none => match b.kept with
    | (_, l, k) :: _ => some (l, k, true, false)
    | [] => none

/-- How the recorded owner keeps the line, by its answer. -/
def Busy.keep (b : Busy) : Option Rsp :=
  match b.snoops.find? fun s => decide (s.port = b.was.owner) && decide (b.was.st = .x ∨ b.was.st = .o) with
  | some s => match s.rsp with
    | some (r, _) => if r = .rspOData ∨ r = .rspSData ∨ r = .rspS ∨ r = .rspCurData then some r else none
    | none => none
  | none => none

/-- Data reaches a request without a channel: a contract line stays admitted under its first matching contract. -/
def Txn.relayed (t : Txn) : Txn :=
  { t with con := if t.cls = 4 then none else t.matched.head?.map Prod.fst, ch := 16 }

/-- Every snoop of a Busy line is answered: the transaction goes on (R160, R161), or the recall ends (R183). -/
def Die.resolveBusy (d : Die) (b : Busy) : Die :=
  let g := b.given
  let dirty := g.any fun x => x.2.2.1
  let h := homeOf b.dla
  match b.txn.bind d.txn? with
  | none =>
    let d1 := match g with
      | some (l, k, true, _) => d.homeStore b.dla l k (if b.was.st = DSt.s then 0 else b.was.owner)
      | _ => d
    (d1.setDir b.dla b.dom Dir.i).clearBusy b.dla
  | some t =>
    let snooped := decide (b.snoops ≠ [])
    let r := if t.master < 6 then t.port else 6
    let owner := b.snoops.any fun s => decide (s.port = b.was.owner) && decide (b.was.st = .x ∨ b.was.st = .o)
    let ng := if snooped ∧ owner then afterAnswer t.op b.was r b.keep dirty else (b.next, plainGrant t.op b.next)
    let d1 := d.setBusy { b with next := ng.1 }
    let t1 : Txn := { t with grant := ng.2 }
    match t.op, g with
    | .rdOwnNoData, _ => d1.complete t1.relayed (.cmp ng.2)
    | .wr, _ => d1.passOne t1 false
    | .wrPart, some (l, k, _, rel) =>
      let d2 := if rel then (d1.count (R.chaFwdCount h) 1).tally 0x43 1 [scSlice h] else d1
      let t2 : Txn := { t1 with op := .wr, data := mergeLine l t.data t.mask, kidx := if t.master < 6 then t.kidx else k }
      (d2.setTxn t2).passOne t2 false
    | .wrPart, none => d1.passOne t1 false
    | op, some (l, k, _, rel) =>
      let left := dirty && (match op with
        | .rdShared => decide (ng.1.st ≠ .o)
        | .rdCur | .rd => b.keep.isNone
        | _ => false)
      let d2 := if left then d1.homeStore b.dla l k b.was.owner else d1
      let d3 := if rel then (d2.count (R.chaFwdCount h) 1).tally 0x43 1 [scSlice h] else d2
      d3.complete t1.relayed (.data l ng.2)
    | _, none => (d1.setTxn t1).passOne t1 false

/-- Go on with a Busy line when its last answer is in. -/
def Die.tryResolve (d : Die) (dla : Nat) : Die :=
  match d.busyOf dla with
  | some b => if b.ack.isNone ∧ b.snoops ≠ [] ∧ b.snoops.all b.answered then d.resolveBusy b else d
  | none => d

/-! ## Serving a request -/

/-- A protocol violation (R163): counted; the caller completes a read poisoned, and a write or notice with Cmp. -/
def Die.protocol (d : Die) (dla master ten ta : Nat) : Die :=
  let h := homeOf dla
  ((d.count (R.chaProtoRefused h) 1).event (R.chaEvent h) 4).record (unitCha h) 0x13 0 master ten ta 0

/-- A request of a DOWN domain (R188). -/
def Die.fenced (d : Die) (t : Txn) : Die :=
  let d1 := if t.op.isWrite then d.count (R.chaFenced (homeOf t.dla)) 1 else d
  d1.complete t (if t.op.isWrite then .cmp .none else .poison)

/-- A request waits behind the recall of its set: one earlier transaction on its line (R183), counted once. -/
def Die.waitRecall (d : Die) (t : Txn) : Die :=
  let new := decide (t.stage ≠ .waitlist) || !d.recalling t.dla
  let late := d.home.busy.any fun b => decide (hbmPlace b.dla = hbmPlace t.dla) && b.txn.isNone && b.ack.isNone && b.lates.any (· ≠ t.master)
  let d1 := (d.event (R.chaEvent (homeOf t.dla)) 1).toWaitlist { t with waited := t.waited + b2n new, hostLate := t.hostLate || late }
  if d1.recalling t.dla then d1 else d1.recallSet t.dla

/-- Serve a request whose line's directory entry is at hand (R160, R165, R182); an allocation that leaves fewer than two free ways
starts a recall. -/
def Die.serve (d0 : Die) (n : Nat) (t : Txn) (kept : List (Nat × Line × Nat) := []) : Die :=
  let d := d0.touchDir t.dla
  let x := d.dirOf t.dla
  let r := if t.master < 6 then t.port else 6
  match cohPlan t.op x r with
  | none => (d.protocol t.dla t.master t.ten t.ta).complete t .poison
  | some p =>
    let alloc := decide (x.st = .i) && decide (p.next.st ≠ .i)
    if alloc ∧ 16 ≤ (d.hbmLines t.dla).length then d.waitRecall t
    else
      let t1 : Txn := { t with stage := .snoop, op := p.op, grant := plainGrant p.op p.next }
      let d1 := (d.setTxn t1).makeBusy n t.dla (some t.id) x p.next p.snoops kept
      let d2 := if alloc ∧ 14 < (d1.hbmLines t.dla).length then d1.recallSet t.dla else d1
      if p.snoops ≠ [] then d2
      else match d2.busyOf t.dla with
        | some b => d2.resolveBusy b
        | none => d2

/-- The request's line becomes Busy while its directory set is read from HBM (R165, R181); on a contract line's path the read is in the
first group of R351. -/
def Die.fetchDir (d : Die) (n : Nat) (t : Txn) : Die :=
  let d1 := (d.openBusy n t.dla (some t.id) true Dir.i Dir.i [] []).tally 0x41 1 [scSlice (homeOf t.dla)]
  let r := d1.hbm (if t.cls = 4 ∨ t.matched = [] then 2 else 1) t.deadline (dirAddr t.dla) 14 false (.dirFetch (t.dla / 64 * 64))
  if r.1 then r.2.setTxn { t with stage := .dirFetch } else r.2.complete t t.failed

/-- A commit that takes port `p` out of a domain has been requested: its requests wait, so that no line names it when it is made (R145;
DESIGN CHOICE, log entry 148). -/
def Die.leaving (d : Die) (n p : Nat) : Bool :=
  d.mgt.commits.any fun (r : CommitReq) => match r.cmd with
    | some (.domLeave _ k t) => decide (k = n) && decide (d.domTen n p = t)
    | some (.domDestroy _ k _) => decide (k = n)
    | _ => false

/-- A request whose entry has been emptied while it waited has lost its bay (log entry 148). -/
def Die.bayLost (d : Die) (t : Txn) : Bool := decide (t.master < 6) && decide ((d.bt t.entry).st = .empty)

/-- An ordered request to a line of a domain bay (R160, R166, R181, R184, R188). -/
def Die.coh (d : Die) (n : Nat) (t : Txn) : Die :=
  if d.domDown n then d.fenced t
  else if t.master < 6 ∧ d.leaving n t.port then d.toWaitlist t
  else if t.master < 6 ∧ !d.isMember n t.port t.ten then
    (d.protocol t.dla t.master t.ten t.ta).complete t (if t.op.isWrite then .cmp .none else .poison)
  else if d.lineBlocked t ∨ d.setBusyFull t.dla then d.toWaitlist t
  else
    let h := homeOf t.dla
    let d1 := d.tally 0x40 1 [scSlice h]
    if d1.dirHit t.dla then d1.serve n t else d1.fetchDir n t

/-- A read of the line's HBM directory set returns (R181, R185). -/
def Die.directoryFetched (d : Die) (dla : Nat) (e : Ecc) : Die :=
  let h := homeOf dla
  match d.txns.find? fun t => decide (t.stage = .dirFetch) && decide (t.dla / 64 = dla / 64) && !d.hbmWaits (.dirFetch (dla / 64 * 64)) with
  | none => d
  | some t =>
    match e with
    | .uncorrectable =>
      ((d.event (R.chaEvent h) 7).record (unitCha h) 0x11 1 0xff 0xffff (dirAddr dla) 0).allDomainsDown
    | _ =>
      let d1 := if e = .corrected then (d.event (R.chaEvent h) 6).record (unitCha h) 0x10 0 0xff 0xffff (dirAddr dla) 0 else d
      let d2 := if e = .corrected then (d1.hbm 2 0 (dirAddr dla) 14 true (.dirWrite (dla / 64 * 64))).2 else d1
      let kept := ((d2.busyOf dla).map (·.kept)).getD []
      let d3 := (d2.dirLoad dla).clearBusy dla
      match d3.domOf dla with
      | some n => d3.serve n t kept
      | none => d3.pass t

def execDirectoryFetchReturn (dla : Nat) (e : Ecc) (s : State) : Host.Outcome State Fault Refusal :=
  onLive s fun d => d.directoryFetched dla e

/-- The oldest waiting request for a line starts once nothing holds it (R166, R296), after the recalls of its set that wait for a place
(R184). A request the line is Busy for waits for its home's hold alone (R120). -/
def Die.startWaiting (d0 : Die) (dla : Nat) : Die :=
  let d := d0.startRecalls dla
  match d.txns.find? fun t => decide (t.stage = .waitlist) && decide (t.dla / 64 = dla / 64) with
  | none => d
  | some t =>
    if (d.busyOf dla).any fun b => decide (b.txn = some t.id) then d.passOne t false
    else if d.bayLost t then d.complete t (if t.op.isWrite then .cmp .none else .poison)
    else if d.lineBlocked t then d
    else match d.domOf t.dla with
      | some n => d.coh n t
      | none => d.passOne t false

def execWaitlistStart (dla : Nat) (s : State) : Host.Outcome State Fault Refusal :=
  onLive s fun d => d.startWaiting dla

/-! ## The write-back lane -/

/-- A message of a member that names an old generation or a DOWN domain (R189). -/
def Die.staleMsg (d : Die) (dla : Nat) : Die :=
  (d.count (R.chaStaleDiscard (homeOf dla)) 1).event (R.chaEvent (homeOf dla)) 2

/-- The Busy transaction of a line has snooped port `p` and waits for its answer, or will snoop it once the directory set is read
(R172). -/
def Die.snoops (d : Die) (b : Busy) (p : Nat) : Bool :=
  if b.fetch then
    match (b.txn.bind d.txn?).bind fun t => cohPlan t.op (d.dirOf b.dla) (if t.master < 6 then t.port else 6) with
    | some x => x.snoops.any fun s => decide (s.1 = p)
    | none => false
  else b.snoops.any fun s => decide (s.port = p) && !b.answered s

/-- WrBack of a domain line (R160, R163, R170, R172, R188): its Cmp is the caller's. -/
def Die.laneWrBack (d : Die) (n dla p ten ta : Nat) (data : Line) (kidx : Nat) : Die :=
  let owns (x : Dir) : Bool := decide (x.owner = p) && decide (x.st = .x ∨ x.st = .o)
  if d.domDown n then d.count (R.chaFenced (homeOf dla)) 1
  else match d.busyOf dla with
    | some b =>
      if d.snoops b p then
        if d.domFcx n then (d.setBusy { b with kept := b.kept ++ [(p, data, kidx)] }).tryResolve dla
        else d.homeStore dla data kidx p
      else if b.fetch then
        if owns (d.dirOf dla) then (d.homeStore dla data kidx p).setDir dla n (d.dirOf dla).ownerLeaves
        else d.protocol dla p ten ta
      else
        if owns b.next ∨ owns b.stable then
          let out (x : Dir) : Dir := if owns x then x.ownerLeaves else x
          (d.homeStore dla data kidx p).setBusy { b with stable := out b.stable, next := out b.next }
        else d.protocol dla p ten ta
    | none =>
      let x := d.dirOf dla
      if owns x then (d.homeStore dla data kidx p).setDir dla n x.ownerLeaves else d.protocol dla p ten ta

/-- CleanEvict of a domain line (R160, R175). -/
def Die.laneEvict (d : Die) (n dla p : Nat) : Die :=
  if d.domDown n then d
  else match (d.busyOf dla).filter fun b => !b.fetch with
    | some b => d.setBusy { b with stable := b.stable.evict p, next := b.next.evict p,
                                   was := if b.was.st = .x then b.was else b.was.evict p }
    | none => if (d.dirOf dla).st = .i then d else d.setDir dla n ((d.dirOf dla).evict p)

/-- CompAck (R158, R165): the line's next state is stable and Busy clears. -/
def Die.laneCompAck (d : Die) (n dla p : Nat) : Die :=
  match d.busyOf dla with
  | some b => match b.ack with
    | some (q, _, _) => if q = p then (d.setDir dla n b.next).clearBusy dla else d
    | none => d
  | none => d

/-- The data part of a snoop response (R155). -/
def Die.laneSnpData (d : Die) (dla p : Nat) (data : Line) (kidx : Nat) : Die :=
  match d.busyOf dla with
  | some b =>
    let up (s : SnpOut) : SnpOut := if s.port = p then { s with data := some (data, kidx) } else s
    (d.setBusy { b with snoops := b.snoops.map up }).tryResolve dla
  | none => d

/-- A snoop response (R154, R161, R163): a reserved RSP is a protocol violation. -/
def Die.laneRsp (d : Die) (dla p ten ta : Nat) (r : Rsp) (dirty : Bool) : Die :=
  if r = .reserved then d.protocol dla p ten ta
  else match d.busyOf dla with
    | some b =>
      let up (s : SnpOut) : SnpOut := if s.port = p ∧ s.rsp = none then { s with rsp := some (r, dirty) } else s
      (d.setBusy { b with snoops := b.snoops.map up }).tryResolve dla
    | none => d

/-! ## Silent members (R186, R187) -/

/-- A response or CompAck of port `p` is late (R93): for the transaction of its line and what waits behind it there, and, where it is a
recall's, for what waits for a way of the set (R183). What is ordered behind it later reads it from the Busy entry. -/
def Die.markHostLate (d : Die) (dla p : Nat) : Die :=
  let rec_ := (d.busyOf dla).any fun b => b.txn.isNone && b.ack.isNone
  let hit (t : Txn) : Bool := decide (t.dla / 64 = dla / 64) ||
    (rec_ && decide (t.stage = .waitlist) && decide (hbmPlace t.dla = hbmPlace dla) && (d.busyOf t.dla).isNone)
  let d1 := match d.busyOf dla with
    | some b => d.setBusy { b with lates := if b.lates.contains p then b.lates else p :: b.lates }
    | none => d
  (d1.txns.filter fun t => hit t && decide (t.master ≠ p)).foldl (fun d t => d.setTxn { t with hostLate := true }) d1

/-- A response or CompAck is late (R186). -/
def Die.snoopLate (d : Die) (dla p : Nat) : Die :=
  let h := homeOf dla
  let note (d : Die) : Die := ((d.count (R.chaSnpLate h) 1).event (R.chaEvent h) 3).markHostLate dla p
  match d.busyOf dla with
  | none => d
  | some b =>
    match b.ack with
    | some (q, some due, false) =>
      if q = p ∧ due + 50 ≤ d.time then note (d.setBusy { b with ack := some (q, some due, true) }) else d
    | some _ => d
    | none =>
      if b.snoops.any fun s => decide (s.port = p) && !b.answered s && !s.late && decide (s.due + 50 ≤ d.time) then
        let up (s : SnpOut) : SnpOut := if s.port = p then { s with late := true } else s
        note (d.setBusy { b with snoops := b.snoops.map up })
      else d

def execSnoopLate (dla port : Nat) (s : State) : Host.Outcome State Fault Refusal := onLive s fun d => d.snoopLate dla port

/-- The end of the SNP_TO-th full transom after `due`. -/
def Die.timeoutAt (d : Die) (n due : Nat) : Nat := (ceilDiv due 50 + d.domSnpTo n) * 50

/-- A member misses its timeout and its domain goes down (R187, R188). -/
def Die.memberTimeout (d : Die) (dla p : Nat) : Die :=
  match d.busyOf dla with
  | none => d
  | some b =>
    match b.ack with
    | some (q, some due, _) => if q = p ∧ d.timeoutAt b.dom due ≤ d.time then (d.markHostLate dla p).domainDown b.dom 2 p else d
    | some _ => d
    | none =>
      if b.snoops.any fun s => decide (s.port = p) && !b.answered s && decide (d.timeoutAt b.dom s.due ≤ d.time) then
        (d.markHostLate dla p).domainDown b.dom 1 p
      else d

def execMemberTimeout (dla port : Nat) (s : State) : Host.Outcome State Fault Refusal :=
  onLive s fun d => d.memberTimeout dla port

end Sys2Proof.Machine
end

