-- ==== Sys2Proof/Machine/HostMem.lean ====
section
/-! DEFINITION. Machine/HostMem.lean: CXL.mem messages from the hosts: tenancy identification (R46, R47, R359), credit (R58, R60),
the bay table (R360, R361, R83), keyhole indices (R255–R257), what each message means (R152, R153, R159, R178), ordering at the
home (R21, R121, R329, R381). -/

namespace Sys2Proof.Machine

/-! ## At the port -/

/-- The port carries CXL.mem (R35). -/
def Die.portReady (d : Die) (p : Nat) : Bool := decide (p < 6) && (d.port p).memServes

def Die.portFcx (d : Die) (p : Nat) : Bool := decide ((d.port p).mode = some .fcx)

/-- A request as received (R40, R81, R373). -/
def Die.newTxn (d : Die) (m : M2S) (op : Op) (ten entry dla kidx cls : Nat) (data : Line) (mask : BitVec 64) : Txn :=
  { id := d.home.nextTxn, master := m.port, port := m.port, ld := m.ld, tag := m.tag, ten := ten, gen := (d.ten ten).gen, op := op,
    ta := m.ta / 64 * 64, dla := dla, entry := entry, kidx := kidx, data := data, mask := mask, cls := cls, stamp := d.time,
    epoch := (d.port m.port).epoch, matched := if cls = 4 then [] else d.matching ten cls (bayOf dla), con := none,
    louvre := d.tenLouvre ten, fcx := d.portFcx m.port, stage := .port, ordered := false, ch := 16, need := [], got := [], wantKind := 0,
    paneLen := 8, subst := false, mayFill := false, arrived := [], retry := [], faultHit := false, hostLate := false,
    promoted := none, waited := 0, grant := .none, since := d.transom, seq := 0, carry := 0, own := none, age := 0, slip := false, ks := [] }

/-- Receive credits a port advertises for M2S Req, M2S RwD and M2S BIRsp messages (R56). A BIRsp is taken at once, so its entries never
fill. -/
def rxCredits : Nat × Nat × Nat := (512, 256, 64)

/-- Receive-buffer entries a port holds for requests without data, or with it: those its homes have not started (R57, R166). -/
def Die.rxHeld (d : Die) (p : Nat) (data : Bool) : Nat :=
  (d.txns.filter fun t => decide (t.master = p) && (t.op.isWrite == data) && (match t.stage with
    | .port | .waitlist => true
    | _ => false)).length

/-- Link credits a host holds at a port (R56, R57): without one it cannot send a message of that kind. -/
def Die.rxRoom (d : Die) (p : Nat) (data : Bool) : Bool :=
  decide (d.rxHeld p data < if data then rxCredits.2.1 else rxCredits.1)

/-- A slice has a waitlist entry left for an internal master (R167). -/
def Die.innerRoom (d : Die) (h : Nat) : Bool :=
  decide ((d.txns.filter fun t => decide (6 ≤ t.master) && decide (homeOf t.dla = h) && decide (t.stage = .waitlist)).length < 256)

/-- The answer of a request that fails a check of R46 (R47), with the DevLoad of the tenancy its TTAG names on this port (R59). DESIGN
CHOICE: R47 speaks of reads and writes; a message without data that takes no data either, a MemInv or a CleanEvict, is answered with
Cmp (log entry 125). -/
def Die.refuseTen (d : Die) (m : M2S) (write : Bool) : Die :=
  let p := m.port; let fcx := d.portFcx p
  let ext : Option CplExt := if fcx then some { gen := m.ext.gen, ttag := m.ext.ttag, late := false, attr := 0 } else none
  let d1 := ((d.count (R.hptGenMismatch p) 1).event (R.hptEvent p) 4).hostEvent p (.tenMismatch (if fcx then m.ext.ttag else m.ld))
  let load : DevLoad := match d.findTen p m.ld m.ext.ttag with
    | some t => if fcx then d1.devLoad t else .light
    | none => .light
  d1.emit (if write then .ndr p m.ld m.tag .none ext load else .drs p m.ld m.tag none .none ext load)

/-- The tenancy a message addresses, its checks passed (R46, R359). -/
def Die.tenOf (d : Die) (m : M2S) : Option Nat :=
  match d.findTen m.port m.ld m.ext.ttag with
  | some t => if d.portFcx m.port ∧ m.ext.gen ≠ (d.ten t).gen then none else some t
  | none => none

/-- The DLA of a TA in an entry (R360). -/
def Die.dlaIn (d : Die) (e ta : Nat) : Nat := (d.bt e).dlaBay * 2 ^ 30 + ta % 2 ^ 30 / 64 * 64

/-- The no-bay outcome (R361). -/
def Die.noBayOutcome (d : Die) (m : M2S) (ten : Nat) (write : Bool) : Die :=
  let t := d.newTxn m (if write then .wr else .rd) ten 0 0 0 4 0 0
  let d1 := ((d.count R.tenNobay 1).event R.tenEvent 2).hostEvent m.port (.noBay m.ta)
  d1.complete t (if write then .cmp .none else .poison)

/-- The keyhole index of a host request and whether R267 remapped it (R255). -/
def Die.keyOf (d : Die) (m : M2S) (entry : Nat) : Nat × Bool :=
  let b := d.bt entry
  let k := if d.portFcx m.port ∧ m.ext.ksel then m.ext.kidx else b.defKey
  d.remap b.dlaBay k

/-! ## At the home -/

/-- Sampling of the reads and writes of hosts and the job engine to TIERED bays (R329–R331): an increment the HBM controller cannot accept
is dropped. -/
def Die.sampleAcc (d : Die) (t : Txn) : Die :=
  if (d.bt t.entry).mode ≠ 2 ∨ !(decide (t.master < 6 ∨ t.master = 9)) ∨ t.op = .rdOwnNoData then d
  else
    let dla := t.dla
    let h := homeOf dla
    let x := Config.lfsrNext ((d.home.lfsr.find? h).getD 0)
    let d1 := { d with home := { d.home with lfsr := d.home.lfsr.insert h x } }
    if x.toNat % 2 ^ fld (d.act R.tirCfg) 3 0 ≠ 0 then d1
    else (d1.hbm 3 0 (pageMapAddr (pageOf dla)) 14 true (.accInc (pageOf dla))).2

/-- The louvre a request is charged to as it reaches its home (R115, R116). -/
def Die.louvreOf (d : Die) (t : Txn) : Nat :=
  if t.master < 6 then d.tenLouvre t.ten else d.masterLouvre t.master (if t.ten < 1024 then some t.ten else none)

/-- A transaction stands between a line's request and another port's: a Busy line owes that port's CompAck, or is recalled (R93, R183). -/
def Busy.before (b : Busy) (p : Nat) : Bool :=
  b.txn.isNone && match b.ack with
    | some (q, _, _) => decide (q ≠ p)
    | none => true

/-- Earlier transactions of other ports on a line that a request waits behind, and whether a host of another port has been late in one
(R93). -/
def Die.waitsBehind (d : Die) (t : Txn) : Nat × Bool :=
  let us := d.txns.filter fun u => decide (u.dla / 64 = t.dla / 64) && u.ordered && decide (u.master ≠ t.master)
  let b := d.busyOf t.dla
  (us.length + (if b.any fun b => b.before t.master then 1 else 0), b.any fun b => b.lates.any (· ≠ t.master))

/-- The home slice orders a request (R21): its louvre (R116), an internal master's time of entry to the crossbar (R131), sampling, dirty
log, promotion, then the directory or the memory side. -/
def Die.order (d : Die) (t0 : Txn) : Die :=
  let w := d.waitsBehind t0
  let t : Txn := { (d.meetFault t0) with louvre := d.louvreOf t0, stamp := if t0.master < 6 then t0.stamp else d.time,
                                         ordered := true, waited := w.1, hostLate := t0.hostLate || w.2 }
  let d1 := d.sampleAcc t
  let d2 := if t.op.isWrite ∧ (t.master < 6 ∨ t.master = 9) ∧ t.ten < 1024 then d1.logPage t.ten (t.ta / 4096) else d1
  let r := d2.promoteFor t
  match r.2.domOf t.dla with
  | some n => r.2.coh n r.1
  | none => r.2.pass r.1

/-- A best-effort request of a master waits in its port for the crossbar to this slice (R121). -/
def Die.portWaits (d : Die) (master h : Nat) : Bool :=
  d.txns.any fun u => decide (u.stage = .port) && decide (u.master = master) && decide (homeOf u.dla = h)

/-- A request reaches its home slice (R121): best-effort ones wait in the port while the slice's hold is full, or behind older ones that
wait there. A fault interruption its path stands in counts for it from now on (R93). -/
def Die.toHome (d : Die) (t0 : Txn) : Die :=
  let t := d.meetFault t0; let h := homeOf t.dla
  let d1 := { d with home := { d.home with nextTxn := d.home.nextTxn + 1 } }
  if ((t.cls = 4 ∨ t.matched = []) ∧ (d1.holdFull h ∨ d1.portWaits t.master h)) ∨ (6 ≤ t.master ∧ !d1.innerRoom h) then d1.setTxn t
  else d1.order t

/-- The oldest request of a port waiting to enter the crossbar for a slice enters it. -/
def execBeCrossbarEntry (txn : Nat) (s : State) : Host.Outcome State Fault Refusal :=
  onLive s fun d =>
    match d.txn? txn with
    | some t =>
      let older := d.txns.any fun u => decide (u.stage = .port) && decide (u.id < t.id) && decide (u.master = t.master) &&
        decide (homeOf u.dla = homeOf t.dla)
      if t.stage ≠ .port ∨ older ∨ d.holdFull (homeOf t.dla) ∨ (6 ≤ t.master ∧ !d.innerRoom (homeOf t.dla)) then d
      else
        let t1 : Txn := { t with id := d.home.nextTxn }
        let d1 := d.dropTxn txn
        { d1 with home := { d1.home with nextTxn := d1.home.nextTxn + 1 } }.order t1
    | none => d

/-! ## Internal masters (R260, R261) -/

/-- The header an internal request stands for. -/
def internalHdr (master tag ta : Nat) : M2S :=
  { port := master, ld := 0, tag := tag, ta := ta, metaV := 7,
    ext := { gen := 0, ttag := 0, kidx := 0, ksel := false, dcode := 0, cc := false, coh := 0 } }

/-- An internal master stores one line of a bay-table entry's bay under the bay's default key; the access is ordered at its home as any
other (R21). A refused key is recorded against the master (R261); whether the store went out. -/
def Die.innerWrite (d : Die) (m tag e dla : Nat) (data : Line) (mask : BitVec 64) : Bool × Die :=
  let k := d.remap (d.bt e).dlaBay (d.bt e).defKey
  let ta := d.taOf e dla
  if d.keyRefused 0xffff e k.1 false k.2 true then (false, d.keyRefuse m 0xffff ta k.1)
  else (true, d.toHome (d.newTxn (internalHdr m tag ta) (if mask = BitVec.allOnes 64 then .wr else .wrPart) 0xffff e dla k.1 4 data mask))

/-- An internal master reads one line of a bay-table entry's bay under the bay's default key (R260, R261). -/
def Die.innerRead (d : Die) (m tag e dla : Nat) : Die :=
  let k := d.remap (d.bt e).dlaBay (d.bt e).defKey
  let ta := d.taOf e dla
  if d.keyRefused 0xffff e k.1 false k.2 false then d.keyRefuse m 0xffff ta k.1
  else d.toHome (d.newTxn (internalHdr m tag ta) .rd 0xffff e dla k.1 4 0 0)

/-- Store bytes, a multiple of 64, at an offset of an entry's bay as master `m` (R397, R538); whether every store went out. -/
def Die.storeBytes (d : Die) (m tag e off : Nat) (bs : List Nat) : Bool × Die :=
  (List.range (bs.length / 64)).foldl (fun (a : Bool × Die) i =>
    let r := a.2.innerWrite m tag e ((a.2.bt e).dlaBay * 2 ^ 30 + off + 64 * i) (lineOf (bs.drop (64 * i))) (BitVec.allOnes 64)
    (a.1 && r.1, r.2)) (true, d)

/-! ## Messages -/

/-- What an M2S message is (R152, R153, R178). -/
inductive Msg where
  /-- a request, as the home serves it -/
  | req (op : Op)
  | wrBack | cleanEvict | compAck | snpData
  /-- a MemInv with no meaning of R178: completed without effect -/
  | inv
  /-- no message -/
  | nothing
  /-- a reserved COH or one in the wrong message class -/
  | bad
  deriving DecidableEq, Repr

/-- Message class and opcode: M2S Req read, RwD full line, RwD partial, MemInv. -/
inductive MsgCls where
  | rd | wr | wrPart | inv
  deriving DecidableEq, Repr

def MsgCls.carriesData : MsgCls → Bool
  | .wr | .wrPart => true
  | _ => false

/-- A message is answered with Cmp, not with data, where it is refused: writes and notices (R47, R163, R170, R361). -/
def MsgCls.takesCmp (c : MsgCls) (coh : Nat) : Bool := c.carriesData || decide (c = .inv) || decide (5 ≤ coh ∧ coh ≤ 8)

/-- The meaning by COH alone (R153). -/
def cohMsg (c : MsgCls) (coh : Nat) : Msg :=
  match coh with
  | 1 => .req .rdShared
  | 2 => .req .rdOwn
  | 3 => .req .rdOwnNoData
  | 4 => .req .rdCur
  | 5 => if c.carriesData then .wrBack else .bad
  | 6 => .cleanEvict
  | 7 => .compAck
  | 8 => if c.carriesData then .snpData else .bad
  | _ => .bad

/-- The meaning of a message whose CXL.mem opcode governs: on a bay of a standard-mode domain as R178 gives; `holder`: the port
is the line's recorded owner or is snooped for it. -/
def plainMsg (c : MsgCls) (std holder : Bool) (metaV : Nat) : Msg :=
  match c with
  | .rd => if std then (if metaV = 1 then .req .rdOwn else if metaV = 2 then .req .rdShared else .req .rdCur) else .req .rd
  | .wr => if std && holder then .wrBack else .req .wr
  | .wrPart => .req .wrPart
  | .inv => if std && decide (metaV = 1) then .req .rdOwnNoData else .inv

/-- The port owns the line or owes an answer about it (R178). -/
def Die.holds (d : Die) (dla p : Nat) : Bool :=
  let owns (x : Dir) : Bool := decide (x.owner = p) && decide (x.st = .x ∨ x.st = .o)
  owns (d.dirOf dla) || match d.busyOf dla with
    | some b => owns b.next || b.snoops.any fun s => decide (s.port = p) && s.rsp.isNone
    | none => false

/-- A message of the write-back lane (R168). -/
def Msg.lane : Msg → Bool
  | .wrBack | .cleanEvict | .compAck | .snpData => true
  | _ => false

/-- A request past the bay table: class (R80, R83), key (R257), then the home. -/
def Die.hostRequest (d : Die) (m : M2S) (op : Op) (ten entry cls0 : Nat) (data : Line) (mask : BitVec 64) : Die :=
  let b := d.bt entry; let dla := d.dlaIn entry m.ta
  let unmatched := decide (cls0 ≠ 4) && (!classAllowed cls0 b.mode b.inDom || decide (d.matching ten cls0 b.dlaBay = []))
  let d1 := if unmatched then d.count R.trsUnmatched 1 else d
  let k := d1.keyOf m entry
  let t := d1.newTxn m op ten entry dla k.1 (if unmatched then 4 else cls0) data mask
  if d1.keyRefused ten entry k.1 (t.fcx && m.ext.ksel) k.2 op.isWrite then
    (d1.keyRefuse m.port ten t.ta k.1).complete t t.failed
  else if !b.inDom then
    -- no tracking is needed on a bay in no domain (R159)
    match op with
    | .rdOwnNoData => d1.complete t (.cmp .m)
    | .rdShared | .rdOwn => d1.toHome { t with grant := .e }
    | _ => d1.toHome t
  else d1.toHome t

/-- A write-back-lane message past the bay table (R159, R160, R170, R189). A write-back under a refused index is answered with Cmp too, and
its data are dropped with the event of R228. -/
def Die.hostLane (d : Die) (m : M2S) (msg : Msg) (ten entry : Nat) (data : Line) : Die :=
  let b := d.bt entry; let dla := d.dlaIn entry m.ta
  let k := d.keyOf m entry
  let t := d.newTxn m .wr ten entry dla k.1 4 data 0
  match msg with
  | .wrBack =>
    if d.keyRefused ten entry k.1 (t.fcx && m.ext.ksel) k.2 true then (d.keyRefuse m.port ten t.ta k.1).complete t .poisonWr
    else
      let d1 := d.logPage ten (t.ta / 4096)
      let d2 := if b.inDom then d1.laneWrBack b.dom dla m.port ten t.ta data k.1 else d1.homeStore dla data k.1 m.port
      d2.complete t (.cmp .none)
  | .cleanEvict => (if b.inDom then d.laneEvict b.dom dla m.port else d).complete t (.cmp .none)
  | .compAck => if !b.inDom then d else if d.domDown b.dom then d.staleMsg dla else d.laneCompAck b.dom dla m.port
  | .snpData => if !b.inDom then d else if d.domDown b.dom then d.staleMsg dla else d.laneSnpData dla m.port data k.1
  | _ => d

/-- An arrival on a port's link: activity in SL1, a wake source in SL2 (R477, R482). -/
def Die.arrival (d : Die) (p : Nat) : Die := if d.pwr.st = .sl2 then d.wake p else d.active

/-- An M2S Req or RwD message arrives at a port. `coh`: its COH field, read on an FCX port only (R51, R152). Without a link credit the host
has not sent it (R57). DEDUCED: a CompAck or SnpData that fails a check of R46 is counted by the home its TA would have: without a
bay entry it has no DLA (log entry 126). -/
def Die.m2s (d : Die) (m : M2S) (c : MsgCls) (coh : Nat) (data : Line) (mask : BitVec 64) : Die :=
  if !d.portReady m.port ∨ !d.rxRoom m.port c.carriesData then d
  else
    let d := d.arrival m.port
    let fcx := d.portFcx m.port
    let notice := fcx && decide (coh = 7 ∨ coh = 8)
    match d.tenOf m with
    | none => if notice then d.staleMsg (m.ta / 64 * 64) else d.refuseTen m (c.takesCmp (if fcx then coh else 0))
    | some ten =>
      let entry := d.entryOf ten m.ta
      let e := entry.getD 0
      let b := d.bt e
      let std := b.inDom && !d.domFcx b.dom
      let dla := d.dlaIn e m.ta
      let msg := if fcx ∧ coh ≠ 0 then (if std then .bad else cohMsg c coh) else plainMsg c std (std && d.holds dla m.port) m.metaV
      let write := c.takesCmp (if fcx then coh else 0)
      let live := entry.isSome && (decide (b.st = .live) || (msg.lane && decide (b.st = .recalling)))
      let is := [scPort m.port, scLouvre (d.tenLouvre ten), scTen ten, scMaster m.port]
      let d1 := match msg with
        | .req op => d.tally (if op.isWrite then 0x11 else 0x10) 1 is
        | _ => d
      let sp := match msg with
        | .req op => d1.spend m.port ten fcx (!op.isWrite) m.ext
        | _ => (4, d1)
      let t := sp.2.newTxn m (if write then .wr else .rd) ten e dla 0 4 0 0
      if d.flt.doorstop then
        if notice then d else sp.2.complete t (if c.carriesData then .poisonWr else if write then .cmp .none else .poison)
      else if !live then
        if !notice then sp.2.noBayOutcome m ten write
        else if entry.isSome ∧ b.inDom ∧ d.domDown b.dom then d.staleMsg dla else d
      else match msg with
        | .req op => sp.2.hostRequest m op ten e sp.1 data mask
        | .bad => (sp.2.protocol dla m.port ten t.ta).complete t (if write then .cmp .none else .poison)
        | .inv => sp.2.complete t (.cmp .none)
        | .nothing => d
        | l => sp.2.hostLane m l ten e data

def execMemRd (m : M2S) (s : State) : Host.Outcome State Fault Refusal :=
  onLive s fun d => d.m2s m .rd m.ext.coh 0 0

def execMemWr (m : M2S) (data : Line) (s : State) : Host.Outcome State Fault Refusal :=
  onLive s fun d => d.m2s m .wr m.ext.coh data 0

def execMemWrPartial (m : M2S) (data : Line) (mask : BitVec 64) (s : State) : Host.Outcome State Fault Refusal :=
  onLive s fun d => d.m2s m .wrPart m.ext.coh data mask

def execMemInv (m : M2S) (s : State) : Host.Outcome State Fault Refusal :=
  onLive s fun d => d.m2s m .inv m.ext.coh 0 0

def execRdShared (m : M2S) (s : State) : Host.Outcome State Fault Refusal := onLive s fun d => d.m2s m .rd 1 0 0

def execRdOwn (m : M2S) (s : State) : Host.Outcome State Fault Refusal := onLive s fun d => d.m2s m .rd 2 0 0

def execRdOwnNoData (m : M2S) (s : State) : Host.Outcome State Fault Refusal := onLive s fun d => d.m2s m .rd 3 0 0

def execRdCur (m : M2S) (s : State) : Host.Outcome State Fault Refusal := onLive s fun d => d.m2s m .rd 4 0 0

def execWrBack (m : M2S) (data : Line) (s : State) : Host.Outcome State Fault Refusal := onLive s fun d => d.m2s m .wr 5 data 0

/-- CleanEvict and CompAck exist on FCX ports only (R152). -/
def execCleanEvict (m : M2S) (s : State) : Host.Outcome State Fault Refusal :=
  onLive s fun d => if d.portFcx m.port then d.m2s m .rd 6 0 0 else d

def execCompAck (m : M2S) (s : State) : Host.Outcome State Fault Refusal :=
  onLive s fun d => if d.portFcx m.port then d.m2s m .rd 7 0 0 else d

def execSnpData (m : M2S) (data : Line) (s : State) : Host.Outcome State Fault Refusal :=
  onLive s fun d => if d.portFcx m.port then d.m2s m .wr 8 data 0 else d

/-! ## Snoop responses and conflicts -/

/-- The domain line a member's response names by its tenancy: domain, DLA, tenancy. -/
def Die.taggedLine (d : Die) (m : M2S) : Option (Nat × Nat × Nat) :=
  match d.findTen m.port m.ld m.ext.ttag with
  | none => none
  | some t =>
    match d.entryOf t m.ta with
    | none => none
    | some e =>
      let b := d.bt e
      if b.inDom ∧ (b.st = .live ∨ b.st = .recalling) then some (b.dom, d.dlaIn e m.ta, t) else none

/-- The line of a standard-mode domain for which a port's answer is awaited at this TA: its responses have no companion slot, so the
address alone names it (R155, R178). -/
def Die.awaitedLine (d : Die) (p ta : Nat) : Option (Nat × Nat × Nat) :=
  (d.home.busy.find? fun b => !d.domFcx b.dom && (b.snoops.any fun s => decide (s.port = p) && s.rsp.isNone) &&
    decide (d.memberTa b.dom p b.dla / 64 = ta / 64)).map fun b => (b.dom, b.dla, d.domTen b.dom p)

/-- The domain line a member's response names. On an FCX port the extension governs where it names a line of an FCX-mode domain that awaits
this port's answer. -/
def Die.memberLine (d : Die) (m : M2S) : Option (Nat × Nat × Nat) :=
  let x := d.taggedLine m
  let named := x.any fun y => d.domFcx y.1 && (d.busyOf y.2.1).any fun b => b.snoops.any fun s => decide (s.port = m.port) && s.rsp.isNone
  if d.portFcx m.port ∧ !named then (match d.awaitedLine m.port m.ta with | some y => some y | none => x) else x

/-- A BIRsp arrives (R154, R155, R189). -/
def execBiRsp (m : M2S) (rsp : Rsp) (dirty : Bool) (s : State) : Host.Outcome State Fault Refusal :=
  onLive s fun d =>
    if !d.portReady m.port ∨ d.flt.doorstop then d
    else
      let d := d.arrival m.port
      match d.memberLine m with
      | none => d.staleMsg (m.ta / 64 * 64)
      | some (n, dla, t) =>
        if d.domDown n ∨ (d.domFcx n ∧ m.ext.gen ≠ (d.ten t).gen) then d.staleMsg dla
        else d.laneRsp dla m.port t m.ta rsp dirty

/-- A BIConflict of a host in a standard-mode domain: the home owes it a BIConflictAck (R178). -/
def execBiConflict (m : M2S) (s : State) : Host.Outcome State Fault Refusal :=
  onLive s fun d =>
    if !d.portReady m.port ∨ d.flt.doorstop then d
    else
      let d := d.arrival m.port
      match d.memberLine m with
      | none => d.staleMsg (m.ta / 64 * 64)
      | some (n, dla, _) =>
        if d.domDown n then d.staleMsg dla
        else if d.domFcx n then d
        else { d with home := { d.home with conflicts := d.home.conflicts ++ [(m.port, m.ta / 64 * 64)] } }

/-- The home sends the BIConflictAck it owes a port for a line, after what it sent the port before (R178). -/
def execBiConflictAck (m : M2S) (s : State) : Host.Outcome State Fault Refusal :=
  onLive s fun d =>
    let c := (m.port, m.ta / 64 * 64)
    if d.portReady m.port ∧ d.home.conflicts.contains c then
      { d with home := { d.home with conflicts := d.home.conflicts.erase c } }.emit (.biConflictAck c.1 c.2)
    else d

end Sys2Proof.Machine
end

