-- ==== Sys2Proof/Machine/Commands.lean ====
section
/-! DEFINITION. Machine/Commands.lean: the command interface's shared operations (R387–R399): replies, roles and scope, the
checks every packet command passes before its own, long commands, staged commits requested by commands, notices. -/

namespace Sys2Proof.Machine

/-! ## Endpoints and replies -/

/-- The endpoint a packet came from (R390). -/
def endpOf : Via → Endp
  | .mailbox p => .mailbox p
  | .ldMailbox p ld => .ldMailbox p ld
  | .mctp eid _ => .mctp eid
  | .steward p => .steward p
  | .ring k => .ring k

def Die.lastOf (d : Die) (e : Endp) : Option Last :=
  (List.find? (fun (x : Endp × Last) => decide (x.1 = e)) d.mgt.ends).map Prod.snd

/-- Keep an endpoint's most recent command (R390). -/
def Die.keepLast (d : Die) (e : Endp) (l : Last) : Die :=
  { d with mgt := { d.mgt with ends := (e, l) :: d.mgt.ends.filter fun (x : Endp × Last) => decide (x.1 ≠ e) } }

def Die.ring (d : Die) (k : Nat) : Ring := (d.mgt.rings.find? k).getD Ring.init
def Die.setRing (d : Die) (k : Nat) (x : Ring) : Die :=
  { d with mgt := { d.mgt with rings := d.mgt.rings.set Ring.init k x } }

/-- The bytes of a payload (R388). -/
def payBytes (ps : List PayVal) : List Nat := ps.flatMap fun p => (List.range p.1).map fun i => p.2 / 256 ^ i % 256

/-- The 512 B reply entry of ring entry `n` (R387, R397): PHASE is 1 on the first pass and toggles on each. -/
def Ring.entryBytes (x : Ring) (n : Nat) (r : Reply) : List Nat :=
  let pay := payBytes r.payload
  let flags := 1 + b2n r.replayed * 4 + b2n (!r.interim) * 8 + b2n (decide (n / 2 ^ x.log2 % 2 = 0)) * 16
  let bs := leBytes 2 r.opcode ++ leBytes 2 r.seq ++ leBytes 2 r.status ++ leBytes 2 flags ++ leBytes 4 pay.length ++
    leBytes 4 r.detail ++ pay
  bs ++ List.replicate (512 - bs.length) 0

/-- Write a ring entry's reply into its slot of the reply ring, straight after the submission ring. -/
def Die.writeRingReply (d : Die) (x : Ring) (n : Nat) (r : Reply) : Die :=
  let e := d.segBase x.ten + x.bay
  if (d.bt e).st ≠ .live ∨ (d.bt e).mode ≠ 0 then d
  else (d.storeBytes 13 0 e (x.offset + (2 ^ x.log2 + n % 2 ^ x.log2) * 512) (x.entryBytes n r)).2

/-- The device may fetch a ring's next entry (R395, R397): one was submitted, fewer than 64 are in progress, and its reply slot is free. -/
def Ring.mayFetch (x : Ring) : Bool :=
  x.valid && decide (x.head ≠ x.tail) && decide (x.subs.length < 64) && decide (x.subs.length < 2 ^ x.log2)

/-- Read the 512 B entry at a ring's HEAD as master 13 under the bay's default key (R397), once it may be fetched. -/
def Die.ringAsk (d : Die) (k : Nat) : Die :=
  let x := d.ring k; let e := d.segBase x.ten + x.bay
  if !x.mayFetch ∨ x.asked ∨ (d.bt e).st ≠ .live then d
  else (List.range 8).foldl (fun (d : Die) i => d.innerRead 13 k e ((d.bt e).dlaBay * 2 ^ 30 + x.offset + x.head * 512 + 64 * i))
    (d.setRing k { x with asked := true, got := [] })

/-- The bytes of the entry at HEAD, once every line has come. -/
def Ring.entry (x : Ring) : Option (List Nat) := ((List.range 8).mapM fun i => (Tbl.get none x.got i).map lineBytes).map List.flatten

/-- The header of a command packet (R387). -/
def hdrBytes (h : Hdr) (op : Nat) : List Nat :=
  leBytes 2 op ++ leBytes 2 h.seq ++ leBytes 2 h.tenWord ++ leBytes 2 h.flags ++ leBytes 4 h.plen ++ leBytes 4 h.rsvd

/-- Write the replies at the front of a ring's order, up to the first that is not there yet. -/
def Die.ringReplies (d : Die) (k : Nat) : List RingSub → Die
  | [] => (d.setRing k { (d.ring k) with subs := [] }).ringAsk k
  | u :: us =>
    match u.reply with
    | none => (d.setRing k { (d.ring k) with subs := u :: us }).ringAsk k
    | some r =>
      let d1 := (d.writeRingReply (d.ring k) u.no r).emit (.reply r)
      (d1.emit (.msix (d1.ring k).port (d1.ring k).vector)).ringReplies k us

/-- Give the oldest open entry of a SEQ and opcode its reply. -/
def fillSub (seq opcode : Nat) (r : Reply) : List RingSub → List RingSub
  | [] => []
  | u :: us =>
    if u.seq = seq ∧ u.opcode = opcode ∧ u.reply.isNone then { u with reply := some r } :: us else u :: fillSub seq opcode r us

/-- Send a packet. A reply to a ring is written in ring order and raises the ring's MSI-X vector (R395, R397). -/
def Die.sendReply (d : Die) (r : Reply) : Die :=
  match r.via with
  | .ring k => d.ringReplies k (fillSub r.seq r.opcode r (d.ring k).subs)
  | _ => d.emit (.reply r)

/-- The device fetches the next entry of a ring (R397): it has been read, and its header is the command's. -/
def Die.ringFetch (d : Die) (k : Nat) (h : Hdr) (op : Nat) : Option Die :=
  let x := d.ring k
  if !x.mayFetch ∨ x.entry.map (List.take 16) ≠ some (hdrBytes h op) then none
  else
    let u : RingSub := { no := x.fetched, seq := h.seq, opcode := op, reply := none }
    some ((d.setRing k { x with head := (x.head + 1) % 2 ^ x.log2, fetched := x.fetched + 1, asked := false, got := [],
                                subs := x.subs ++ [u] }).ringAsk k)

/-- A packet comes in: on a ring it is fetched; elsewhere it arrives, on the sideband as a wake source (R482). `none`: the ring holds no entry to fetch. -/
def Die.take (d : Die) (h : Hdr) (op : Nat) : Option Die :=
  match h.via with
  | .ring k => d.ringFetch k h op
  | .mctp _ _ => some (d.wake 6)
  | _ => some d

/-- Largest payload of a transport (R395). -/
def payMax : Via → Nat
  | .ring _ => 496
  | _ => 4096

/-- Bytes of a payload. -/
def paySize (ps : List PayVal) : Nat := ps.foldl (fun a p => a + p.1) 0

/-- The final reply of a command (R387, R392); its endpoint keeps it (R390). A payload over the transport's limit is BAD_LENGTH
(R401). -/
def Die.answer (d : Die) (h : Hdr) (op status detail : Nat) (payload : List PayVal) : Die :=
  let tooLong := decide (payMax h.via < paySize payload)
  let r : Reply :=
    { via := h.via, seq := h.seq, opcode := op, interim := false, replayed := false, status := if tooLong then St.badLength else status,
      detail := if tooLong then 8 else detail, payload := if tooLong then [] else payload }
  let e := endpOf h.via
  let d1 := { d with mgt := { d.mgt with longs := d.mgt.longs.filter fun (x : Endp × Nat) => decide (x ≠ (e, h.seq)) } }
  let d2 := match d1.lastOf e with
    | some l => if l.seq = h.seq ∧ l.opcode = op then d1.keepLast e { l with reply := some r } else d1
    | none => d1
  d2.sendReply r

/-- SUCCESS with a payload. -/
def Die.ok (d : Die) (h : Hdr) (op : Nat) (payload : List PayVal) : Die := d.answer h op St.success 0 payload

/-- A failure. -/
def Die.fail (d : Die) (h : Hdr) (op status detail : Nat) : Die := d.answer h op status detail []

/-- A list in a payload: a u16 count and the entries (R388). -/
def payList (width : Nat) (xs : List Nat) : List PayVal := (2, xs.length) :: xs.map fun x => (width, x)

/-! ## Roles (R394) -/

inductive Role where
  | f | k | s | t
  deriving DecidableEq, Repr

def Die.fmPort (d : Die) (p : Nat) : Bool := bit (d.regR R.mgtFmPorts) p && decide (p < 6)
def Die.fmSideband (d : Die) : Bool := bit (d.regR R.mgtFmPorts) 6

/-- A mutually authenticated session stands on port `p`'s DOE mailbox (R66). -/
def Die.stewardSession (d : Die) (p : Nat) : Bool :=
  (d.port p).sessions.any fun s => s.established && s.mutualAuth

/-- The roles a packet holds for an opcode (R394). A claim on an owned device and a proposal on an unowned one are let through to
the refusal R403 names. -/
def Die.roles (d : Die) (v : Via) (op : Nat) : List Role :=
  match v with
  | .mctp eid session =>
    (if d.fmSideband then [.f] else []) ++
    (if (d.dbl.owned ∧ eid = d.dbl.eid) ∨ (session ∧ (op = 0x0d00 ∨ (!d.dbl.owned ∧ op = 0x0d01))) then [.k] else [])
  | .mailbox p => if d.fmPort p then [.f] else [.t]
  | .ldMailbox _ _ => [.t]
  | .steward p =>
    let claim : Bool := match d.dbl.claim with
      | some c => decide (c.port = p) && decide (op = 0x0d00)
      | none => false
    if d.stewardSession p ∧ ((d.dbl.owned ∧ (p = d.dbl.port ∨ op = 0x0d00)) ∨ claim ∨ (!d.dbl.owned ∧ op = 0x0d01)) then [.s] else []
  | .ring k => if !(d.ring k).valid then [] else if (d.ring k).role = 0 ∧ d.fmPort (d.ring k).port then [.f] else [.t]

/-- Tenancies in a tenant's scope (R394): those bound to the caller's port; in MLD mode, the LD's own. -/
def Die.inScope (d : Die) (v : Via) (t : Nat) : Bool :=
  decide ((d.ten t).st ≠ .free) &&
  match v with
  | .mailbox p => decide (d.tenPort t = p) && decide ((d.port p).mode ≠ some .mld)
  | .ldMailbox p ld => decide (d.tenPort t = p) && decide (d.tenLd t = ld)
  | .ring k =>
    if (d.port (d.ring k).port).mode = some .mld then decide (t = (d.ring k).ten) else decide (d.tenPort t = (d.ring k).port)
  | _ => false

/-- The tenancy number in the header. -/
def hdrTen (h : Hdr) : Nat := h.tenWord % 1024

/-! ## The checks every command passes -/

/-- Executed in doorstop (R393). -/
def inDoorstop (op : Nat) : Bool := [0x0100, 0x0900, 0x0b00, 0x0b06, 0x0d05].contains op

/-- Mailboxes take a vendor opcode (R395, R396). -/
def cxlMatches (h : Hdr) (op : Nat) : Bool :=
  match h.via with
  | .mailbox _ | .ldMailbox _ _ => decide (h.cxlOp = 0xc000 + op)
  | _ => true

/-- A long command or a Sanitize, the mailbox's one background command, runs on this mailbox (R273, R395). -/
def Die.mailboxBusy (d : Die) (v : Via) : Bool :=
  let long := d.mgt.longs.any fun (x : Endp × Nat) => decide (x.1 = endpOf v)
  match v with
  | .mailbox p => long || (decide ((d.port p).mode ≠ some .mld) && d.cxl.busy.contains (p * 32))
  | .ldMailbox p ld => long || d.cxl.busy.contains (p * 32 + ld)
  | _ => false

/-- The first shared check a command fails: status and DETAIL (R387, R388, R389, R392–R396). `want`: the payload length the
parameters require. -/
def Die.hdrCheck (d : Die) (h : Hdr) (op : Nat) (roles : List Role) (want : Nat) (long : Bool) : Option (Nat × Nat) :=
  if !d.boot.done ∨ d.boot.hold then some (St.notReady, 0)
  else if !cxlMatches h op then some (St.badOpcode, 0)
  else if d.flt.doorstop ∧ !inDoorstop op then some (St.doorstopActive, 0)
  else if payMax h.via < h.plen ∨ h.plen ≠ want then some (St.badLength, 8)
  else if 1024 ≤ h.tenWord then some (St.badParam, 4)
  else if 32 ≤ h.flags then some (St.badParam, 6)
  else if h.rsvd ≠ 0 then some (St.badParam, 12)
  else if ((d.roles h.via op).filter roles.contains) = [] then some (St.notPermitted, 0)
  else if !((d.roles h.via op).filter (· ≠ .t)).any roles.contains ∧ !d.inScope h.via (hdrTen h) then some (St.notPermitted, 0)
  else if long ∧ d.mailboxBusy h.via then some (St.busy, 0)
  else none

/-- The caller acts as a tenant (R394). -/
def Die.asTenant (d : Die) (h : Hdr) (op : Nat) : Bool := (d.roles h.via op).contains .t

/-- The endpoint's most recent command has this SEQ and opcode (R390). -/
def Die.isRepeat (d : Die) (h : Hdr) (op : Nat) : Bool :=
  match d.lastOf (endpOf h.via) with
  | some l => decide (l.seq = h.seq) && decide (l.opcode = op)
  | none => false

/-- Answer a repeated command (R390): the kept reply, or an interim one while it runs. On a ring the repeat's own entry takes it. -/
def Die.repeatReply (d : Die) (h : Hdr) (op : Nat) : Die :=
  let r : Reply := match (d.lastOf (endpOf h.via)).bind (·.reply) with
    | some r => { r with replayed := true }
    | none => { via := h.via, seq := h.seq, opcode := op, interim := true, replayed := false, status := St.inProgress,
                detail := 0, payload := [] }
  match h.via with
  | .ring k => d.ringReplies k (fillSub h.seq op r (d.ring k).subs.reverse).reverse
  | _ => d.sendReply r

/-- A packet command (R387–R396): replay, shared checks, then its own body. -/
def Die.command (d : Die) (h : Hdr) (op : Nat) (roles : List Role) (want : Nat) (body : Die → Die) : Die :=
  match d.active.take h op with
  | none => d
  | some d0 =>
    if d0.isRepeat h op then d0.repeatReply h op
    else
      let d1 := d0.keepLast (endpOf h.via) { seq := h.seq, opcode := op, reply := none }
      match d1.hdrCheck h op roles want false with
      | some (st, det) => d1.fail h op st det
      | none => body d1

/-- The interim reply of an accepted long command: sideband and steward sessions only (R392). -/
def Die.interim (d : Die) (h : Hdr) (op : Nat) : Die :=
  let r : Reply := { via := h.via, seq := h.seq, opcode := op, interim := true, replayed := false, status := St.inProgress,
                     detail := 0, payload := [] }
  let d1 := { d with mgt := { d.mgt with longs := d.mgt.longs ++ [(endpOf h.via, h.seq)] } }
  match h.via with
  | .mctp _ _ | .steward _ => d1.emit (.reply r)
  | _ => d1

/-- A long packet command: a second one on a mailbox fails with BUSY (R395). -/
def Die.longCommand (d : Die) (h : Hdr) (op : Nat) (roles : List Role) (want : Nat) (body : Die → Die) : Die :=
  d.command h op roles want fun d1 => if d1.mailboxBusy h.via then d1.fail h op St.busy 0 else body d1

/-- A tenancy parameter above 1,023 fails with NOT_FOUND (R400), at byte offset `off`; a tenant may name only its own. -/
def Die.tenParam (d : Die) (h : Hdr) (op t off : Nat) (body : Die) : Die :=
  if d.asTenant h op ∧ t ≠ hdrTen h then d.fail h op St.notPermitted 0
  else if 1023 < t then d.fail h op St.notFound off
  else body

/-! ## Notices (R399) -/

/-- Notices dropped and not yet reported on a route: 0 sideband, 1 ring, 2 mailbox queue. -/
def Die.lostOn (d : Die) (r : Nat) : Nat := Tbl.get 0 d.mgt.lost r
def Die.setLost (d : Die) (r n : Nat) : Die := { d with mgt := { d.mgt with lost := d.mgt.lost.set 0 r n } }

/-- Deliver a notice on the sideband or the ring route. -/
def Die.deliver (d : Die) (r : Nat) (n : Notice) : Die :=
  if r = 0 then d.emit (.noticeTo d.mgt.routeEid n)
  else d.emit (.reply { via := .ring d.mgt.routeRing, seq := n.arg0, opcode := 0, interim := false, replayed := false,
                        status := n.code, detail := n.arg1, payload := [] })

/-- Deliver on a route that is set, NOTICE_LOST first where notices were dropped. -/
def Die.deliverOn (d : Die) (r : Nat) (n : Notice) : Die :=
  if !d.mgt.routeMask.testBit r then d
  else if d.lostOn r = 0 then d.deliver r n
  else ((d.deliver r { n with code := St.noticeLost, arg1 := d.lostOn r }).setLost r 0).deliver r n

/-- Queue a notice and deliver it to its routes: `arg0` holds its number, `arg1` its DETAIL. -/
def Die.notice (d : Die) (code arg : Nat) : Die :=
  let n : Notice := { code := code, arg0 := d.mgt.noticeNo, arg1 := arg, time := d.time }
  let toBox := d.mgt.routeMask.testBit 2
  let full := toBox && decide (256 ≤ d.mgt.notices.length)
  let q := if !toBox then d.mgt.notices else (if full then d.mgt.notices.drop 1 else d.mgt.notices) ++ [n]
  let d1 := { d with mgt := { d.mgt with notices := q, noticeNo := (d.mgt.noticeNo + 1) % 65536 } }
  let d2 := if full then
      ([0, 1, 2].foldl (fun d r => d.setLost r (d.lostOn r + 1)) d1).event R.mgtEvent 1
    else d1
  (d2.deliverOn 0 n).deliverOn 1 n

/-! ## Staged groups (R104–R111) -/

/-- The commit register of a group. -/
def Group.commitReg : Group → Nat
  | .hpt p => R.hptCommit p
  | .trs => R.trsCommit
  | .lvr => R.lvrCommit
  | .dom => R.cha0Commit
  | .itr => R.itrCommit
  | .pcx => R.pcxCommit
  | .cje => R.cjeCommit
  | .tir => R.tirCommit
  | .hbc => R.hbcCommit
  | .ten => R.tenCommit
  | .pwr => R.pwrCommit
  | .flt => R.fltCommit
  | .pmu => R.pmuCommit

/-- GO reads 1. -/
def Die.going (d : Die) (g : Group) : Bool := bit (d.regR (Group.commitReg g)) 31

/-- Set GO. -/
def Die.setGo (d : Die) (g : Group) : Die := d.regW (Group.commitReg g) (setFld (d.regR (Group.commitReg g)) 31 31 1)

/-- Write registers in order. -/
def Die.regWs (d : Die) (ws : List (Nat × Reg)) : Die := ws.foldl (fun d w => d.regW w.1 w.2) d

/-- First offset and length of the block part that holds a group's staged registers. -/
def Group.span : Group → Nat × Nat
  | .hpt p => (0x10000 + 0x10000 * p, 0x8000)
  | .trs => (0x90000, 0x8000)
  | .lvr => (0xa0000, 0x8000)
  | .dom => (0x100000, 0x8000)
  | .itr => (0x580000, 0x8000)
  | .pcx => (0x61f000, 0x800)
  | .cje => (0x700000, 0x8000)
  | .tir => (0x780000, 0x8000)
  | .hbc => (0x300000, 0x8000)
  | .ten => (0x800000, 0x8000)
  | .pwr => (0xa00000, 0x8000)
  | .flt => (0xb00000, 0x8000)
  | .pmu => (0xc00000, 0x8000)

/-- The staged registers of a group that the register file lists, staged or active. -/
def Die.stagedKeys (d : Die) (g : Group) : List Nat :=
  let lo := (Group.span g).1; let n := (Group.span g).2
  let mine (o : Nat) : Bool := decide (lo ≤ o) && decide (o < lo + n) && (match regRow o with
    | some r => decide (r.acc = .rws)
    | none => false)
  (((d.regs.map fun (e : Nat × Reg) => e.1).flatMap fun o => [o, o - mirrorGap lo]).filter mine).eraseDups

/-- Land a command's staged writes and set GO. After a rejected commit, firmware first brings the staged copy back to the
active one. -/
def Die.landWrites (d : Die) (g : Group) (writes : List (Nat × Reg)) : Die :=
  let d1 := if fld (d.regR (Group.commitReg g)) 29 28 = 2 then
      (d.stagedKeys g).foldl (fun (d : Die) o => d.regW o (d.act o)) d
    else d
  (d1.regWs writes).setGo g

/-- A bay-table entry as TEN_BTe_LO and TEN_BTe_HI spell it (R362). -/
def btOf (lo hi : Reg) : Bt :=
  { st := match fld hi 31 29 with
      | 1 => .live | 2 => .recalling | 3 => .fenced | 4 => .scrubbing | _ => .empty
    cache := bit hi 28, mode := fld hi 27 26, inDom := bit hi 25, dom := fld hi 24 19, policy := fld hi 18 15,
    defKey := fld hi 14 3, ten := fld lo 23 14, dlaBay := fld lo 13 0 }

def BaySt.code : BaySt → Nat
  | .empty => 0 | .live => 1 | .recalling => 2 | .fenced => 3 | .scrubbing => 4

def Bt.lo (b : Bt) : Reg := BitVec.ofNat 32 (b.ten % 1024 * 2 ^ 14 + b.dlaBay % 2 ^ 14)
def Bt.hi (b : Bt) : Reg :=
  BitVec.ofNat 32 (b.st.code * 2 ^ 29 + b2n b.cache * 2 ^ 28 + b.mode % 4 * 2 ^ 26 + b2n b.inDom * 2 ^ 25 + b.dom % 64 * 2 ^ 19 +
    b.policy % 16 * 2 ^ 15 + b.defKey % 4096 * 2 ^ 3)

/-- Members as (port, tenancy). -/
def Die.members (d : Die) (n : Nat) : List (Nat × Nat) := (d.domPorts n).map fun p => (p, d.domTen n p)

/-- The staged writes that give domain `n` these members, mode and timeout. -/
def domWrites (n : Nat) (fcx : Bool) (snpTo : Nat) (ms : List (Nat × Nat)) : List (Nat × Reg) :=
  let mask := ms.foldl (fun a (m : Nat × Nat) => a ||| 2 ^ m.1) 0
  let word (lo : Nat) : Nat := (ms.filter fun (m : Nat × Nat) => decide (lo ≤ m.1 ∧ m.1 < lo + 3)).foldl (fun a (m : Nat × Nat) => a + m.2 * 2 ^ (10 * (m.1 - lo))) 0
  [(R.cha0DomCfg n, BitVec.ofNat 32 (2 ^ 31 + b2n fcx * 2 ^ 30 + mask * 2 ^ 24 + snpTo % 1024)),
   (R.cha0DomTena n, BitVec.ofNat 32 (word 0)), (R.cha0DomTenb n, BitVec.ofNat 32 (word 3))]

/-- The staged writes that put a value into a bay-table entry (R363). -/
def btuWrites (e : Nat) (b : Bt) : List (Nat × Reg) :=
  [(R.tenBtuIdx, BitVec.ofNat 32 (2 ^ 31 + e)), (R.tenBtuLo, b.lo), (R.tenBtuHi, b.hi)]

/-- The last value a list of writes gives a register. -/
def written (ws : List (Nat × Reg)) (o : Nat) : Option Reg :=
  ((ws.filter fun (w : Nat × Reg) => decide (w.1 = o)).getLast?).map Prod.snd

/-- The bay-table entry a commit changes, and its value. -/
def CommitReq.btu (r : CommitReq) : Option (Nat × Bt) :=
  match written r.writes R.tenBtuIdx with
  | none => none
  | some i => if bit i 31 then some (fld i 13 0, btOf ((written r.writes R.tenBtuLo).getD 0) ((written r.writes R.tenBtuHi).getD 0)) else none

/-- Entries that pending commits change, with their values. -/
def Die.pendingBtu (d : Die) : List (Nat × Bt) := d.mgt.commits.filterMap CommitReq.btu

/-- A pending commit changes an entry of the bay: its operations wait for it. -/
def Die.bayPending (d : Die) (b : Nat) : Bool := d.pendingBtu.any fun (x : Nat × Bt) => decide (x.2.st ≠ .empty) && decide (x.2.dlaBay = b)

/-- Dirty logs whose entry lies in a tenancy's segment, following it to a new base (R371, R380). -/
def Die.movedLogs (d : Die) (t base : Nat) : List (Nat × Reg) :=
  d.tenList.filterMap fun k =>
    let r := d.act (R.tenLog k); let e := fld r 13 0
    if bit (d.tenCfg k) 19 ∧ d.segBase t ≤ e ∧ e < d.segBase t + d.segLen t then some (R.tenLog k, setFld r 13 0 (base + (e - d.segBase t))) else none

/-- What a request's writes are when they land: a change of the domain table starts from the table as it stands, a change or a copy of a
bay-table entry from the entry as it stands; a moved segment's logs follow it. -/
def Die.landing (d : Die) (r : CommitReq) : List (Nat × Reg) :=
  let table (n : Nat) (ms : List (Nat × Nat)) : List (Nat × Reg) := domWrites n (d.domFcx n) (d.domSnpTo n) ms
  match r.cmd, r.group with
  | some (.domJoin _ n t _), .dom => table n (d.members n ++ [(d.tenPort t, t)])
  | some (.domLeave _ n t), .dom => table n ((d.members n).filter fun (m : Nat × Nat) => decide (m.2 ≠ t))
  | some (.tenResize _ t _), _ => r.writes ++ d.movedLogs t (fld ((written r.writes (R.tenSeg t)).getD 0) 29 16)
  | _, _ => match r.source, r.btu with
    | some k, some (e, b) =>
      let x := d.bt k
      if x.st ≠ .live then [(R.tenBtuIdx, 0)]
      else btuWrites e (if k = e then { x with cache := b.cache, policy := b.policy, inDom := b.inDom, dom := b.dom } else x)
    | _, _ => r.writes

/-- A commit begins: GO alone where GO was written to the register, else the writes land first. -/
def Die.beginCommit (d : Die) (r : CommitReq) : Die :=
  let d1 := if r.cmd.isNone ∧ r.writes = [] then d.setGo r.group else d.landWrites r.group (d.landing r)
  { d1 with mgt := { d1.mgt with commits := d1.mgt.commits.map fun (x : CommitReq) => if x = r then { x with at_ := d.time } else x } }

/-- Reference cycles GO must stand before its boundary (R105): more than 32 fabric cycles at the level in force. -/
def goLead (level : Nat) : Nat := [2, 3, 3, 5].getD level 5

/-- It is the first commit requested of its group. -/
def Die.firstOfGroup (d : Die) (r : CommitReq) : Bool :=
  decide (d.mgt.commits.find? (fun (x : CommitReq) => decide (x.group = r.group)) = some r)

/-- Firmware's turn to set GO (R105, R108): the commit is the first of its group and GO reads 0, so are its command's commits in other
groups (R400: they are committed together), and the coming boundary would still make it. -/
def Die.mayBegin (d : Die) (r : CommitReq) : Bool :=
  !d.going r.group && d.firstOfGroup r && decide (d.time % 50 + goLead d.pwr.level ≤ 50) &&
  (r.cmd.isNone || d.mgt.commits.all fun (x : CommitReq) => decide (x.cmd ≠ r.cmd) || (d.firstOfGroup x && !d.going x.group))

/-- Every commit whose turn has come begins; those of one command begin together. -/
def Die.startCommits (d : Die) : Die :=
  (d.mgt.commits.filter d.mayBegin).foldl (fun (d : Die) r => if d.going r.group then d else d.beginCommit r) d

/-- Firmware requests commits for one command. Their staged writes land when their turn comes. -/
def Die.askCommits (d : Die) (rs : List CommitReq) : Die :=
  ({ d with mgt := { d.mgt with commits := d.mgt.commits ++ rs } }).startCommits

/-- Request a commit of one group (R105). -/
def Die.commit (d : Die) (g : Group) (cmd : Option Instr) (writes : List (Nat × Reg)) : Die :=
  d.askCommits [{ group := g, at_ := d.time, cmd := cmd, writes := writes }]

/-- 1 written to GO (R105, R108): no effect while GO reads 1; what firmware has not begun waits behind it. -/
def Die.writeGo (d : Die) (g : Group) : Die :=
  if d.going g then d
  else
    let r : CommitReq := { group := g, at_ := d.time, cmd := none, writes := [] }
    ({ d with mgt := { d.mgt with commits := r :: d.mgt.commits } }).setGo g

/-- The value a staged register takes once every commit requested so far has landed. -/
def Die.future (d : Die) (o : Nat) : Reg :=
  ((d.mgt.commits.flatMap fun (c : CommitReq) => c.writes).filter fun (w : Nat × Reg) => decide (w.1 = o)).getLast?.elim (d.regR o) Prod.snd

/-- DETAIL of COMMIT_REJECT (R389). -/
def rejectDetail (g : Group) (reg bitNo : Nat) : Nat :=
  let base := Group.commitReg g / 4096 * 4096
  let blk := match g with
    | .hpt p => 0x10000 + 0x10000 * p
    | .pcx => 0x61f000
    | _ => base
  blk / 4096 * 2 ^ 20 + reg / 4 % 2 ^ 14 * 2 ^ 6 + bitNo % 32

/-! ## Ways into the window (R45) -/

/-- An access to the management window; one through a tenant LD's BAR0 goes to that LD's window, `ld`, instead (R45, R572). -/
def onWindow (s : State) (src : Src) (f : Die → Die) (ld : Die → Die := Die.active) : Host.Outcome State Fault Refusal :=
  onLive s fun d => if d.ldBar src then ld d else f d

/-- The tenancy of the LD whose window a source uses. -/
def Die.ldTenancy (d : Die) (src : Src) : Option Nat :=
  d.tenList.find? fun t => d.tenFound t && decide (d.tenPort t = src.port) && decide (d.tenLd t = src.ld)

/-! ## Dropped register writes (R402) -/

/-- A dropped direct write: count, last, event. -/
def Die.rejectWrite (d : Die) (s : Src) (o : Nat) : Die :=
  let v := (if s.master < 6 then s.port else 7) * 2 ^ 29 + (if s.jtag then 13 else s.master) % 16 * 2 ^ 24 + o % 2 ^ 24
  ((d.count R.mgtRejCount 1).regW R.mgtRejLast (BitVec.ofNat 32 v)).event R.mgtEvent 0

/-- A normal-world access to the secure window or a secure keep register (R412, R560). -/
def Die.windowDeny (d : Die) (s : Src) (o : Nat) (write : Bool) : Die :=
  let v := b2n write * 2 ^ 31 + (if s.jtag then 13 else s.master) % 16 * 2 ^ 24 + o % 2 ^ 24
  ((d.count R.dbgWinDeny 1).regW R.dbgWinLast (BitVec.ofNat 32 v)).event R.dbgEvent 3

end Sys2Proof.Machine
end

