-- ==== Sys2Proof/Machine/Admission.lean ====
section
/-! DEFINITION. Machine/Admission.lean: caps and loads (R74, R78, R85–R92), validation (R88), the sweep (R99–R101, R466),
demotion (R100), leaf-block pins and fills (R77, R218–R222), contract commands, and the boundary's contract steps (R71). -/

namespace Sys2Proof.Machine

/-! ## Caps -/

def Die.chPct (d : Die) : Nat := fld (d.regR R.trsCap) 6 0
def Die.portPct (d : Die) : Nat := fld (d.regR R.trsCap) 14 8

/-- Host-port slots per transom at a level (R465). -/
def hostSlots (level : Nat) : Nat := [1000, 800, 600, 400].getD level 400

/-- A port's cap at a level, under the line rate the threshold holds (R78). -/
def Die.portCapAt (d : Die) (level p : Nat) : Nat := d.portPct * min (d.port p).held (hostSlots level) / 100

/-- A channel's contractable cap (R74). -/
def Die.chanCap (d : Die) (c : Nat) : Nat := d.chPct * d.schedulable c * 4 / 100

/-- Caps in force: set at boundaries (R71 step 3). -/
def Die.capQ (d : Die) (c : Nat) : Nat := Tbl.get 0 d.trs.capQ c
def Die.capPort (d : Die) (p : Nat) : Nat := Tbl.get 0 d.trs.capPort p

/-- The port cap R88 uses: the smaller of the level in force and an in-flight level request's target (R468). -/
def Die.capPortNew (d : Die) (p : Nat) : Nat :=
  match d.pwr.inflight with
  | some r => if r.code ≤ 4 ∧ 1 ≤ r.code then min (d.capPort p) (d.portCapAt (r.code - 1) p) else d.capPort p
  | none => d.capPort p

/-! ## Charges (R87–R90) -/

/-- Share per channel (R87). -/
def shareOf (rd wr peak fetch c : Nat) : Nat := min ((rd + wr) * fetch) (ceilDiv (peak * (rd + wr) * fetch) c)

/-- D0 share on a channel. -/
def Die.chargeD0 (d : Die) (ch : Nat) (u : ConUse) : Nat :=
  if u.t.cls = 0 ∧ (d.setChannels u.set).contains ch then u.share else 0

/-- Physical bays whose leaves a DLA bay pins (R218). -/
def Die.pinBays (d : Die) (b : Nat) : List Nat :=
  if mappedBay b then
    [(d.bay b).primary, (d.bay b).secondary].filterMap fun s => (d.pmap.stores.find? s).map (·.bay)
  else [b]

/-- Physical bays pinned by a list of contracts. -/
def Die.pinned (d : Die) (cs : List Contract) : List Nat :=
  (cs.flatMap fun c => c.uses.flatMap fun u => u.dla.flatMap d.pinBays).eraseDups

/-- Blocks still being written back after their last pin (R222, R594), outside a list of bays. -/
def Die.leavingBlocks (d : Die) (bays : List Nat) : Nat :=
  (d.itr.blocks.filter fun (e : Nat × Block) => e.2.writing && !(bays.any fun b => decide (e.2.bay = some b))).length

/-- What a contract proposed with port `p` and terms `us` would exceed, in the order of R88, given the contracts `cs` and the
port caps: kind of R389's DETAIL and the number. -/
def Die.noFit (d : Die) (cap : Nat → Nat) (cs : List Contract) (p : Nat) (us : List ConUse) : Option (Nat × Nat) :=
  let onPort (c : Contract) : Bool := decide (d.tenPort c.ten = p)
  let rd := maxOf us fun u => u.t.rd
  let wr := maxOf us fun u => u.t.wr
  let d0 (u : ConUse) (x : Nat) : Nat := if u.t.cls = 0 then x else 0
  let mine := cs.filter onPort
  let rd0 := maxOf us fun u => d0 u u.t.rd
  let wr0 := maxOf us fun u => d0 u u.t.wr
  let exceeds (load charge cap : Nat) : Bool := decide (charge ≠ 0) && decide (cap < load + charge)
  match (List.range 16).find? fun ch => exceeds (loadOf cs fun _ => d.chargeQ ch) (maxOf us (d.chargeQ ch)) (d.capQ ch) with
  | some ch => some (2, ch)
  | none =>
    if exceeds (loadOf mine fun _ u => u.t.rd) rd (cap p) then some (3, p)
    else if exceeds (loadOf mine fun _ u => u.t.wr) wr (cap p) then some (4, p)
    else if exceeds (loadOf mine fun _ u => d0 u u.t.rd) rd0 64 ∨ exceeds (loadOf mine fun _ u => d0 u u.t.wr) wr0 64 then some (5, p)
    else match (List.range 16).find? fun ch => exceeds (loadOf cs fun _ => d.chargeD0 ch) (maxOf us (d.chargeD0 ch)) 64 with
      | some ch => some (6, ch)
      | none =>
        let bays := (d.pinned cs ++ us.flatMap fun u => u.dla.flatMap d.pinBays).eraseDups
        if 24772608 < (bays.length + d.leavingBlocks bays) * 262144 then some (7, 0) else none

/-! ## The sweep (R99, R466) -/

/-- Sweep order: PREC descending, then acceptance order. -/
def sweepOrder (cs : List Contract) : List Contract :=
  cs.mergeSort fun a b => decide (b.use.t.prec < a.use.t.prec) || (decide (a.use.t.prec = b.use.t.prec) && decide (a.acc ≤ b.acc))

/-- Contracts that fit, in sweep order, under port caps `cap`. -/
def Die.sweepFits (d : Die) (cap : Nat → Nat) (cs : List Contract) : List Contract :=
  (sweepOrder (cs.filter Contract.live)).foldl (fun ok c =>
    if (d.noFit cap ok (d.tenPort c.ten) c.uses).isNone then ok ++ [c] else ok) []

/-- A level passes the capacity check (R466). -/
def Die.levelOk (d : Die) (level : Nat) : Bool :=
  let cs := d.contracts.filter Contract.live
  decide ((d.sweepFits (d.portCapAt level) cs).length = cs.length)

/-- FLOOR_PL: the highest-numbered level that passes (R467). -/
def Die.floorPl (d : Die) : Nat := ((List.range 4).filter d.levelOk).foldl max 0

/-! ## Contract state changes -/

def Die.con (d : Die) (i : Nat) : Option Contract := d.trs.contracts.find? i
def Die.setCon (d : Die) (c : Contract) : Die := { d with trs := { d.trs with contracts := d.trs.contracts.insert c.id c } }
def Die.delCon (d : Die) (i : Nat) : Die := { d with trs := { d.trs with contracts := d.trs.contracts.erase i } }

/-! ## Leaf blocks (R77, R218–R222) -/

/-- The DLA bays of a list of contracts that pin a physical bay's block. -/
def Die.pinsOf (d : Die) (cs : List Contract) (phys : Nat) : List Nat :=
  (cs.flatMap fun c => c.uses.flatMap (·.dla)).eraseDups.filter fun b => (d.pinBays b).contains phys

def Die.setBlock (d : Die) (b : Nat) (x : Block) : Die := { d with itr := { d.itr with blocks := d.itr.blocks.set Block.init b x } }

/-- The leaf's home can be read and written: its channel is in service. -/
def Die.leafServed (d : Die) (leaf : Nat) : Bool := !(d.chan (d.chanOf (d.leafAddr (leaf * 4096)))).excluded

/-- Leaves of a physical bay with a copy in DDR other than the blank one, on channels in service: those a fill reads (log entry 128). -/
def Die.listedLeaves (d : Die) (bay : Nat) : List (Nat × Stored) :=
  d.itr.home.filter fun (x : Nat × Stored) => decide (keyLevel x.1 = 0 ∧ keyIdx x.1 / 2 ^ 18 = bay) && d.leafServed (keyIdx x.1)

/-- A transfer is a fill's read of a leaf of a physical bay: the bay's leaves lie in one 16 MiB span (R205). -/
def Die.isFillRead (d : Die) (bay : Nat) (x : Xfer) : Bool :=
  let base := d.leafAddr (bay * 2 ^ 30)
  !x.write && decide (x.group = 3 ∧ x.louvre = freeCharge.louvre ∧ x.txn = none ∧ x.wop = none ∧ base ≤ x.dga ∧ x.dga < base + 2 ^ 24)

/-- A fill begins: its reads wait in group 3, charged to no louvre (R221). -/
def Die.startFill (d : Die) (bay : Nat) : Die :=
  (d.listedLeaves bay).foldl (fun (d : Die) x => d.leafRead (keyIdx x.1) freeCharge) d

/-- A fill stops with its pin: what it has not read yet is not read (R221). -/
def Die.stopFill (d : Die) (bay : Nat) : Die := { d with xfers := d.xfers.filter fun x => !d.isFillRead bay x }

/-- The dirty lines of a block. -/
def Itr.dirtyLines (i : Itr) (block : Nat) : List (Nat × BlkLine) :=
  i.lines.filter fun (x : Nat × BlkLine) => decide (x.1 / 2 ^ 18 = block) && x.2.dirty

/-- Queue the write-backs of a block's dirty leaves in group 3, charged to no louvre; a leaf on an excluded channel waits (R222, R594). -/
def Die.queueUnpins (d : Die) (block bay : Nat) : Die :=
  (d.itr.dirtyLines block).foldl (fun (d : Die) x =>
    let leaf := leafOfLine bay x.1
    if x.2.queued ∨ !d.leafServed leaf then d
    else
      let d1 := d.queueMeta true (d.leafAddr (leaf * 4096)) freeCharge.group freeCharge.due freeCharge.louvre freeCharge.con
      { d1 with itr := { d1.itr with lines := d1.itr.lines.insert x.1 { x.2 with queued := true } } }) d

/-- A block's last pin is released (R222): a fill stops; the block counts until its dirty leaves are home. -/
def Die.releaseBlock (d : Die) (n bay : Nat) : Die :=
  let b := d.itr.block n
  let d1 := if b.filling then d.stopFill bay else d
  (d1.setBlock n { b with pins := [], filling := false, writing := decide (d.itr.dirtyLines n ≠ []) }).queueUnpins n bay

/-- Bring the blocks' pins into line with the live contracts (R77, R218). -/
def Die.repin (d : Die) : Die :=
  let cs := d.contracts.filter Contract.live
  d.itr.blocks.foldl (fun (d : Die) e =>
    match e.2.bay with
    | none => d
    | some bay =>
      let pins := d.pinsOf cs bay
      if pins = e.2.pins then d
      else if pins = [] then d.releaseBlock e.1 bay
      else d.setBlock e.1 { (d.itr.block e.1) with pins := pins }) d

/-- DLA bays pin the blocks of their physical bays; a bay without a block takes one (R220), and a block not filled begins to fill
(R221). -/
def Die.pinBlocks (d : Die) (dla : List Nat) : Die :=
  (dla.flatMap d.pinBays).eraseDups.foldl (fun (d : Die) phys =>
    let d1 := if (d.itr.blockOf phys).isSome then d else { d with itr := d.itr.assign phys }
    match d1.itr.blockOf phys with
    | none => d1
    | some n =>
      let x := d1.itr.block n
      let pins := (x.pins ++ dla.filter fun b => (d.pinBays b).contains phys).eraseDups
      let d2 := d1.setBlock n { x with pins := pins, filling := x.filling || !x.filled, writing := false }
      if x.filled ∨ x.filling then d2 else d2.startFill phys) d

/-- The blocks of a contract are all filled. -/
def Die.filled (d : Die) (u : ConUse) : Bool :=
  (u.dla.flatMap d.pinBays).all fun bay =>
    match d.itr.blockOf bay with
    | some b => (d.itr.block b).filled
    | none => true

/-- Payload of a contract command's final reply (R400): CON_CREATE names the contract; all name the effective transom. -/
def conPay (op id eff : Nat) : List PayVal := if op = 0x0400 then [(2, id), (8, eff)] else [(8, eff)]

/-- Answer, oldest first, the commands on a contract whose blocks are filled (R90, R221): effective two boundaries on. -/
def Die.answerCon (d : Die) (c : Contract) : Die :=
  let eff := d.transom + 2
  let r : Contract × Die := match c.reply with
    | some (h, op) => if d.filled c.use then ({ c with eff := some eff, reply := none }, d.ok h op (conPay op c.id eff)) else (c, d)
    | none => (c, d)
  let q := r.1.changes.foldl (fun (a : List Change × Bool × Die) x =>
    if x.eff.isSome then (a.1 ++ [x], a.2)
    else if a.2.1 && d.filled x.use then (a.1 ++ [{ x with eff := some eff }], true, a.2.2.ok x.hdr 0x0401 (conPay 0x0401 c.id eff))
    else (a.1 ++ [x], false, a.2.2)) ([], r.1.reply.isNone, r.2)
  q.2.2.setCon { r.1 with changes := q.1 }

/-- Answer what the fills have made ready. DESIGN CHOICE: not while a sweep runs, since it may demote the contract (log entry 129). -/
def Die.answerFills (d : Die) : Die :=
  if d.trs.sweep.isSome then d
  else (d.contracts.filter fun (c : Contract) => c.reply.isSome || c.changes.any (·.eff.isNone)).foldl Die.answerCon d

/-- Refuse the commands on a contract whose reply a fill still delays. -/
def Die.refuseFilling (d : Die) (c : Contract) (st det : Nat) (pay : Nat → List PayVal) : Die :=
  let d1 := match c.reply with
    | some (h, op) => d.answer h op st det (pay op)
    | none => d
  (c.changes.filter (·.eff.isNone)).foldl (fun (d : Die) x => d.answer x.hdr 0x0401 st det (pay 0x0401)) d1

/-- Demote a contract (R100), with the replies of the fills it stops (R221). -/
def Die.demote (d : Die) (c : Contract) : Die :=
  let d1 := d.setCon { c with st := .demoted, eff := none, reply := none, changes := [], verdict := none }
  let d2 := (d1.hostEvent (d1.tenPort c.ten) (.demoted c.id)).event R.trsEvent 1
  let d3 := (d2.emit (.msix (d2.tenPort c.ten) 0)).notice St.contractDemoted c.id
  (d3.refuseFilling c St.contractDemoted c.id fun op => conPay op c.id 0).repin

/-- Delete a contract at its boundary: its reservations and pins go (R90); a command whose reply a fill delays ends with
CONTRACT_STATE (log entry 130). -/
def Die.removeCon (d : Die) (c : Contract) : Die :=
  ((d.delCon c.id).refuseFilling c St.contractState c.id fun _ => []).repin

/-! ## Validation of the commands -/

/-- FETCH of 0 takes the largest default of the listed bays' modes (R85). -/
def Die.fetchDefault (d : Die) (entries : List Nat) : Nat :=
  let cfg := d.act R.trsCfg
  entries.foldl (fun a e => max a (match (d.bt e).mode with
    | 0 => 1
    | 2 => fld cfg 7 4 + 1
    | _ => fld cfg 11 8 + 1)) 1

/-- The first list index whose bay already occurred. -/
def repeatAt (l : List Nat) : Option Nat := (List.range l.length).find? fun i => (l.take i).contains (l.getD i 0)

/-- Entries named by bay indices. -/
def Die.entriesOf (d : Die) (t : Nat) (bays : List Nat) : List Nat := bays.map fun b => d.segBase t + b

/-- The first field of the terms out of range, as a byte offset (R85, R388). -/
def termsBad (t : Terms) : Option Nat :=
  if 3 < t.cls then some 18 else if 1000 < t.rd ∨ (t.rd = 0 ∧ t.wr = 0) then some 19 else if 1000 < t.wr then some 21
  else if 7 < t.prec then some 23 else if 16 < t.peak then some 24 else if 16 < t.fetch then some 25
  else if t.bays = [] ∨ 256 < t.bays.length then some 26 else none

/-- Resolve a contract's terms (R85, R87). -/
def Die.resolve (d : Die) (ten : Nat) (t : Terms) : ConUse :=
  let es := d.entriesOf ten t.bays
  let dla := es.map fun e => (d.bt e).dlaBay
  let set := (d.setOfDlaBay (dla.headD 0)).getD 0
  let peak := if t.peak = 0 then fld (d.act R.trsCfg) 3 0 + 1 else t.peak
  let fetch := if t.fetch = 0 then d.fetchDefault es else t.fetch
  { t := { t with peak := peak, fetch := fetch }, set := set, dla := dla,
    share := shareOf t.rd t.wr peak fetch (d.setChannels set).length }

/-- Validate terms for a tenancy against the other contracts (R85, R86, R88): status and DETAIL of the first check that
fails. DESIGN CHOICE: a bay index beyond the tenancy's segment, or whose entry is not LIVE, is answered NOT_FOUND before the first
check of R88 (log entry 131); a tenancy whose port has no mode yet counts as one on an SLD or MLD port for its class (log entry
132). -/
def Die.validate (d : Die) (ten : Nat) (t : Terms) (others : List Contract) : Option (Nat × Nat) :=
  match termsBad t with
  | some o => some (St.badParam, o)
  | none =>
    match (List.range t.bays.length).find? fun i => decide (d.segLen ten ≤ t.bays.getD i 0) ||
        decide ((d.bt (d.segBase ten + t.bays.getD i 0)).st ≠ .live) with
    | some i => some (St.notFound, 28 + 2 * i)
    | none =>
      match repeatAt t.bays with
      | some i => some (St.badParam, 28 + 2 * i)
      | none =>
        let es := d.entriesOf ten t.bays
        let std := decide ((d.port (d.tenPort ten)).mode ≠ some .fcx)
        if std ∧ t.cls ≠ d.tenClass ten then some (St.classNotAllowed, ten)
        else match es.find? fun e => !classAllowed t.cls (d.bt e).mode (d.bt e).inDom with
          | some e => some (St.classNotAllowed, e)
          | none =>
            let u := d.resolve ten t
            match u.dla.find? fun b => decide (d.setOfDlaBay b ≠ some u.set) with
            | some b => some (St.contractNoFit, 2 ^ 28 + (d.setOfDlaBay b).getD 0)
            | none => (d.noFit d.capPortNew (others.filter Contract.live) (d.tenPort ten) [u]).map fun x =>
                (St.contractNoFit, x.1 * 2 ^ 28 + x.2)

/-- DRY_RUN (R387). -/
def dryRun (h : Hdr) : Bool := h.flags.testBit 1

/-- A contract's terms as CON_QUERY returns them (R400). -/
def termsPay (t : Terms) : List PayVal :=
  [(1, t.cls), (2, t.rd), (2, t.wr), (1, t.prec), (1, t.peak), (1, t.fetch)] ++ payList 2 t.bays

/-- A contract command names a channel that SL2 holds in self-refresh: a MEM_WAKE, and the exit comes before the reply (R478). -/
def Die.mustWake (d : Die) (i : Instr) : Bool :=
  let asleep (u : ConUse) : Bool := (d.setChannels u.set).any d.chanAsleep
  match i with
  | .conCreate _ ten t => asleep (d.resolve ten t)
  | .conChange _ c t => (d.con c).any fun x => asleep (d.resolve x.ten t)
  | .conReadmit _ c => (d.con c).any fun x => asleep x.use
  | _ => false

/-- Contract commands wait for a sweep (R101) or an accepted deadbolt change (R406). -/
def Die.conWaits (d : Die) : Bool := d.trs.sweep.isSome || d.dbl.props.any fun (p : Proposal) => p.commit.isSome

def Die.deferCon (d : Die) (i : Instr) : Die := { d with trs := { d.trs with deferred := d.trs.deferred ++ [i] } }

/-- The first free contract ID. -/
def Die.freeCon (d : Die) : Option Nat := (List.range 2048).find? fun i => (d.con i).isNone

/-- CON_CREATE's body (R85–R90, R221). DESIGN CHOICE: the limits of R86 on the number of contracts are tested after every check of R88
(log entry 132). -/
def Die.conCreate (d : Die) (h : Hdr) (ten : Nat) (t : Terms) : Die :=
  if (d.ten ten).st = .free then d.fail h 0x0400 St.notFound 16
  else if (d.ten ten).st ≠ .active then d.fail h 0x0400 St.tenBusy ten
  else
    match d.validate ten t d.contracts with
    | some (st, det) => d.fail h 0x0400 st det
    | none =>
      match d.freeCon with
      | none => d.fail h 0x0400 St.tooMany 0
      | some id =>
        if 8 ≤ (d.contracts.filter fun c => decide (c.ten = ten)).length then d.fail h 0x0400 St.tooMany ten
        else if dryRun h then d.ok h 0x0400 [(2, id), (8, d.transom + 2)]
        else
          let u := d.resolve ten t
          let c : Contract :=
            { id := id, ten := ten, use := u, st := .awaiting, acc := d.trs.nextAcc, eff := none, reply := some (h, 0x0400),
              changes := [], release := none, verdict := none }
          ({ d with trs := { d.trs with nextAcc := d.trs.nextAcc + 1 } }.pinBlocks u.dla).answerCon c

/-- CON_CHANGE's body (R90). -/
def Die.conChange (d : Die) (h : Hdr) (id : Nat) (t : Terms) : Die :=
  match d.con id with
  | none => d.fail h 0x0401 St.notFound 16
  | some c =>
    if c.st = .demoted then d.fail h 0x0401 St.contractState id
    else match d.validate c.ten t (d.contracts.filter fun k => decide (k.id ≠ id)) with
      | some (st, det) => d.fail h 0x0401 st det
      | none =>
        if dryRun h then d.ok h 0x0401 [(8, d.transom + 2)]
        else
          let u := d.resolve c.ten t
          (d.pinBlocks u.dla).answerCon { c with changes := c.changes ++ [{ use := u, hdr := h, eff := none }] }

/-- CON_READMIT's body (R90, R100). -/
def Die.conReadmit (d : Die) (h : Hdr) (id : Nat) : Die :=
  match d.con id with
  | none => d.fail h 0x0402 St.notFound 16
  | some c =>
    if c.st ≠ .demoted then d.fail h 0x0402 St.contractState id
    else match d.validate c.ten c.use.t (d.contracts.filter fun k => decide (k.id ≠ id)) with
      | some (st, det) => d.fail h 0x0402 st det
      | none => (d.pinBlocks c.use.dla).answerCon { c with st := .awaiting, reply := some (h, 0x0402) }

/-- CON_DELETE's body (R90). -/
def Die.conDelete (d : Die) (h : Hdr) (id : Nat) : Die :=
  match d.con id with
  | none => d.fail h 0x0403 St.notFound 16
  | some c => (d.setCon { c with release := some (d.transom + 1) }).ok h 0x0403 [(8, d.transom + 1)]

/-- Run a contract command that waited. -/
def Die.runDeferred (d : Die) (i : Instr) : Die :=
  match i with
  | .conCreate h ten t => d.conCreate h ten t
  | .conChange h c t => d.conChange h c t
  | .conReadmit h c => d.conReadmit h c
  | .conDelete h c => d.conDelete h c
  | _ => d

/-- Run every contract command that waited, in order, but for those that something still makes wait. -/
def Die.drainDeferred (d : Die) : Die :=
  if d.conWaits then d
  else d.trs.deferred.foldl (fun (d : Die) i => if d.mustWake i then d.deferCon i else d.runDeferred i)
    { d with trs := { d.trs with deferred := [] } }

/-- Bytes CON_CREATE and CON_CHANGE require. -/
def termsLen (t : Terms) : Nat := 12 + 2 * t.bays.length

/-- A contract command's shared course: deferred or run. -/
def Die.conCommand (d : Die) (i : Instr) (run : Die → Die) : Die :=
  if d.mustWake i then d.memWake.deferCon i else if d.conWaits then d.deferCon i else run d

/-- An MCTP or steward endpoint hears IN_PROGRESS when a long contract command waits (R392). -/
def Die.interimIfWaiting (d : Die) (h : Hdr) (op : Nat) : Die :=
  match (d.lastOf (endpOf h.via)).bind (·.reply) with
  | some _ => d
  | none => d.interim h op

def execConCreate (h : Hdr) (ten : Nat) (t : Terms) (s : State) : Host.Outcome State Fault Refusal :=
  onCmd s fun d => d.longCommand h 0x0400 [.f] (termsLen t) fun d =>
    (d.tenParam h 0x0400 ten 16 (d.conCommand (.conCreate h ten t) fun d => d.conCreate h ten t)).interimIfWaiting h 0x0400

def execConChange (h : Hdr) (con : Nat) (t : Terms) (s : State) : Host.Outcome State Fault Refusal :=
  onCmd s fun d => d.longCommand h 0x0401 [.f] (termsLen t) fun d =>
    (d.conCommand (.conChange h con t) fun d => d.conChange h con t).interimIfWaiting h 0x0401

def execConReadmit (h : Hdr) (con : Nat) (s : State) : Host.Outcome State Fault Refusal :=
  onCmd s fun d => d.longCommand h 0x0402 [.f] 2 fun d =>
    (d.conCommand (.conReadmit h con) fun d => d.conReadmit h con).interimIfWaiting h 0x0402

def execConDelete (h : Hdr) (con : Nat) (s : State) : Host.Outcome State Fault Refusal :=
  onCmd s fun d => d.command h 0x0403 [.f] 2 fun d => d.conCommand (.conDelete h con) fun d => d.conDelete h con

def conStateCode : ConState → Nat
  | .awaiting => 0 | .active => 1 | .frozen => 2 | .demoted => 3

def execConQuery (h : Hdr) (con : Nat) (s : State) : Host.Outcome State Fault Refusal :=
  onCmd s fun d => d.command h 0x0404 [.f, .t] 2 fun d =>
    match d.con con with
    | none => if d.asTenant h 0x0404 then d.fail h 0x0404 St.notPermitted 0 else d.fail h 0x0404 St.notFound 16
    | some c =>
      if d.asTenant h 0x0404 ∧ c.ten ≠ hdrTen h then d.fail h 0x0404 St.notPermitted 0
      else d.ok h 0x0404 ([(2, c.ten), (1, conStateCode c.st)] ++ termsPay c.use.t)

/-! ## TRS register values (R112) -/

/-- TRS_CH_LOADc. -/
def Die.chLoad (d : Die) (c : Nat) : Reg :=
  let x := d.chan c
  BitVec.ofNat 32 (b2n (d.extRefresh c) * 2 ^ 25 + b2n (x.excluded || (!x.trained && decide (9 ≤ d.boot.step))) * 2 ^ 24 + d.capQ c % 4096 * 2 ^ 12 +
    d.loadQ c % 4096)

/-- TRS_PORT_LOADp. -/
def Die.portLoad (d : Die) (p : Nat) : Reg :=
  let mine := d.contracts.filter fun c => c.live && decide (d.tenPort c.ten = p)
  BitVec.ofNat 32 (d.capPort p % 1024 * 2 ^ 20 + (loadOf mine fun _ u => u.t.wr) % 1024 * 2 ^ 10 +
    (loadOf mine fun _ u => u.t.rd) % 1024)

/-- TRS_REVAL. -/
def Die.reval (d : Die) : Reg :=
  BitVec.ofNat 32 (b2n d.trs.sweep.isSome * 2 ^ 31 + d.trs.demotedLast % 4096 * 2 ^ 12 +
    (d.contracts.filter fun c => decide (c.st = .frozen)).length % 4096)

def execCapQuery (h : Hdr) (s : State) : Host.Outcome State Fault Refusal :=
  onCmd s fun d => d.command h 0x0405 [.f, .k, .s] 0 fun d =>
    d.ok h 0x0405 ((4, (d.regR R.trsCap).toNat) :: ((List.range 16).map fun c => (4, (d.chLoad c).toNat)) ++
      (List.range 6).map fun p => (4, (d.portLoad p).toNat))

/-- CON_DEFAULTS: the reply follows the commit (R400). -/
def execConDefaults (h : Hdr) (cfg : Nat) (s : State) : Host.Outcome State Fault Refusal :=
  onCmd s fun d => d.command h 0x0406 [.f] 4 fun d =>
    if 2 ^ 12 ≤ cfg then d.fail h 0x0406 St.badParam 16
    else d.commit .trs (some (.conDefaults h cfg)) [(R.trsCfg, BitVec.ofNat 32 cfg)]

/-! ## The leaf fill and the sweep's end -/

/-- A leaf-block fill ends (R221): every leaf is in the block, those written meanwhile as they were written; leaves of the block's
previous bay are gone. -/
def Die.endFill (d : Die) (n bay : Nat) : Die :=
  let kept := d.itr.lines.filter fun (x : Nat × BlkLine) => decide (x.1 / 2 ^ 18 ≠ n) || x.2.dirty
  let d1 := { d with itr := { d.itr with lines := kept } }.setBlock n { (d.itr.block n) with filling := false, filled := true }
  (d.listedLeaves bay).foldl (fun (d : Die) x =>
    let leaf := keyIdx x.1
    if (d.itr.lines.find? (lineKey n leaf)).isSome then d
    else
      let r := d.hbm 3 0 (d.nodeHbm 0 leaf) 10 true (.leafFill n)
      if r.1 then { r.2 with itr := { r.2.itr with lines := r.2.itr.lines.insert (lineKey n leaf) { s := x.2, dirty := false, queued := false } } }
      else r.2) d1

/-- The reads of a block's fill have all issued. -/
def Die.fillRead (d : Die) (bay : Nat) : Bool := !d.xfers.any (d.isFillRead bay)

/-- The fill of a block is through once its reads have issued: the contracts whose blocks are all filled are answered (R221). -/
def execLeafFillDone (block : Nat) (s : State) : Host.Outcome State Fault Refusal :=
  onLive s fun d =>
    let b := d.itr.block block
    match b.bay with
    | some bay => if b.filling && d.fillRead bay then (d.endFill block bay).answerFills else d
    | none => d

/-- A sweep ends (R99–R101): verdicts for the next boundary, demotions at once. -/
def Die.endSweep (d : Die) : Die :=
  let cs := d.contracts.filter Contract.live
  let ok := d.sweepFits d.capPort cs
  let d1 := cs.foldl (fun d c =>
    if ok.any fun k => decide (k.id = c.id) then d.setCon { c with verdict := some true } else d) d
  let out := cs.filter fun c => !(ok.any fun k => decide (k.id = c.id))
  let d2 := out.foldl Die.demote { d1 with trs := { d1.trs with sweep := none, demotedLast := out.length } }
  (d2.event R.trsEvent 3).answerFills.drainDeferred

def execRevalSweepDone (s : State) : Host.Outcome State Fault Refusal :=
  onLive s fun d => if d.trs.sweep.isSome then d.endSweep else d

/-! ## The boundary's contract steps (R71 steps 3–6) -/

/-- Lines on a lost channel or port have met a fault (R98). -/
def Die.hitLost (d : Die) (ch port : List Nat) : Die :=
  let hit (t : Txn) : Txn := if ch.contains t.ch ∨ (t.master < 6 ∧ port.contains t.port) then { t with faultHit := true } else t
  let d1 := (d.txns.filter fun t => decide (hit t ≠ t)).foldl (fun (d : Die) t => d.setTxn (hit t)) d
  (List.range 6).foldl (fun (d : Die) p =>
    let e := d.egress p
    if e.waiting = [] then d
    else d.setEgress p { e with waiting := e.waiting.map fun x => match x with
      | .cpl t r => .cpl (hit t) r
      | g => g }) d1

/-- A capacity loss in force (R98, R99, R101): contracts with a boundary that use what is lost are frozen, a verdict not yet in force
falls, and a sweep begins, to end by boundary N + 8, or starts again, to end by 8 T. -/
def Die.loseCapacity (d : Die) (ch port : List Nat) : Die :=
  let uses (c : Contract) : Bool :=
    port.contains (d.tenPort c.ten) || c.uses.any fun u => (d.setChannels u.set).any ch.contains
  let hit (c : Contract) : Bool := uses c && match c.st with
    | .active | .frozen => true
    | .awaiting => c.eff.isSome
    | .demoted => false
  let d1 := (d.contracts.filter hit).foldl (fun (d : Die) c =>
    d.setCon { c with st := .frozen, eff := none, verdict := none }) ((d.event R.trsEvent 0).hitLost ch port)
  { d1 with trs := { d1.trs with sweep := some (d1.transom + if d.trs.sweep.isSome then 8 else 7) } }

/-- Step 3: caps fall or rise; contracts that use a lost resource are frozen and a sweep begins (R98, R101, R102). -/
def Die.applyCaps (d : Die) : Die :=
  let ports := (List.range 6).foldl (fun d p =>
    let x := d.port p
    match x.report with
    | some r => d.setPort p { x with held := r, report := none }
    | none => d) d
  let newQ := (List.range 16).map ports.chanCap
  let newP := (List.range 6).map fun p => ports.portCapAt ports.pwr.level p
  let lostCh := (List.range 16).filter fun c => decide (ports.schedulable c < Tbl.get 0 d.trs.sched c)
  let lostPort := (List.range 6).filter fun p => decide ((ports.port p).held < (d.port p).held)
  let put (t : Tbl Nat) (l : List Nat) : Tbl Nat := ((List.range 16).zip l).foldl (fun t x => Tbl.set 0 t x.1 x.2) t
  let t1 : Trs := { ports.trs with
    sched := put ports.trs.sched ((List.range 16).map ports.schedulable), capQ := put ports.trs.capQ newQ,
    capPort := put ports.trs.capPort newP }
  let d1 := { ports with trs := t1 }
  if lostCh = [] ∧ lostPort = [] then d1 else d1.loseCapacity lostCh lostPort

/-- The changes of a contract whose boundary has come take effect in order (R90). -/
def Contract.applyChanges (c : Contract) (t : Nat) : Contract :=
  let due (x : Change) : Bool := match x.eff with
    | some e => decide (e ≤ t)
    | none => false
  { c with use := ((c.changes.filter due).getLast?.map (·.use)).getD c.use, changes := c.changes.filter fun x => !due x }

/-- A contract's state at the boundary that begins transom `t`: its changes, its first transom, the sweep's verdict (R90, R99). -/
def Contract.atBoundary (c : Contract) (t : Nat) : Contract :=
  let c1 := c.applyChanges t
  match c1.st, c1.eff with
  | .awaiting, some e => if e ≤ t then { c1 with st := .active, eff := none } else c1
  | .frozen, _ => if c1.verdict = some true then { c1 with st := .active, verdict := none } else c1
  | _, _ => c1

/-- Step 4: deletions, changes, awaiting contracts and sweep verdicts take effect (R90, R99). -/
def Die.applyContracts (d : Die) : Die :=
  let t := d.transom
  let d1 := (d.contracts.filter fun c => match c.release with | some b => decide (b ≤ t) | none => false).foldl Die.removeCon d
  d1.contracts.foldl (fun (d : Die) c => if c.atBoundary t = c then d else (d.setCon (c.atBoundary t)).repin) d1

/-- A sweep that has not ended by its boundary ends there (R99, R101). -/
def Die.endOverdue (d : Die) : Die :=
  match d.trs.sweep with
  | some b => if b ≤ d.transom then d.endSweep else d
  | none => d

/-- Steps 5 and 6: credit of each tenancy, none while its link is down (R39, R92), and the FCX grants (R54, R55). -/
def Die.applyCredit (d : Die) : Die :=
  let act := d.contracts.filter fun c => decide (c.st = .active)
  let d0 := { d with trs := { d.trs with credit := [], drawn := d.trs.drawn.filter fun x => decide (d.transom ≤ x.transom + 33) } }.settleDebt
  d0.tenList.foldl (fun d t =>
    let mine := act.filter fun c => decide (c.ten = t)
    let up := (d.port (d.tenPort t)).linkUp
    let rd := if up then mine.foldl (fun a c => a + c.use.t.rd) 0 else 0
    let wr := if up then mine.foldl (fun a c => a + c.use.t.wr) 0 else 0
    let d1 := d.setCredit t { rdAllot := rd, wrAllot := wr, rd := rd, wr := wr }
    let p := d.tenPort t
    if (d.port p).fcxActive ∧ d.contracts.any (fun c => decide (c.ten = t)) then
      d1.leave p (.grant t rd wr (d.transom % 65536) (d.ten t).gen)
    else d1) d0

end Sys2Proof.Machine
end

