-- ==== Sys2Proof/Machine/Walker.lean ====
section
/-! DEFINITION. Machine/Walker.lean: the tree walker's own work: node fetches and their failures (R212, R220, R237–R240), write-back
of dirty nodes (R214, R215), re-encryption (R230, R231), unpinned blocks (R222). -/

namespace Sys2Proof.Machine

/-! ## Node fetches -/

/-- A stored copy verifies against its parent's version (R208). -/
def Die.nodeOk (d : Die) (level idx : Nat) (p : Node) (s : Stored) (a : NodeArrival) : Bool :=
  decide (a.chk ≠ .uncorrectable) && !a.altered &&
  decide (s.mac = nodeMac (d.itr.tk.getD 0) level idx p.major (p.minor (idx % 64)) s.node)

def Die.dropFetch (d : Die) (key : Nat) : Die :=
  { d with itr := { d.itr with fetches := d.itr.fetches.filter fun (f : Nat × Nat) => decide (f.1 ≠ key) } }

/-- The next read of a fetch. -/
def Die.fetchPhase (d : Die) (key ph : Nat) : Die :=
  { d with itr := { d.itr with fetches := d.itr.fetches.map fun (f : Nat × Nat) => if f.1 = key then (key, ph) else f } }

/-- The granule a request still wants under a node. -/
def Txn.wants (t : Txn) (level idx : Nat) : Option Nat :=
  match t.stage with
  | .mem | .counter | .test => t.need.find? fun g => decide (nodeIdx level g = idx) && !(t.got.any fun x => decide (x.1 = g))
  | _ => none

/-- Requests on their way that want a granule under this node. -/
def Die.waitingFor (d : Die) (level idx : Nat) : List Txn := d.txns.filter fun t => (t.wants level idx).isSome

/-- The access a node's fetch serves, and its charge: that of the oldest request, else of the oldest store (R76, R593). -/
def Die.fetchCause (d : Die) (level idx : Nat) : Nat × Charge :=
  match (d.waitingFor level idx).head? with
  | some t => ((t.wants level idx).getD (nodeBase level idx), t.charge)
  | none => match d.lane.find? fun e => decide (nodeIdx level e.dga = idx) with
    | some e => (e.dga, { group := if e.con.isSome ∨ e.group ≠ 4 then 3 else 4, due := e.deadline, louvre := e.louvre, con := e.con })
    | none => (nodeBase level idx, freeCharge)

/-- Requests that need a node which cannot be had: they complete failed, and its fetch is forgotten. -/
def Die.failFetch (d : Die) (key level idx : Nat) : Die :=
  (d.waitingFor level idx).foldl (fun (d : Die) t => (d.dropXfers t.id).complete t t.failed) (d.dropFetch key)

/-- A node is read again as a line test (R237): the paths of the lines that wait for it are in an interruption (R239). -/
def Die.nodeRetry (d : Die) (key level idx : Nat) (c : Charge) : Die :=
  let gs := (d.waitingFor level idx).filterMap fun t => t.wants level idx
  let d1 := (d.fetchPhase key phAgain).openReread (.node key) gs
  if level = 0 then d1.leafRead idx c
  else
    let r := d1.hbm c.hbm c.due (d1.nodeHbm level idx) 10 false (.node key)
    if r.1 then r.2 else r.2.fetchPhase key phDenied

/-- The line test of a node ends with a result (R505): 1 good, 2 failed; those that waited for it have met an interruption. -/
def Die.nodeTested (d : Die) (key level idx unit result : Nat) : Die :=
  let d1 := (d.waitingFor level idx).foldl (fun (d : Die) t => d.setTxn { t with faultHit := true }) (d.closeReread (.node key))
  (d1.count R.stuLineTests 1).stuEnd 1 unit 0 result

/-- A node's range becomes counter-lost (R237, R240); requests that wait for it end. -/
def Die.nodeLost (d : Die) (key level idx dga : Nat) : Die :=
  let ts := d.waitingFor level idx
  let d1 := (d.dropFetch key).addLost level (firstPage level idx) dga
  (ts.foldl (fun d t => d.mediaEvent t.ten t.ta) d1).resumeArrived

/-- A fetched node is verified and enters the counter cache, its parent used with it (R212, R220); the keystreams that waited for it are
formed (R247), and their granules go on. -/
def Die.nodeGood (d : Die) (key : Nat) (s : Stored) (ddr : Bool) : Die :=
  let d1 := { d with itr := d.itr.touch (nodeKey (keyLevel key + 1) (keyIdx key / 64)) }
  ((d1.dropFetch key).takeNode key s ddr).formAll.resumeArrived

/-- A node failure that was recovered, with the course of its record (R237, R238). -/
def Die.nodeFault (d : Die) (unit dga : Nat) : Die := (d.itrNote dga 8 8 R.itrNodeFail).record unit 0x05 0 0xff 0xffff dga 8

/-- CHK corrected a line of the HBM: it is rewritten (R237, R593). -/
def Die.nodeCorrected (d : Die) (key dga : Nat) : Die :=
  let addr := d.nodeHbm (keyLevel key) (keyIdx key)
  (d.nodeWrite key id).itrNote dga 1 2 R.itrEccCorr |>.record (hbmUnit addr) 0x01 0 0xff 0xffff addr 1

/-- A read of a node's home comes back under its parent `p` (R237): DDR for a leaf, the HBM for an interior node. -/
def Die.homeReturn (d : Die) (level idx ph : Nat) (p : Node) (a : NodeArrival) : Die :=
  let key := nodeKey level idx
  let s := (d.itr.home.find? key).getD Stored.blank
  let la := d.leafAddr (idx * 4096)
  let unit := if level = 0 then d.dimmUnit la else hbmUnit (d.nodeHbm level idx)
  let w := d.fetchCause level idx
  let fix (d : Die) : Die := if level ≠ 0 ∧ a.chk = .corrected then d.nodeCorrected key w.1 else d
  if level = 0 ∧ (d.chan (d.chanOf la)).excluded then d.failFetch key 0 idx
  else if d.nodeOk level idx p s a then
    if ph = phAgain then ((d.nodeTested key level idx unit 1).nodeFault unit w.1).nodeGood key s (decide (level = 0))
    else (fix d).nodeGood key s (decide (level = 0))
  else if ph = phAgain then (d.nodeTested key level idx unit 2).nodeLost key level idx w.1
  else if d.flt.stuDisabled then d.nodeLost key level idx w.1
  else d.nodeRetry key level idx w.2

/-- The line of its bay's block comes back for a leaf (R220, R237): one that fails is read from DDR, unless the block is pinned and the
line has no other copy; in a pinned block that is filled the failure is recorded. -/
def Die.blockReturn (d : Die) (idx : Nat) (p : Node) (b : Block) (l : BlkLine) (a : NodeArrival) : Die :=
  let key := nodeKey 0 idx
  let w := d.fetchCause 0 idx
  if d.nodeOk 0 idx p l.s a then
    (if a.chk = .corrected then d.nodeCorrected key w.1 else d).nodeGood key l.s false
  else if b.pinned ∧ l.dirty then d.nodeLost key 0 idx w.1
  else
    let d1 := if b.pinned ∧ b.filled then d.nodeFault (hbmUnit (d.nodeHbm 0 idx)) w.1 else d
    (d1.fetchPhase key phDdr).leafRead idx w.2

/-- A node under fetch arrives (R212, R220, R237); one whose parent is not known yet waits for the parent. -/
def Die.nodeReturn (d : Die) (level idx : Nat) (a : NodeArrival) : Die :=
  let key := nodeKey level idx
  match d.itr.fetches.find? fun (f : Nat × Nat) => decide (f.1 = key) with
  | none => d
  | some f =>
    if f.2 = phDenied then d.failFetch key level idx
    else if !d.nodeIssued key then d
    else match d.itr.latest (level + 1) (idx / 64) with
      | none => d.startFetch (nodeKey (level + 1) (idx / 64)) (d.fetchCause level idx).2
      | some p =>
        if p.minor (idx % 64) = 0 then (d.dropFetch key).formAll.resumeArrived
        else
          let blk := if level = 0 ∧ f.2 = phFirst then
              (d.itr.blockOf (idx / 2 ^ 18)).bind fun b => (d.itr.lines.find? (lineKey b idx)).map fun l => (d.itr.block b, l)
            else none
          match blk with
          | some (b, l) => d.blockReturn idx p b l a
          | none => d.homeReturn level idx f.2 p a

def execNodeFetchReturn (level index : Nat) (a : NodeArrival) (s : State) : Host.Outcome State Fault Refusal :=
  onLive s fun d => if 3 ≤ level then d else d.nodeReturn level index a

/-! ## Write-back (R214, R215) -/

/-- The least recently used dirty node whose home is in service. -/
def Itr.oldestDirty (i : Itr) (ok : Nat → Bool) : Option Nat :=
  ((i.cc.filter fun e => e.2.dirty && ok e.1).foldl (fun (a : Option (Nat × Nat)) e =>
    match a with
    | none => some (e.1, e.2.lru)
    | some x => if e.2.lru < x.2 then some (e.1, e.2.lru) else some x) none).map Prod.fst

/-- One write-back (R215); the parent is read first where the die does not hold it. -/
def Die.writeBackOne (d : Die) : Die :=
  match d.itr.oldestDirty fun k => !d.homeOut k with
  | none => d
  | some k => d.writeBack k

def execDirtyWriteback (s : State) : Host.Outcome State Fault Refusal :=
  onLive s fun d => if fld (d.act R.itrCfg) 16 0 ≤ d.itr.dirty + 1024 then d.writeBackOne else d

/-! ## Re-encryption (R230, R231) -/

/-- A bay whose key list already holds `k`, among those that may store in physical bay `b`. -/
def Die.listedBay (d : Die) (b k : Nat) : Nat :=
  match List.find? (fun (e : Nat × BayRec) => e.2.keyList.contains k && (decide (e.1 = b) || mappedBay e.1)) d.tens.bays with
  | some e => e.1
  | none => b

/-- Re-encrypt one marked granule of a pending image (R230, R231): its read first, then its store. A read and a store are each paid by
the contract that caused the overflow. -/
def Die.reencrypt (d : Die) (page slot : Nat) (dist : List (Nat × Arrival)) : Die :=
  let dga := page * 4096 + slot % 64 * 64
  match d.itr.pendOf page with
  | none => d.dropReads (.reenc dga)
  | some p =>
    if !p.mask.contains (slot % 64) ∨ (d.buffered dga).isSome ∨ (d.chan (d.chanOf dga)).excluded then d.dropReads (.reenc dga)
    else
      let phys := bayOf dga
      match d.indexOf dga (d.keysOfPhys phys) with
      | none => ((d.noteMismatch dga 10 0xffff 0).clearPending page (slot % 64)).dropReads (.reenc dga)
      | some k =>
        let c : Charge := { group := if p.con.isSome then 3 else 4, due := 0, louvre := p.louvre, con := p.con }
        let pay (d : Die) : Die := match p.con with
          | some n => d.payReenc n (d.chanOf dga) 1
          | none => d
        let begun (d : Die) : Bool := d.wops.any fun w => decide (w.key = .reenc dga)
        match d.reads (.reenc dga) [dga] c with
        | (none, d1) => if begun d1 && !begun d then pay d1 else d1
        | (some w, d1) =>
          let kind := (d1.heldGranule dga).kind
          let r := d1.readWhole dga k phys kind 10 0xffff 0 c dist
          let e : LaneEnt := d1.underEntry w.own { LaneEnt.metaFor c dga (d1.listedBay phys k) with kind := kind, kidx := k, reenc := true }
          let d2 := match r.1 with
            | .data l => (pay r.2).push { e with data := l }
            | .poisoned => (pay r.2).push { e with poison := true }
            | .mismatch => r.2.clearPending page (slot % 64)
            | .failed _ => (pay r.2).push { e with poison := true }
          d2.endReads w p.louvre

def execReencryptGranule (page slot : Nat) (dist : List (Nat × Arrival)) (s : State) : Host.Outcome State Fault Refusal :=
  onLive s fun d => d.reencrypt page slot dist

/-! ## Unpinned blocks (R222, R594) -/

/-- The write-backs of a block that have issued are home; leaves whose channel serves them again are queued; with none dirty left the
block is unpinned (R222, R594). -/
def Die.unpinBlock (d : Die) (block : Nat) : Die :=
  let b := d.itr.block block
  match b.writing, b.bay with
  | true, some bay =>
    let home (i : Itr) (x : Nat × BlkLine) : Itr :=
      let leaf := leafOfLine bay x.1
      let la := d.leafAddr (leaf * 4096)
      if !x.2.queued ∨ d.xfers.any (fun y => y.write && decide (y.dga = la)) then i
      else { i with home := i.home.set Stored.blank (nodeKey 0 leaf) x.2.s, lines := i.lines.insert x.1 { x.2 with dirty := false, queued := false } }
    let i := (d.itr.dirtyLines block).foldl home d.itr
    let d1 := { d with itr := i }.queueUnpins block bay
    d1.setBlock block { b with writing := decide (d1.itr.dirtyLines block ≠ []) }
  | _, _ => d

def execUnpinWritebackDone (block : Nat) (s : State) : Host.Outcome State Fault Refusal :=
  onLive s fun d => d.unpinBlock block

end Sys2Proof.Machine
end

