-- ==== Sys2Proof/Machine/PaneOps.lean ====
section
/-! DEFINITION. Machine/PaneOps.lean: page operations at the page home (R295–R306, R309, R334–R336): reading an old pane, placing a
new one, the HOLD exchange; page-map lines fetched from HBM (R290, R310). -/

namespace Sys2Proof.Machine

/-! ## Pages and panes -/

/-- DLA of line `i` of a mapped page (R277). -/
def lineDla (page i : Nat) : Nat := (8192 * 2 ^ 18 + page) * 4096 + i * 64

/-- What the metadata transfers of a writer's line are charged to (R76, R302). -/
def Writer.charge (w : Writer) : Charge :=
  { group := if w.con.isSome then 3 else 4, due := w.deadline, louvre := w.louvre, con := w.con }

/-- What the old pane's reads are charged to: a contract line's are in its own group (R96, R302). -/
def Writer.readCharge (w : Writer) : Charge := { w.charge with group := if w.con.isSome then 2 else 4 }

/-- An old pane as a page operation reads it (R291, R295): its lines (`none`: poisoned), a key mismatch, or broken. -/
inductive OldPane where
  | lines (ls : List (Option Line))
  | mismatch
  | broken
  | lost
  deriving DecidableEq, Repr

def Got.line? : Got → Option Line
  | .data l => some l
  | _ => none

/-- Read granules one by one by R224. -/
def Die.readGrs (d : Die) (gs : List Nat) (kind : Nat) (w : Writer) (dist : List (Nat × Arrival)) : List Got × Die :=
  gs.foldl (fun (a : List Got × Die) g =>
    let r := a.2.readWhole g w.kidx w.bay kind w.master w.ten w.ta w.charge dist
    (a.1 ++ [r.1], r.2)) ([], d)

/-- A pane encoded on a codec, counted (R289, R525). -/
def Die.noteEncode (d : Die) (ch : Nat) (bad : Bool) : Die :=
  let n := (d.chan ch).codec
  let d1 := (d.count (R.pcxEncCount n) 1).tally 0x51 1 [scChan ch]
  if bad then ((d1.count (R.pcxRawCount n) 1).event (R.pcxEvent n) 0).record (unitPcx n) 0x0b 0 0xff 0xffff 0 0 else d1

/-- Read and decode a pane of a PACKED or UNMAPPED page (R291, R295). A granule of a raw pane that fails twice is poisoned. -/
def Die.readPane (d : Die) (page : Nat) (e : PgEnt) (j : Nat) (w : Writer) (dist : List (Nat × Arrival)) : OldPane × Die :=
  let n := if e.st = .packed then e.len j else 0
  let gs := if e.st = .packed then e.paneDgas j else []
  if gs.any d.itr.isLost then (.lost, d)
  else if n = 0 then (.lines (List.replicate 8 (some 0)), d)
  else
    let r := d.readGrs gs 1 w dist
    if r.1.any (· == Got.mismatch) then (.mismatch, r.2)
    else if n = 8 then
      let bad := ((List.range 8).zip (gs.zip r.1)).filter fun (x : Nat × Nat × Got) => match x.2.2 with
        | .failed _ => true
        | _ => false
      let d1 := bad.foldl (fun d x => (d.poisonGranule x.2.1 1 w.kidx w.bay w.charge).logPoison (lineDla page (8 * j + x.1))) r.2
      (.lines (r.1.map Got.line?), d1)
    else
      let ls := r.1.filterMap Got.line?
      if ls.length ≠ n then (.broken, r.2)
      else
        let c := r.2.decode (r.2.chanOf (gs.headD 0)) n ls (gs.any fun g => (arrivalsOf dist g).1.slip) w.master w.ten (gs.headD 0)
        match c.1 with
        | some out => (.lines (out.map some), c.2)
        | none => (.broken, c.2)

/-! ## Placement (R299, R305) -/

def PgEnt.setPane (e : PgEnt) (j n s : Nat) : PgEnt := { e with panes := e.panes.set j (n, s) }

/-- A place for pane `j` with length `n` without repacking. -/
def PgEnt.inPlace (e : PgEnt) (j n : Nat) : Option PgEnt :=
  if n = 0 then some (e.setPane j 0 0)
  else if e.st ≠ .packed then none
  else if n ≤ e.len j then some (e.setPane j n (e.start j))
  else
    let used := (List.range 8).flatMap fun i => if i = j then [] else e.slots i
    (findSlot used e.run n).map fun s => e.setPane j n s

/-- The stores of a pane's granules at its place: data and POISON of each. -/
def paneStores (e : PgEnt) (j : Nat) (grs : List (Line × Bool)) (base : LaneEnt) : List LaneEnt :=
  (e.paneDgas j).zip grs |>.map fun (x : Nat × Line × Bool) => { base with dga := x.1, data := x.2.1, poison := x.2.2 }

/-- The writer's share pays each new granule's store, or the store goes to group 3 (R302). -/
def Die.payStores (d : Die) (es : List LaneEnt) (w : Writer) : List LaneEnt × Die :=
  es.foldl (fun (a : List LaneEnt × Die) e =>
    if w.con.isNone then (a.1 ++ [{ e with group := 4 }], a.2)
    else match a.2.drawShare w.matched (a.2.chanOf e.dga) w.transom 1 with
      | some r => (a.1 ++ [{ e with group := 2, deadline := w.deadline, con := some r.1 }], r.2)
      | none => (a.1 ++ [{ e with group := 3, con := w.con }], a.2)) ([], d)

/-- A store for a writer, before its place is known. -/
def Writer.ent (w : Writer) : LaneEnt :=
  { LaneEnt.base with kind := 1, kidx := w.kidx, bay := w.bay, master := w.master, louvre := w.louvre, wb := w.wb }

/-- Another pane of the page, read for a repack (R298 step 6): its granules with POISON, its index, and whether a compressed pane cannot
be read: it goes over poisoned, and is stored raw by an operation of its own (R295). -/
def Die.readOther (d : Die) (e : PgEnt) (i : Nat) (w : Writer) (dist : List (Nat × Arrival)) :
    (List (Line × Bool) × Nat × Bool) × Die :=
  let gs := e.paneDgas i
  let k := (d.indexOf (gs.headD 0) (d.keysFor w.bay)).getD w.kidx
  let r := d.readGrs gs 1 { w with kidx := k } dist
  let ls := r.1.filterMap Got.line?
  if ls.length = gs.length then ((ls.map fun l => (l, false), k, false), r.2)
  else if e.len i = 8 then
    ((r.1.map fun x => match x with
      | .data l => (l, false)
      | _ => (0, true), k, false), r.2)
  else ((List.replicate gs.length (0, true), k, true), r.2)

/-- What placing a pane gives: the new entry, the stores, the run it frees, the other panes a repack must move. -/
structure Placed where
  entry : PgEnt
  stores : List LaneEnt
  oldRun : Option (Nat × Nat)
  others : List Nat
  deriving DecidableEq, Repr

/-- STORE_LOW is raised as a store bay crosses LOW_WM (R306). -/
def Die.checkLow (d : Die) (base : Nat) : Die :=
  match d.storeOf (base / 2 ^ 21) with
  | none => d
  | some s =>
    match d.pmap.stores.find? s with
    | none => d
    | some x =>
      let low := d.storeLow s
      let d1 := { d with pmap := { d.pmap with stores := d.pmap.stores.insert s { x with low := low } } }
      if low ∧ !x.low then (d1.event R.pcxMapEvent 1).notice St.storeLow s else d1

/-- The runs of `r` slabs a page can take under its bay's quota (R301, R305); `plus` of USED is net of the old run. -/
def Die.takeRun (d : Die) (page old r : Nat) : Option (Nat × Die) :=
  let b := pageBay page
  if (d.bay b).quota < (d.bay b).used - old + r then none
  else (d.alloc b (pageHomeOf page) r).map fun x => (x.1, (x.2.addUsed b r old).checkLow x.1)

/-- Place pane `j` with its new granules (R299); `none`: no run or no quota. -/
def Die.placePane (d : Die) (page : Nat) (e : PgEnt) (j : Nat) (grs : List (Line × Bool)) (w : Writer) : Option Placed × Die :=
  let n := grs.length
  let oldRun := if e.st = .packed then some (e.base, e.run) else none
  match e.inPlace j n with
  | some e1 =>
    if (List.range 8).all fun i => decide (e1.len i = 0) then
      (some { entry := PgEnt.unmapped, stores := [], oldRun := oldRun, others := [] },
        d.addUsed w.bay 0 (if e.st = .packed then e.run else 0))
    else
      let r := d.payStores (paneStores e1 j grs w.ent) w
      (some { entry := { e1 with move := false }, stores := r.1, oldRun := none, others := [] }, r.2)
  | none =>
    let ps := firstFit ((List.range 8).map fun i => if i = j then n else e.len i)
    let slack := fld (d.act R.pcxMapCfg) 1 0
    let runLen := min 8 (slabsNeeded ps + slack)
    match d.takeRun page (if e.st = .packed then e.run else 0) runLen with
    | none => (none, d)
    | some (base, d1) =>
      let e1 : PgEnt := { st := .packed, move := false, acc := e.acc, run := runLen, base := base, panes := ps }
      let own := d1.payStores (paneStores e1 j grs w.ent) w
      (some { entry := e1, stores := own.1, oldRun := oldRun,
              others := (List.range 8).filter fun i => decide (i ≠ j) && decide (e.len i ≠ 0) },
        (own.2.count R.pcxRepack 1).tally 0x52 1 [scDev, scTen w.ten])

/-! ## Operations in their order (R297) -/

/-- The first operation of a page, when it has not started. -/
def Die.frontOp (d : Die) (page : Nat) : Option PageOp :=
  match d.pmap.ops.filter fun (o : PageOp) => decide (o.page = page) with
  | o :: _ => if o.started then none else some o
  | [] => none

/-- An operation ends: the next one of its page may run, and its line is no longer write-pending (R296). -/
def Die.endOp (d : Die) (o : PageOp) : Die :=
  let wp := match o.wline with
    | some l => d.pmap.wpend.erase l
    | none => d.pmap.wpend
  { d with pmap := { d.pmap with ops := d.pmap.ops.filter (fun (x : PageOp) => decide (x.seq ≠ o.seq)), wpend := wp } }.closeReads
    (.page o.seq) ((o.writer.map Writer.louvre).getD 256)

def PageOp.key (o : PageOp) : WKey := .page o.seq

def Die.setOp (d : Die) (o : PageOp) : Die :=
  { d with pmap := { d.pmap with ops := d.pmap.ops.map fun (x : PageOp) => if x.seq = o.seq then o else x } }

/-- HOLD goes to all eight slices (R300). -/
def Die.startHold (d : Die) (o : PageOp) (p : Placed) : Die :=
  d.setOp { o with started := true, repack := none, holdLeft := List.range 8, stores := p.stores, entry := p.entry, oldRun := p.oldRun }

/-- Stores of an operation under its queue entries (R117). -/
def Die.opStores (d : Die) (o : PageOp) (es : List LaneEnt) : List LaneEnt :=
  match d.wops.find? fun (w : WOp) => decide (w.key = o.key) with
  | some w => es.map (d.underEntry w.own)
  | none => es

/-- The queue entries a best-effort operation needs on the channels of these granules, beside those of its reads (R117); `none` where
one must wait. -/
def Die.opEntries (d : Die) (o : PageOp) (w : Writer) (gs : List Nat) : Option Die :=
  match (d.wops.find? fun (x : WOp) => decide (x.key = o.key)).bind (·.own) with
  | some own => d.takeEntries own w.louvre (gs.map d.chanOf)
  | none => some d

/-- No memory under a placement can be stored to: excluded channel, retired row, counter-lost or read-only page. -/
def Die.storesOut (d : Die) (p : Placed) : Bool :=
  p.stores.any fun e => (d.chan (d.chanOf e.dga)).excluded || d.retiredRow e.dga || d.itr.isLost e.dga || d.itr.isReadOnly e.dga

/-- A placement failed (R303). -/
def Die.storeFull (d : Die) (w : Writer) : Die :=
  ((d.count R.pcxStoreFull 1).event R.pcxMapEvent 2).record unitPageMap 0x23 0 w.master w.ten w.ta 0

/-- How a page operation's writer ends: its Cmp, or a poisoned write completion (R228, R298 step 5). -/
def Die.endWriter (d : Die) (t : Option Txn) (w : Writer) (good : Bool) : Die :=
  match t with
  | some t => d.complete t (if good then .cmp t.grant else .poisonWr)
  | none => if good then d else if w.master < 6 then d.mediaEvent w.ten w.ta else d

/-- A region register denies an operation's access (R417). -/
def Die.barWriter (d : Die) (t : Option Txn) (w : Writer) : Die :=
  match t with
  | some t => d.complete t t.barred
  | none => d.endWriter t w false

/-- Poison operations of a pane that wait behind the operation which replaces it. -/
def Die.dropPoisonOps (d : Die) (page j : Nat) : Die :=
  { d with pmap := { d.pmap with ops := d.pmap.ops.filter fun (o : PageOp) => o.started || decide (o.page ≠ page) ||
      (match o.op with
        | .poison p _ => decide (p ≠ j)
        | _ => true) } }

/-- Place a pane's new granules, answer the writer, and read the other panes of a repack or start the exchange; or end the operation
(R298 steps 4–7). `good`: the writer's outcome when placed; `wait`: the state to stay in while a queue entry is missing. -/
def Die.putPane (d wait : Die) (o : PageOp) (e : PgEnt) (j : Nat) (grs : List (Line × Bool)) (t : Option Txn) (w : Writer)
    (good : Bool) : Die :=
  match d.placePane o.page e j grs w with
  | (none, d1) => ((d1.storeFull w).endWriter t w false).endOp o
  | (some p, d1) =>
    match p.stores.find? fun (x : LaneEnt) => !d1.granuleOk x.dga w.master true with
    | some x => ((d.regionDeny (d.chanOf x.dga) x.dga w.master w.ten true).barWriter t w).endOp o
    | none =>
      if d1.storesOut p then (d.endWriter t w false).endOp o
      else
        let old := p.others.flatMap e.paneDgas
        match d1.opEntries o w (p.stores.map (·.dga) ++ old ++ p.others.flatMap p.entry.paneDgas) with
        | none => wait
        | some d2 =>
          let d3 := (d2.endWriter t w good).dropPoisonOps o.page j
          if p.stores = [] ∧ p.oldRun.isNone ∧ p.entry = e then d3.endOp o
          else if p.others = [] then d3.startHold o { p with stores := d3.opStores o p.stores }
          else
            let o1 : PageOp := { o with writer := some w, repack := some p.others, stores := d3.opStores o p.stores, entry := p.entry,
                                        oldRun := p.oldRun }
            ((d3.setOp o1).reads o.key old w.charge (!w.wb)).2

/-- The rest of a repack (R298 step 6, R302): the other panes, once their reads have issued, go to their new places. -/
def Die.repackRest (d : Die) (o : PageOp) (w : Writer) (others : List Nat) (dist : List (Nat × Arrival)) : Die :=
  let e := d.pgEntry o.page
  match d.reads o.key (others.flatMap e.paneDgas) w.charge (!w.wb) with
  | (none, d1) => d1
  | (some _, d1) =>
    let r := others.foldl (fun (a : List LaneEnt × Die) i =>
      let x := a.2.readOther e i w dist
      let es := paneStores o.entry i x.1.1 { w.ent with kidx := x.1.2.1, group := w.charge.group, deadline := w.deadline, con := w.con }
      (a.1 ++ es, if x.1.2.2 then x.2.pageOp o.page (.poison i x.1.2.1) else x.2)) ([], d1)
    r.2.startHold o { entry := o.entry, stores := o.stores ++ r.2.opStores o r.1, oldRun := o.oldRun, others := [] }

/-- Granules of a pane whose lines may be poisoned: encoded, or raw with POISON on the poisoned lines (R289, R304). -/
def Die.packPane (d : Die) (ls : List (Option Line)) (ch : Nat) : List (Line × Bool) × Die :=
  let good := ls.filterMap id
  if good.length = ls.length then
    let x := encodePane good
    (x.2.1.map fun l => (l, false), d.noteEncode ch x.2.2)
  else (ls.map fun l => match l with
    | some l => (l, false)
    | none => (0, true), d)

/-- An in-place store into a PLAIN page at its page home (R335). DESIGN CHOICE: a full-line write is answered before the HOLD exchange,
as step 5 of R298 does, since R335 names no moment (log entry 134). -/
def Die.plainWrite (d : Die) (o : PageOp) (e : PgEnt) (i : Nat) (data : Line) (mask : BitVec 64) (t : Option Txn) (w : Writer)
    (dist : List (Nat × Arrival)) : Die :=
  let g := e.dga i
  let full := decide (mask = BitVec.allOnes 64)
  match d.reads o.key (if full then [] else [g]) w.readCharge (!w.wb) with
  | (none, d1) => d1
  | (some _, d1) =>
    match d1.opEntries o w [g] with
    | none => d1
    | some d2 =>
      let ent : LaneEnt := { w.ent with dga := g, kind := 0, cache := d2.bayCache w.bay, con := w.con,
                                        group := if w.con.isSome then 2 else 4, deadline := w.deadline }
      let put (d : Die) (l : Line) : Die :=
        let p : Placed := { entry := { e with move := false }, stores := d.opStores o [{ ent with data := l }], oldRun := none, others := [] }
        if !d.granuleOk g w.master true then ((d.regionDeny (d.chanOf g) g w.master w.ten true).barWriter t w).endOp o
        else if d.storesOut p then (d.endWriter t w false).endOp o
        else (d.endWriter t w true).startHold o p
      if full then put d2 data
      else
        let r := d2.readWhole g w.kidx w.bay 0 w.master w.ten w.ta w.charge dist
        match r.1 with
        | .data l => put r.2 (mergeLine l data mask)
        | .failed _ => (((r.2.poisonGranule g 0 w.kidx w.bay w.charge).logPoison (lineDla o.page i)).endWriter t w false).endOp o
        | _ => (r.2.endWriter t w false).endOp o

/-- A write's pane operation (R298, R303, R304): the old pane's reads first. -/
def Die.paneWrite (d : Die) (o : PageOp) (i : Nat) (data : Line) (mask : BitVec 64) (t : Option Txn) (w : Writer)
    (dist : List (Nat × Arrival)) : Die :=
  let e := d.pgEntry o.page
  match e.st with
  | .lost => (d.endWriter t w false).endOp o
  | .plain => d.plainWrite o e i data mask t w dist
  | _ =>
    let j := i / 8
    let gs := if e.st = .packed then e.paneDgas j else []
    match gs.find? fun g => !d.granuleOk g w.master false with
    | some g => ((d.regionDeny (d.chanOf g) g w.master w.ten false).barWriter t w).endOp o
    | none =>
      match d.reads o.key gs w.readCharge (!w.wb) with
      | (none, d1) => d1
      | (some _, d1) =>
        let r := d1.readPane o.page e j w dist
        match r.1 with
        | .mismatch | .lost => (r.2.endWriter t w false).endOp o
        | .broken => (r.2.logPoison (lineDla o.page i)).putPane d1 o e j (List.replicate 8 (0, true)) t w false
        | .lines ls =>
          let full := decide (mask = BitVec.allOnes 64)
          match ls.getD (i % 8) none, full with
          | none, false => (r.2.endWriter t w false).endOp o
          | old, _ =>
            let ls1 := ls.set (i % 8) (some (mergeLine (old.getD 0) data mask))
            let c := r.2.packPane ls1 (r.2.chanOf (if e.st = .packed then e.base * 512 else 0))
            c.2.putPane d1 o e j c.1 t w true

/-- The mover as a writer (R260, R268). -/
def Die.moverWriter (d : Die) (bay kidx : Nat) : Writer :=
  { kidx := kidx, bay := bay, master := 8, ten := 0xffff, ta := 0, louvre := d.masterLouvre 8 none, con := none, deadline := 0,
    matched := [], transom := d.transom, wb := false }

/-- REKEY_FAIL in the lane of a granule's channel (R268). -/
def Die.rekeyFail (d : Die) (g : Nat) : Die := d.event (R.cryEvent (d.chan (d.chanOf g)).lane) 1

/-- CRYn_REKEY_OPS. -/
def Die.rekeyOp (d : Die) (g : Nat) : Die := d.count (R.cryRekeyOps (d.chan (d.chanOf g)).lane) 1

/-- What the mover's transfers are charged to (R115). -/
def Die.moverCharge (d : Die) : Charge := Charge.own (d.masterLouvre 8 none)

/-- No request of a line is on its way that an internal store of the line must come after (R21). -/
def Die.lineFree (d : Die) (dla : Nat) : Bool :=
  !d.pmap.wpend.contains (dla / 64) &&
  !d.txns.any fun u => decide (u.dla / 64 = dla / 64) && u.ordered && u.op.isWrite && !(decide (u.stage = .port))

/-- Re-key one granule of kind 0 (R268): read under `a`, stored unchanged under `t`; its reads have issued. -/
def Die.rekeyStore (d : Die) (g dla a t bay : Nat) (own : Option Nat) (dist : List (Nat × Arrival)) : Die :=
  let d0 := d.rekeyOp g
  let r := d0.readWhole g a bay 0 8 0xffff 0 d.moverCharge dist
  let e : LaneEnt := d.underEntry own { LaneEnt.base with
    dga := g, dla := dla, kidx := t, bay := bay, cache := d.bayCache bay, master := 8, louvre := d.moverCharge.louvre }
  if d.itr.isReadOnly g then (r.2.rekeyFail g).majorEnd 0 (nodeIdx 0 g)
  else match r.1 with
    | .data l => r.2.push { e with data := l }
    | .failed _ => (r.2.push { e with poison := true }).rekeyFail g
    | _ => r.2.rekeyFail g

/-- A granule whose KIC is that of the retiring index `a`, stored and not about to be replaced (R268). -/
def Die.rekeyMine (d : Die) (a g : Nat) : Bool :=
  d.itr.written g && decide ((d.heldGranule g).kic = kicOf a) && (d.buffered g).isNone

/-- Re-key a granule of a PLAIN bay (R268): its read first, and its store in the order of its line (R21); whether the operation has
ended. -/
def Die.rekeyGranule (d : Die) (g a t bay : Nat) (dist : List (Nat × Arrival)) : Bool × Die :=
  let dla := bay * 2 ^ 30 + g % 2 ^ 30
  match d.reads (.rekey g) [g] d.moverCharge with
  | (none, d1) => (false, d1)
  | (some w, d1) =>
    if !d1.rekeyMine a g then (true, d1.endReads w d1.moverCharge.louvre)
    else if !d1.lineFree dla ∨ d1.laneFull (d1.chanOf g) then (false, d1)
    else (true, (d1.rekeyStore g dla a t bay w.own dist).endReads w d1.moverCharge.louvre)

/-- Re-key pane `j` at its page home (R309): its reads first. -/
def Die.paneRekey (d : Die) (o : PageOp) (a j : Nat) (dist : List (Nat × Arrival)) : Die :=
  let e := d.pgEntry o.page; let b := pageBay o.page
  match d.rekeyOf b a with
  | none => d.endOp o
  | some ret =>
    let w := d.moverWriter b ret.t
    let o := { o with writer := some w }
    let gs := match e.st with
      | .plain => (range' (8 * j) 8).map e.dga
      | .packed => e.paneDgas j
      | _ => []
    match d.reads o.key gs w.charge with
    | (none, d1) => d1
    | (some x, d1) =>
      match e.st with
      | .plain =>
        let lines := (range' (8 * j) 8).filter fun i => d1.rekeyMine a (e.dga i)
        if lines.any fun i => !d1.lineFree (lineDla o.page i) || d1.laneFull (d1.chanOf (e.dga i)) then d1
        else (lines.foldl (fun (d : Die) i => d.rekeyStore (e.dga i) (lineDla o.page i) a ret.t b x.own dist) d1).endOp o
      | .packed =>
        if gs = [] ∨ (d1.heldGranule (gs.headD 0)).kic ≠ kicOf a then d1.endOp o
        else
          let d0 := d1.rekeyOp (gs.headD 0)
          let r := d0.readPane o.page e j { w with kidx := a } dist
          match r.1 with
          | .lost | .mismatch => (r.2.rekeyFail (gs.headD 0)).endOp o
          | .broken => (r.2.rekeyFail (gs.headD 0)).putPane d1 o e j (List.replicate 8 (0, true)) none w true
          | .lines ls =>
            let bad := ls.any Option.isNone
            let d2 := if bad then r.2.rekeyFail (gs.headD 0) else r.2
            if e.len j = 8 then
              d2.putPane d1 o e j (ls.map fun l => match l with
                | some l => (l, false)
                | none => (0, true)) none w true
            else
              let raw := (d1.readGrs gs 1 { w with kidx := a } dist).1.filterMap Got.line?
              d2.putPane d1 o e j (raw.map fun l => (l, false)) none w true
      | _ => d1.endOp o

/-- Mark a page for a move (R334): only while it still has the form the move started from. -/
def Die.markPage (d : Die) (o : PageOp) : Die :=
  let e := d.pgEntry o.page
  match d.tir.moves.find? fun (m : Move) => decide (m.page = o.page) with
  | none => d.endOp o
  | some m =>
    if e.st = (if m.toPlain then PgSt.packed else PgSt.plain) then
      d.startHold o { entry := { e with move := true }, stores := [], oldRun := none, others := [] }
    else ({ d with tir := { d.tir with moves := d.tir.moves.filter fun (x : Move) => decide (x.page ≠ o.page) } }).endOp o

/-- Commit a move (R334), or abandon it where the page was written. -/
def Die.commitMove (d : Die) (o : PageOp) : Die :=
  let e := d.pgEntry o.page
  match d.tir.moves.find? fun (m : Move) => decide (m.page = o.page) with
  | none => d.endOp o
  | some m =>
    if e.move ∧ e.st ≠ .lost then
      let d1 := { d with tir := { d.tir with moves := d.tir.moves.filter fun (x : Move) => decide (x.page ≠ o.page) } }
      let dir := if m.toPlain then (d1.count R.tirPromoted 1).tally 0x60 1 [scDev] else (d1.count R.tirDemoted 1).tally 0x61 1 [scDev]
      let old := if e.st = .packed ∨ e.st = .plain then some (e.base, e.run) else none
      (dir.addUsed (pageBay o.page) 0 (if old.isSome then e.run else 0)).startHold o
        { entry := m.newEnt, stores := [], oldRun := old, others := [] }
    else (d.abandonMoves fun (x : Move) => decide (x.page = o.page)).endOp o

/-- The writer of a request's page operation; its share of the old pane's reads is drawn once, at entry (R302). -/
def Die.pageWriter (d : Die) (o : PageOp) (t : Txn) : Writer × Txn × Die :=
  match o.writer with
  | some w => (w, { t with con := w.con }, d)
  | none =>
    let e := d.pgEntry o.page; let i := t.dla / 64 % 64
    let n := if e.st = .packed then max 1 (e.len (i / 8)) else 1
    let ch := match e.st with
      | .packed => d.chanOf ((e.paneDgas (i / 8)).headD (e.base * 512))
      | .plain => d.chanOf (e.dga i)
      | _ => match d.setOfDlaBay (bayOf t.dla) with
        | some s => (d.setChannels s).headD 0
        | none => 0
    let r := d.drawFor t ch (n + t.carry)
    let t1 : Txn := if r.1.isSome then { t with con := r.1, ch := ch } else { t.bestEffort with ch := ch }
    let w : Writer := { kidx := t.kidx, bay := bayOf t.dla, master := t.master, ten := t.ten, ta := t.ta, louvre := t.louvre,
                        con := r.1, deadline := t.deadline, matched := t.matched, transom := t.stamp / 50, wb := false }
    (w, t1, (r.2.setTxn t1).setOp { o with writer := some w })

/-- A write-back's writer (R168, R297): it draws from no share. -/
def Die.wbWriter (d : Die) (dla kidx port louvre : Nat) : Writer :=
  let own := d.ownerOf dla
  { kidx := kidx, bay := bayOf dla, master := port, ten := (own.map Prod.fst).getD 0xffff, ta := (own.map Prod.snd).getD 0,
    louvre := louvre, con := none, deadline := 0, matched := [], transom := d.transom, wb := true }

/-- Begin the front operation of a page, or go on where it waits for its reads. -/
def Die.beginOp (d : Die) (o : PageOp) (dist : List (Nat × Arrival)) : Die :=
  match o.op with
  | .write id =>
    match d.txn? id with
    | none => d.endOp o
    | some t =>
      let x := d.pageWriter o t
      let o1 := { o with writer := some x.1 }
      x.2.2.paneWrite o1 (t.dla / 64 % 64) t.data (if t.op = .wrPart then t.mask else BitVec.allOnes 64) (some x.2.1) x.1 dist
  | .wb dla data kidx port louvre =>
    let w := d.wbWriter dla kidx port louvre
    d.paneWrite { o with writer := some w } (dla / 64 % 64) data (BitVec.allOnes 64) none w dist
  | .mark => d.markPage o
  | .commit => d.commitMove o
  | .rekey a j => d.paneRekey o a j dist
  | .poison j kidx =>
    let e := d.pgEntry o.page
    if e.st = .packed ∧ 1 ≤ e.len j ∧ e.len j ≤ 7 then
      let w := d.moverWriter (pageBay o.page) kidx
      match d.reads o.key [] w.charge with
      | (none, d1) => d1
      | (some _, d1) => d1.putPane d1 { o with writer := some w } e j (List.replicate 8 (0, true)) none w true
    else d.endOp o

/-! ## The HOLD exchange (R300) -/

/-- The operation of a page whose exchange runs. -/
def Die.runningOp (d : Die) (page : Nat) : Option PageOp :=
  d.pmap.ops.find? fun (o : PageOp) => decide (o.page = page) && o.started

/-- Step 2: the slice drops its entry and stops passing the page's reads. -/
def Die.holdReceived (d : Die) (slice page : Nat) : Die :=
  match d.runningOp page with
  | none => d
  | some o =>
    if !o.holdLeft.contains slice then d
    else
      let d1 := d.pmDrop slice page
      let d2 := { d1 with pmap := { d1.pmap with held := d1.pmap.held ++ [(slice, page)] } }
      d2.setOp { o with holdLeft := o.holdLeft.erase slice, answerLeft := o.answerLeft ++ [slice] }

def execHoldReceived (slice page : Nat) (s : State) : Host.Outcome State Fault Refusal :=
  onLive s fun d => d.holdReceived slice page

/-- Steps 8–10 of R298: stores, the entry (ACC as the HBM line holds it, R330), RELEASE, freed slabs. An entry that became LOST
meanwhile stays so. -/
def Die.publish (d : Die) (o : PageOp) : Die :=
  let e0 := d.pgEntry o.page
  let d1 := if e0.st = .lost then d
    else
      let e := if o.entry.st = .unmapped then PgEnt.unmapped else { o.entry with acc := e0.acc }
      let r := (o.stores.foldl Die.push d).hbm 2 0 (pageMapAddr o.page) 14 true (.entryWrite o.page)
      if r.1 then r.2.setPgEnt o.page e else r.2
  let d2 := match o.oldRun with
    | some (b, r) => d1.freeRunOf b r
    | none => d1
  let d3 := d2.closeReads o.key ((o.writer.map Writer.louvre).getD 256)
  d3.setOp { o with stores := [], oldRun := none, released := true, relLeft := List.range 8 }

/-- Every slice has answered: the operation is published once the lanes have room for its stores. -/
def Die.publishReady (d : Die) (o : PageOp) : Die :=
  if o.started ∧ o.holdLeft = [] ∧ o.answerLeft = [] ∧ !o.released ∧ d.storesFit o.stores then d.publish o else d

/-- A slice has passed a partial write of the page whose store has not entered its lane: the answer waits for it (R300, R336). -/
def Die.passedBefore (d : Die) (slice page : Nat) : Bool :=
  d.txns.any fun t => decide (t.op = .wrPart) && decide (homeOf t.dla = slice) && mappedBay (bayOf t.dla) && decide (pageOf t.dla = page) &&
    (match t.stage with
      | .mem | .counter | .test => true
      | _ => false)

/-- Step 3: a slice answers; with the last answer the page home goes on. -/
def Die.holdAnswer (d : Die) (slice page : Nat) : Die :=
  match d.runningOp page with
  | none => d
  | some o =>
    if !o.answerLeft.contains slice ∨ d.passedBefore slice page then d
    else
      let o1 : PageOp := { o with answerLeft := o.answerLeft.erase slice }
      (d.setOp o1).publishReady o1

def execHoldAnswer (slice page : Nat) (s : State) : Host.Outcome State Fault Refusal :=
  onLive s fun d => d.holdAnswer slice page

/-- A mark's last RELEASE lets the copy begin (R334). -/
def Die.markDone (d : Die) (o : PageOp) : Die :=
  if o.op = .mark then
    { d with tir := { d.tir with moves := d.tir.moves.map fun (m : Move) => if m.page = o.page then { m with phase := 1 } else m } }
  else d

/-- Step 4: a slice takes the new entry and resumes what it held. -/
def Die.releaseReceived (d : Die) (slice page : Nat) : Die :=
  match d.runningOp page with
  | none => d
  | some o =>
    if !o.relLeft.contains slice then d
    else
      let o1 : PageOp := { o with relLeft := o.relLeft.erase slice }
      let d1 := d.pmInsert slice page
      let d2 := { d1 with pmap := { d1.pmap with held := d1.pmap.held.filter (fun (x : Nat × Nat) => decide (x ≠ (slice, page))) } }
      let d3 := if o1.relLeft = [] then (d2.endOp o1).markDone o1 else d2.setOp o1
      (d3.txns.filter fun t => decide (t.stage = .pageHold) && decide (homeOf t.dla = slice) && mappedBay (bayOf t.dla) &&
        decide (pageOf t.dla = page)).foldl (fun d t => d.passOne t false) d3

def execReleaseReceived (slice page : Nat) (s : State) : Host.Outcome State Fault Refusal :=
  onLive s fun d => d.releaseReceived slice page

/-! ## Running an operation -/

/-- Run the front operation of a page, or the one under way as far as it can go on. -/
def Die.runPageOp (d : Die) (page : Nat) (dist : List (Nat × Arrival)) : Die :=
  match d.runningOp page with
  | some o => d.publishReady o
  | none =>
    match d.frontOp page with
    | none => d
    | some o =>
      match o.repack, o.writer with
      | some others, some w => d.repackRest o w others dist
      | _, _ => d.beginOp o dist

def execPaneOperation (page : Nat) (dist : List (Nat × Arrival)) (s : State) : Host.Outcome State Fault Refusal :=
  onLive s fun d => d.runPageOp page dist

/-! ## Page-map lines from HBM (R290, R295, R310) -/

/-- An uncorrectable page-map line: its four entries become LOST and its group's slabs stay out of use (R310). -/
def Die.mapLineLost (d : Die) (page : Nat) : Die :=
  let drop (d : Die) (p : Nat) : Die :=
    let e := d.pgEntry p
    (if e.st = .packed ∨ e.st = .plain then d.addUsed (pageBay p) 0 e.run else d).setPgEnt p { PgEnt.unmapped with st := .lost }
  let d1 := (range' (page / 4 * 4) 4).foldl drop (d.hbm 2 0 (pageMapAddr page) 14 true (.entryWrite page)).2
  let g := page / 4; let s := g / 65536; let key := s * 8 + g % 8
  let d2 := { d1 with pmap := { d1.pmap with
    gone := if d1.pmap.gone.contains g then d1.pmap.gone else g :: d1.pmap.gone,
    slabs := d1.pmap.slabs.set 0 g 0xffffffff,
    openL := d1.pmap.openL.insert key ((d1.openList s (g % 8)).filter fun x => decide (x ≠ g % 65536)) } }
  let a := pageMapAddr page
  (d2.event R.pcxMapEvent 3).recordOnly (unitHbm (Config.pseudoOf a % 16)) 0x03 1 0xff 0xffff a 0 false

/-- A page-map line arrives at a slice: the mapped line's location is fixed. -/
def Die.pageMapReturn (d : Die) (slice page : Nat) (e : Ecc) : Die :=
  if !d.pmap.fetch.contains (slice, page) ∨ d.hbmWaits (.pageMap slice page) then d
  else
    let d1 := { d with pmap := { d.pmap with fetch := d.pmap.fetch.filter (fun (x : Nat × Nat) => decide (x ≠ (slice, page))) } }
    let a := pageMapAddr page
    let d2 := match e with
      | .clean => d1
      | .corrected => (d1.hbm 2 0 a 14 true (.entryWrite page)).2.recordOnly (unitHbm (Config.pseudoOf a % 16)) 0x01 0 0xff 0xffff a 0 false
      | .uncorrectable => d1.mapLineLost page
    let d3 := d2.pmInsert slice page
    (d3.txns.filter fun t => decide (t.stage = .pageMap) && decide (homeOf t.dla = slice) && decide (pageOf t.dla = page)).foldl
      (fun d t => d.passOne t false) d3

def execPageMapFetchReturn (slice page : Nat) (e : Ecc) (s : State) : Host.Outcome State Fault Refusal :=
  onLive s fun d => d.pageMapReturn slice page e

end Sys2Proof.Machine
end

