-- ==== Sys2Proof/Machine/Mover.lean ====
section
/-! DEFINITION. Machine/Mover.lean: what the mover does: scans and moves (R332–R340), retirements of a keyhole index by re-key and
erasure (R262–R274, R308–R310), their flush (R263, R349), and lost ranges returning to service (R241). -/

namespace Sys2Proof.Machine

/-- The mover works: not while the device enters, is in or leaves SL2 or SL3 (R265, R340, R370). -/
def Die.moverRuns (d : Die) : Bool :=
  match d.pwr.st with
  | .run | .sl1 _ => !d.flt.doorstop
  | _ => false

def onMover (s : State) (f : Die → Die) : Host.Outcome State Fault Refusal :=
  onLive s fun d => if d.moverRuns then f d else d

/-- The mover's louvre (R115). -/
def Die.moverLouvre (d : Die) : Nat := d.masterLouvre 8 none

/-! ## Scans (R332, R333) -/

/-- The live TIERED entry of a DLA bay. -/
def Die.tieredEntry (d : Die) (bay : Nat) : Option Bt :=
  match d.entriesOfBay bay with
  | e :: _ => if (d.bt e).mode = 2 ∧ (d.bt e).st = .live then some (d.bt e) else none
  | [] => none

def Die.policyOf (d : Die) (b : Bt) : Reg := d.act (R.tirPolicy b.policy)

/-- A scan period of a TIERED bay begins. -/
def Die.scanStart (d : Die) (bay : Nat) : Die :=
  match d.tieredEntry bay with
  | none => d
  | some b =>
    if d.transom % 2 ^ fld (d.policyOf b) 28 24 ≠ 0 then d
    else if d.tir.scans.any fun (s : Scan) => decide (s.bay = bay) then d.event R.tirEvent 3
    else { d with tir := { d.tir with scans := d.tir.scans ++ [{ bay := bay, next := 0, asked := false }] } }

def execScanStart (bay : Nat) (s : State) : Host.Outcome State Fault Refusal := onMover s fun d => d.scanStart bay

/-- The bay is named by an ACTIVE or FROZEN contract. -/
def Die.contractHolds (d : Die) (bay : Nat) : Bool :=
  d.contracts.any fun c => (decide (c.st = .active) || decide (c.st = .frozen)) && c.use.dla.contains bay

/-- Start a move: its mark joins the page's operations (R334). -/
def Die.startMove (d : Die) (page : Nat) (toPlain : Bool) : Die :=
  let m : Move := { page := page, toPlain := toPlain, phase := 0, newRun := none, newEnt := PgEnt.unmapped }
  ({ d with tir := { d.tir with moves := d.tir.moves ++ [m] } }).pageOp page .mark

/-- Halve a page's ACC (R330): an atomic read-modify-write of the HBM controller, under the mover's read right (R416). -/
def Die.halveAcc (d : Die) (page : Nat) : Die := (d.hbm 3 0 (pageMapAddr page) 8 false (.accHalve page)).2

/-- Lines the scans have read in this transom. -/
def Die.scanned (d : Die) : Nat := if d.tir.read.1 = d.transom then d.tir.read.2 else 0

/-- A scan asks for a page-map line, within SCAN_RATE lines a transom over all scans (R332, R351): whether it asked, and whether the mover
may read the line. -/
def Die.askLine (d : Die) (page : Nat) : Bool × Bool × Die :=
  if fld (d.act R.tirCfg) 12 4 ≤ d.scanned then (false, true, d)
  else
    let r := d.hbm 3 0 (pageMapAddr page) 8 false (.scan page)
    (true, r.1, { r.2 with tir := { r.2.tir with read := (d.transom, d.scanned + 1) } })

/-- A page-map line of a scan is read: whether it has been asked for, whether the mover may read it (`none` while the read has not
issued). -/
def Die.scanLine (d : Die) (page : Nat) (asked : Bool) : Bool × Option Bool × Die :=
  let r := if asked then (true, true, d) else d.askLine page
  (r.1, if !r.1 then none else if !r.2.1 then some false else if r.2.2.hbmWaits (.scan page) then none else some true, r.2.2)

/-- Treat one page of a scan; `none`: every move is in use and the scan waits (R332). -/
def Die.scanPage (d : Die) (b : Bt) (bay page : Nat) : Option Die :=
  let e := d.pgEntry page; let p := d.policyOf b
  let up := decide (e.st = .packed) && decide (fld p 15 8 ≤ e.acc)
  let down := decide (e.st = .plain) && decide (e.acc ≤ fld p 7 0) && !(bit p 31 && d.contractHolds bay)
  let busy := d.tir.moves.any fun (m : Move) => decide (m.page = page)
  if (up || down) && !busy then
    if fld (d.act R.tirCfg) 22 16 ≤ d.tir.moves.length then none
    else some ((d.startMove page up).halveAcc page)
  else some (d.halveAcc page)

/-- The next `n` pages of a scan, while moves are free and their lines come: the page it stands at, and whether that page's line has been
asked for. -/
def Die.scanPages (b : Bt) (bay : Nat) : Nat → Die → Nat → Bool → Die × Nat × Bool
  | 0, d, p, asked => (d, p, asked)
  | n + 1, d, p, asked =>
    if 2 ^ 18 ≤ p then (d, p, false)
    else
      let page := (bay - 8192) * 2 ^ 18 + p
      let r := if p % 4 = 0 then d.scanLine page asked else (true, some true, d)
      match r.2.1 with
      | none => (r.2.2, p, r.1)
      | some false => Die.scanPages b bay n r.2.2 (p + 4) false
      | some true => match r.2.2.scanPage b bay page with
        | none => (r.2.2, p, true)
        | some d1 => Die.scanPages b bay n d1 (p + 1) false

/-- The mover treats the next page-map lines of a scan: four entries a line, at most SCAN_RATE lines. -/
def Die.scanStep (d : Die) (bay lines : Nat) : Die :=
  match d.tir.scans.find? (fun (s : Scan) => decide (s.bay = bay)) with
  | none => d
  | some s =>
    let rest := d.tir.scans.filter fun (x : Scan) => decide (x.bay ≠ bay)
    match d.tieredEntry bay with
    | none => { d with tir := { d.tir with scans := rest } }
    | some b =>
      let r := Die.scanPages b bay (4 * min lines (fld (d.act R.tirCfg) 12 4)) d s.next s.asked
      let d1 := r.1
      if 2 ^ 18 ≤ r.2.1 then { d1 with tir := { d1.tir with scans := d1.tir.scans.filter fun (x : Scan) => decide (x.bay ≠ bay) } }
      else { d1 with tir := { d1.tir with scans := d1.tir.scans.map fun (x : Scan) => if x.bay = bay then { x with next := r.2.1, asked := r.2.2 } else x } }

def execScanStep (bay lines : Nat) (s : State) : Host.Outcome State Fault Refusal := onMover s fun d => d.scanStep bay lines

/-! ## Copies (R334, R337–R339) -/

/-- The index a granule is stored under, buffered or in DRAM; `none` where it reads as zeros (R202). -/
def Die.lineIndex (d : Die) (g bay : Nat) : Option Nat :=
  match d.buffered g with
  | some e => some e.kidx
  | none => if d.itr.written g then d.indexOf g (d.keysFor bay) else none

/-- Set a move's copy done and hand it to the commit. -/
def Die.copied (d : Die) (page : Nat) (run : Nat × Nat) (e : PgEnt) : Die :=
  let f (m : Move) : Move := if m.page = page then { m with phase := 2, newRun := if run.2 = 0 then none else some run, newEnt := e } else m
  (({ d with tir := { d.tir with moves := d.tir.moves.map f } }).closeReads (.copy page) d.moverLouvre).pageOp page .commit

/-- A move ends without a copy (R338). -/
def Die.skipMove (d : Die) (page : Nat) : Die :=
  { d with tir := { d.tir with moves := d.tir.moves.filter fun (m : Move) => decide (m.page ≠ page) } }.closeReads (.copy page) d.moverLouvre

/-- No quota or no run (R338). -/
def Die.quotaSkip (d : Die) (page : Nat) : Die := ((d.skipMove page).count R.tirQuotaSkip 1).event R.tirEvent 1

/-- A read of a copy failed (R339). -/
def Die.moveFail (d : Die) (page : Nat) : Die := (d.event R.tirEvent 2).abandonMoves fun (m : Move) => decide (m.page = page)

/-- The eight lines of a pane of a PACKED page and the index they carry (`none`: a zero pane); `none` for a failed read. -/
def Die.copyPane (d : Die) (page : Nat) (e : PgEnt) (j : Nat) (dist : List (Nat × Arrival)) :
    Option (List Line × Option Nat) × Die :=
  if e.len j = 0 then (some (List.replicate 8 0, none), d)
  else
    let bay := pageBay page
    let k := (d.lineIndex ((e.paneDgas j).headD 0) bay).getD (d.defKeyOf bay)
    let r := d.readPane page e j (d.moverWriter bay k) dist
    match r.1 with
    | .lines ls =>
      let good := ls.filterMap id
      if good.length = 8 then (some (good, some k), r.2) else (none, r.2)
    | .broken => (none, r.2.pageOp page (.poison j k))
    | _ => (none, r.2)

/-- The eight lines of pane `j` of a PLAIN page, and the indices they carry; `none` for a failed read. -/
def Die.copyLines (d : Die) (page : Nat) (e : PgEnt) (j : Nat) (dist : List (Nat × Arrival)) :
    Option (List Line × List Nat) × Die :=
  let bay := pageBay page
  (range' (8 * j) 8).foldl (fun (a : Option (List Line × List Nat) × Die) i =>
    match a.1 with
    | none => a
    | some (ls, ks) =>
      let g := e.dga i
      match a.2.lineIndex g bay with
      | none => if a.2.itr.isLost g then (none, a.2) else (some (ls ++ [0], ks), a.2)
      | some k =>
        let r := a.2.readWhole g k bay 0 8 0xffff 0 d.moverCharge dist
        match r.1 with
        | .data l => (some (ls ++ [l], if ks.contains k then ks else ks ++ [k]), r.2)
        | .failed _ => (none, (r.2.poisonGranule g 0 k bay d.moverCharge).logPoison (lineDla page i))
        | _ => (none, r.2)) (some ([], []), d)

/-- Collect over the eight panes, stopping at the first failure. -/
def gatherPanes {α : Type} (f : Die → Nat → Option α × Die) (d : Die) : Option (List α) × Die :=
  (List.range 8).foldl (fun (a : Option (List α) × Die) j =>
    match a.1 with
    | none => a
    | some xs =>
      let r := f a.2 j
      (r.1.map fun x => xs ++ [x], r.2)) (some [], d)

/-- The stores of a copy enter their lanes under the move's queue entries, and the commit follows; while an entry or a place in a lane is
missing the move stays as `wait` has it (R117). -/
def Die.storeCopy (d wait : Die) (w : WOp) (page : Nat) (run : Nat × Nat) (e : PgEnt) (es : List LaneEnt) : Die :=
  match d.pushUnder (w.own.getD 0) d.moverLouvre es with
  | some d1 => d1.copied page run e
  | none => wait

/-- A promotion's copy: 64 lines as KIND 0b000 in 8 slabs. -/
def Die.promote (d : Die) (w : WOp) (page : Nat) (e : PgEnt) (dist : List (Nat × Arrival)) : Die :=
  let bay := pageBay page
  let r := gatherPanes (fun d j => d.copyPane page e j dist) d
  match r.1 with
  | none => r.2.moveFail page
  | some ps =>
    match r.2.takeRun page 0 8 with
    | none => r.2.quotaSkip page
    | some (base, d1) =>
      let e1 : PgEnt := { st := .plain, move := false, acc := e.acc, run := 8, base := base, panes := List.replicate 8 (0, 0) }
      let ls := ps.flatMap fun (p : List Line × Option Nat) => p.1.map fun l => (l, p.2.getD (d.defKeyOf bay))
      let es := ((List.range 64).zip ls).map fun (x : Nat × Line × Nat) =>
        { LaneEnt.base with dga := e1.dga x.1, dla := lineDla page x.1, data := x.2.1, kidx := x.2.2, bay := bay, cache := d.bayCache bay,
                            master := 8, louvre := d.moverLouvre }
      d1.storeCopy d w page (base, 8) e1 es

/-- A demotion's copy: the panes encoded and placed first-fit. -/
def Die.demotePage (d : Die) (w : WOp) (page : Nat) (e : PgEnt) (dist : List (Nat × Arrival)) : Die :=
  let bay := pageBay page
  let r := gatherPanes (fun d j => d.copyLines page e j dist) d
  match r.1 with
  | none => r.2.moveFail page
  | some ps =>
    if ps.any fun (p : List Line × List Nat) => decide (2 ≤ p.2.length) && !p.1.all (· == 0) then
      (r.2.skipMove page).count R.tirMixedSkip 1
    else
      let enc := ps.map fun (p : List Line × List Nat) => encodePane p.1
      let places := firstFit (enc.map fun x => x.1)
      let runLen := min 8 (slabsNeeded places + fld (d.act R.pcxMapCfg) 1 0)
      if slabsNeeded places = 0 then r.2.copied page (0, 0) PgEnt.unmapped
      else
        match r.2.takeRun page 0 runLen with
        | none => r.2.quotaSkip page
        | some (base, d1) =>
          let e1 : PgEnt := { st := .packed, move := false, acc := e.acc, run := runLen, base := base, panes := places }
          let xs := (List.range 8).zip (enc.zip ps)
          let d2 := xs.foldl (fun (d : Die) (x : Nat × (Nat × List Line × Bool) × List Line × List Nat) =>
            if x.2.1.1 = 0 then d else d.noteEncode (d.chanOf (e1.dga (e1.start x.1))) x.2.1.2.2) d1
          let es := xs.flatMap fun (x : Nat × (Nat × List Line × Bool) × List Line × List Nat) =>
            paneStores e1 x.1 (x.2.1.2.1.map fun l => (l, false)) (d.moverWriter bay (x.2.2.2.headD (d.defKeyOf bay))).ent
          d2.storeCopy d w page (base, runLen) e1 es

/-- The copy of a marked page: its reads first (R337). -/
def Die.moveCopy (d : Die) (page : Nat) (dist : List (Nat × Arrival)) : Die :=
  match d.tir.moves.find? (fun (m : Move) => decide (m.page = page) && decide (m.phase = 1)) with
  | none => d
  | some m =>
    let e := d.pgEntry page
    let gs := match e.st with
      | .plain => (List.range 64).map e.dga
      | .packed => (List.range 8).flatMap e.paneDgas
      | _ => []
    if (e.st = .packed ∧ m.toPlain) ∨ (e.st = .plain ∧ !m.toPlain) then
      match d.reads (.copy page) gs d.moverCharge with
      | (none, d1) => d1
      | (some w, d1) => if m.toPlain then d1.promote w page e dist else d1.demotePage w page e dist
    else (d.abandonMoves fun (x : Move) => decide (x.page = page))

def execMoveCopy (page : Nat) (dist : List (Nat × Arrival)) (s : State) : Host.Outcome State Fault Refusal :=
  onMover s fun d => d.moveCopy page dist

/-- The page home runs a move's commit in its page order. -/
def execMoveCommit (page : Nat) (s : State) : Host.Outcome State Fault Refusal :=
  onMover s fun d =>
    match d.frontOp page with
    | some o => if o.op = .commit then d.runPageOp page [] else d
    | none => d

/-! ## Leaves of a bay reset (R234, R274) -/

/-- A leaf set by the mover; pending bits of the page clear (R230). -/
def Die.putReset (d : Die) (page : Nat) (n : Node) : Die :=
  let d1 := { d with itr := { d.itr with pend := d.itr.pend.filter fun (p : Pending) => decide (p.leaf ≠ page) } }
  if d1.itr.latest 0 page = some n then d1 else d1.setLeaf page n 4 d.moverLouvre none

/-- Scrub one page (R234): MAJOR + 1, every minor 0; a page at the end of its MAJOR keeps it and is read-only from then on (R233). -/
def Die.scrubLeaf (d : Die) (page : Nat) : Die :=
  let d1 := d.learn (page * 4096) d.moverCharge
  match d1.itr.isLost (page * 4096), d1.itr.leafSure page with
  | false, some n =>
    if n.major = majorMax then (d1.majorEnd 0 page).putReset page { n with minors := [] }
    else d1.putReset page { major := n.major + 1, minors := [] }
  | _, _ => d1

/-- Erase one page's leaf by the table of R274. -/
def Die.eraseLeaf (d : Die) (page : Nat) (reset : Bool) : Die :=
  let d1 := d.learn (page * 4096) d.moverCharge
  match d1.itr.isLost (page * 4096), d1.itr.leafSure page with
  | false, some n =>
    if reset then
      let d2 := d1.putReset page Node.zero
      { d2 with itr := { d2.itr with readOnly := d2.itr.readOnly.filter fun (r : Nat × Nat) => decide (r ≠ (0, page)) } }
    else if n.major = majorMax then d1.addLost 0 page (page * 4096)
    else d1.putReset page { major := n.major + 1, minors := [] }
  | _, _ => d1

/-- A page whose leaf lies on an excluded channel and is held nowhere else (R594). -/
def Die.pageOut (d : Die) (page : Nat) : Bool := d.leafGone (page * 4096)

/-! ## Counter-lost ranges return to service (R241, R310) -/

/-- The DGAs of a page-map entry's granules. -/
def PgEnt.dgas (e : PgEnt) : List Nat :=
  match e.st with
  | .plain => (List.range 64).map e.dga
  | .packed => (List.range 8).flatMap e.paneDgas
  | _ => []

def Lost.covers (l : Lost) (g : Nat) : Bool := decide (nodeIdx l.level g = nodeIdx l.level (l.page * 4096))

/-- Rebuild the node of a lost range and remove it from the table. -/
def Die.rebuild (d : Die) (l : Lost) : Die :=
  let idx := nodeIdx l.level (l.page * 4096)
  let under (k : Nat) : Bool := decide (keyLevel k ≤ l.level) && decide (nodeIdx l.level (nodeBase (keyLevel k) (keyIdx k)) = idx)
  let i : Itr := { d.itr with lost := d.itr.lost.filter (fun (x : Lost) => decide (x.level ≠ l.level ∨ x.page ≠ l.page)), cc := d.itr.cc.filter fun (e : Nat × CcEnt) => !under e.1,
                              pend := d.itr.pend.filter fun (p : Pending) => !l.covers (p.leaf * 4096),
                              readOnly := d.itr.readOnly.filter fun (r : Nat × Nat) => !(decide (r.1 ≤ l.level) && l.covers (nodeBase r.1 r.2)) }
  let d1 := { d with itr := i }
  if l.level = 0 then d1.setLeaf idx Node.zero 4 d.moverLouvre none
  else
    let n : Node := { major := Tbl.get 0 i.hwm l.level + 1, minors := [] }
    let i1 := i.mark l.level n.major
    if l.level = 3 then { d with itr := { i1 with l3 := i1.l3.set Node.zero idx n } }
    else
      let e : CcEnt := { node := n, dirty := true, lru := 0, group := 4, louvre := d.moverLouvre, con := none }
      { d with itr := i1 }.place evictChain (nodeKey l.level idx) e

/-- The mapped bays that hold a page or a pane in a lost range. -/
def Die.lostHolders (d : Die) (l : Lost) : List Nat :=
  (d.pmap.ents.filter fun (e : Nat × PgEnt) => e.2.dgas.any l.covers).map fun (e : Nat × PgEnt) => pageBay e.1

/-- A DLA bay has been erased or re-keyed: the lost ranges of physical bay `b` that every bay holding a page in them has now been cleared
of return to service (R241, R310). -/
def Die.returnLost (d : Die) (bay b : Nat) : Die :=
  let note (l : Lost) : Lost := if l.page / 2 ^ 18 = b then { l with cleared := (bay :: l.cleared).eraseDups } else l
  let d1 := { d with itr := { d.itr with lost := d.itr.lost.map note } }
  (d1.itr.lost.filter fun (l : Lost) => decide (l.page / 2 ^ 18 = b) && (d1.lostHolders l).all l.cleared.contains).foldl Die.rebuild d1

/-- The ranges a DLA bay's clearing may return: those of its own physical bay, or of its store bays. -/
def Die.returnFor (d : Die) (bay : Nat) : Die :=
  if mappedBay bay then
    [(d.bay bay).primary, (d.bay bay).secondary].foldl (fun (d : Die) s => match d.pmap.stores.find? s with
      | some x => d.returnLost bay x.bay
      | none => d) d
  else d.returnLost bay bay

/-- Pages of a mapped bay that are listed in the page map. -/
def Die.mapPages (d : Die) (bay : Nat) : List (Nat × PgEnt) :=
  d.pmap.ents.filter fun (e : Nat × PgEnt) => decide (pageBay e.1 = bay)

/-- At the end of a re-key: LOST entries become UNMAPPED and panes in counter-lost ranges LEN 0 (R310). -/
def Die.mendLost (d : Die) (bay : Nat) : Die :=
  (d.mapPages bay).foldl (fun (d : Die) (x : Nat × PgEnt) =>
    let e := d.pgEntry x.1
    if e.st = .lost then d.setPgEnt x.1 PgEnt.unmapped
    else if e.st = .packed then
      let e1 := (List.range 8).foldl (fun (e : PgEnt) j => if (e.paneDgas j).any d.itr.isLost then e.setPane j 0 0 else e) e
      if e1 = e then d
      else if (List.range 8).all fun j => decide (e1.len j = 0) then
        ((d.setPgEnt x.1 PgEnt.unmapped).freeRunOf e.base e.run).addUsed bay 0 e.run
      else d.setPgEnt x.1 e1
    else d) d

/-- Every entry of a mapped bay becomes UNMAPPED, its runs are freed, USED is 0 (R308). -/
def Die.unmapBay (d : Die) (bay : Nat) : Die :=
  let d1 := (d.mapPages bay).foldl (fun (d : Die) (x : Nat × PgEnt) =>
    let e := d.pgEntry x.1
    (if e.st = .packed ∨ e.st = .plain then d.freeRunOf e.base e.run else d).setPgEnt x.1 PgEnt.unmapped) d
  let p := d1.pmap
  { d1 with pmap := { p with cached := p.cached.filter fun (x : Nat × Nat) => decide (pageBay x.2 ≠ bay) } }.setBay bay
    { (d1.bay bay) with used := 0 }

/-- Page operations of a bay wait or run at the page home. -/
def Die.opsInBay (d : Die) (bay : Nat) : Bool := d.pmap.ops.any fun (o : PageOp) => decide (pageBay o.page = bay)

/-! ## Retirements (R262–R274) -/

def Die.retire? (d : Die) (a : Nat) : Option Retire := d.keys.rets.find? fun (r : Retire) => decide (r.a = a)

def Die.setRet (d : Die) (r : Retire) : Die :=
  { d with keys := { d.keys with rets := d.keys.rets.map fun (x : Retire) => if x.a = r.a then r else x } }

def Die.setSlotSt (d : Die) (a : Nat) (st : KeySt) : Die := d.setSlot a { (d.slot a) with st := st }

/-- Set the default key of every entry of a DLA bay whose default is `a`, a moving segment's copies too (R371). -/
def Die.setDefKey (d : Die) (bay a new : Nat) : Die :=
  d.tens.bt.keys.foldl (fun d e =>
    let b := d.bt e
    if b.st ≠ .empty ∧ b.dlaBay = bay ∧ b.defKey = a then d.setBt e { b with defKey := new } else d) d

/-- DLA bays whose key list holds `a`: those that are cleared (R262). -/
def Die.listedBays (d : Die) (a : Nat) : List Nat := (d.tens.bays.filter fun (b : Nat × BayRec) => b.2.keyList.contains a).map Prod.fst

/-- DLA bays a retirement of `a` changes: their key list holds it, or it is their default. -/
def Die.retireBays (d : Die) (a : Nat) : List Nat :=
  (d.listedBays a ++
    ((d.usedEntries.filter fun e => decide ((d.bt e).defKey = a)).map fun e => (d.bt e).dlaBay)).mergeSort.eraseDups

/-- Phase 1 (R262, R267): at the boundary slot `a` becomes STOPPED; a re-key changes key lists and defaults at once. -/
def Die.stopSlot (d : Die) (r : Retire) : Die :=
  let bays := (d.retireBays r.a).map fun b =>
    let pre := (d.bay b).keyList
    let new := if r.erase then
        match r.list.find? fun (x : Nat × Nat) => decide ((d.bt x.1).dlaBay = b) with
        | some x => x.2
        | none => 4096
      else r.t
    ({ bay := b, new := new, pre := pre, reset := decide (pre = [r.a]) && !pre.contains new, done := false, next := 0, left := [],
       physLeft := r.phys } : RetBay)
  let d1 := (d.setSlotSt r.a .stopped).setRet { r with phase := .stopped, bays := bays }
  if r.erase then d1
  else bays.foldl (fun (d : Die) (x : RetBay) =>
    let l := if x.pre.contains r.t then x.pre.filter (fun k => decide (k ≠ r.a)) else x.pre.map fun k => if k = r.a then r.t else k
    (d.setBay x.bay { (d.bay x.bay) with keyList := l }).setDefKey x.bay r.a r.t) d1

/-- Retirements accepted before this boundary become STOPPED (R262); at most 8 run, a Sanitize's others wait for their turn. -/
def Die.retireBoundary (d : Die) : Die :=
  let running := (d.keys.rets.filter fun (r : Retire) => decide (r.phase ≠ .live)).length
  ((d.keys.rets.filter fun (r : Retire) => decide (r.phase = .live)).take (8 - running)).foldl Die.stopSlot d

/-- A request or a job still uses index `a` (R262). -/
def Die.usesIndex (d : Die) (a : Nat) : Bool :=
  (d.txns.any fun t => decide (t.kidx = a)) ||
  (d.pmap.ops.any fun (o : PageOp) => (o.writer.any fun w => decide (w.kidx = a)) || (o.stores.any fun e => decide (e.kidx = a)) ||
    match o.op with
    | .wb _ _ k _ _ | .poison _ k => decide (k = a)
    | _ => false) ||
  d.jobs.any fun (e : Nat × JobQ) => match e.2.job with
    | some j => decide (j.kidx = a)
    | none => false

/-- Sets of the memory-side cache. -/
def hbSets : Nat := 6291456

/-- Parts of a flush that could have something to do under `a` (R263, R349); buffers of codecs and jobs hold nothing. -/
def Die.startFlush (d : Die) (r : Retire) : Die :=
  let cache := d.hbc.fillMap.contains r.a
  let d1 := (d.setSlotSt r.a .flushing).setRet
    { r with phase := .flushing, parts := (if cache then [.cache] else []) ++ [.lanes, .pendingImages, .codecJob],
             setsLeft := if cache then hbSets else 0 }
  if cache ∧ d1.hbc.walk.isNone then { d1 with hbc := { d1.hbc with walk := some 0 } } else d1

def execRetireDrainEnd (a : Nat) (s : State) : Host.Outcome State Fault Refusal :=
  onLive s fun d =>
    match d.retire? a with
    | some r => if r.phase = .stopped ∧ !d.usesIndex a then d.startFlush r else d
    | none => d

/-- The next granule a re-key finds under `a` in a PLAIN bay from `from_` on: stored, of minor other than 0, with the KIC of
`a`, and not yet stored anew (R268). -/
def Die.rekeyNext (d : Die) (bay a from_ : Nat) (ok : Nat → Bool) : Option Nat :=
  let cands := ((d.dram.map fun (e : Nat × Granule) => e.1 * 64) ++ (d.wq.map fun (w : WqEnt) => w.dga)).filter fun g =>
    decide (bayOf g = bay) && decide (from_ ≤ g) && ok g && !d.itr.isLost g && d.rekeyMine a g
  cands.foldl (fun (m : Option Nat) g => match m with
    | none => some g
    | some x => some (min x g)) none

/-- A granule the mover can reach now (R594). -/
def Die.reach (d : Die) (g : Nat) : Bool := !(d.chan (d.chanOf g)).excluded && !d.leafGone g

/-- The next pane a re-key finds under `a` in a mapped bay: as page × 8 + pane. -/
def Die.paneNext (d : Die) (bay a from_ : Nat) : Option Nat :=
  let cands := (d.mapPages bay).flatMap fun (x : Nat × PgEnt) =>
    let e := d.pgEntry x.1
    (List.range 8).filterMap fun j =>
      let gs := match e.st with
        | .packed => e.paneDgas j
        | .plain => (range' (8 * j) 8).map e.dga
        | _ => []
      let hit := gs.any fun g => !d.itr.isLost g && d.rekeyMine a g
      if hit ∧ from_ ≤ x.1 * 8 + j then some (x.1 * 8 + j) else none
  cands.foldl (fun (m : Option Nat) g => match m with
    | none => some g
    | some x => some (min x g)) none

/-- A bay of a re-key has nothing left to re-key, and its last stores have left the lanes. -/
def Die.rekeyDone (d : Die) (a : Nat) (b : RetBay) : Bool :=
  (if mappedBay b.bay then (d.paneNext b.bay a b.next).isNone && !(d.pmap.ops.any fun (o : PageOp) => match o.op with
      | .rekey k _ => decide (k = a) && decide (pageBay o.page = b.bay)
      | _ => false)
   else (d.rekeyNext b.bay a b.next fun _ => true).isNone && decide (b.left = []) &&
    !(d.wops.any fun (w : WOp) => match w.key with
      | .rekey g => decide (bayOf g = b.bay)
      | _ => false)) &&
  !(d.lane.any fun (e : LaneEnt) => decide (e.master = 8) && decide (e.bay = b.bay))

/-- Clearing of one bay ends: its lost pages return, and after an erasure `a` leaves its key list (R271, R241). -/
def Die.bayCleared (d : Die) (r : Retire) (b : RetBay) : Die :=
  let d1 := if mappedBay b.bay then d.mendLost b.bay else d
  let d2 := if r.erase then
      (d1.setBay b.bay { (d1.bay b.bay) with keyList := (d1.bay b.bay).keyList.filter (fun k => decide (k ≠ r.a)) }).setDefKey b.bay r.a b.new
    else d1
  d2.returnFor b.bay

def Die.setRetBay (d : Die) (a : Nat) (b : RetBay) : Die :=
  match d.retire? a with
  | some r => d.setRet { r with bays := r.bays.map fun (x : RetBay) => if x.bay = b.bay then b else x }
  | none => d

/-- A CXL Sanitize or Secure Erase ends with the last of its retirements (R273). -/
def Die.cxlDone (d : Die) (c : Nat × Nat × Nat) : Die :=
  if d.keys.rets.any fun (r : Retire) => decide (r.cxl = some c) then d
  else
    ({ d with cxl := { d.cxl with busy := d.cxl.busy.filter fun k => decide (k ≠ c.1 * 32 + c.2.1) } }).emit
      (.cxl c.1 c.2.1 c.2.2 0 0 [])

/-- The retirement of `a` ends (R262 step 5): slot zeroed and FREE, off every key list, notice to the fabric manager. -/
def Die.retireEnd (d : Die) (r : Retire) : Die :=
  let k := { d.keys with rets := d.keys.rets.filter (fun (x : Retire) => decide (x.a ≠ r.a)), slots := d.keys.slots.erase r.a }
  let bays := d.tens.bays.filterMap fun (b : Nat × BayRec) =>
    let x : BayRec := { b.2 with keyList := b.2.keyList.filter fun i => decide (i ≠ r.a) }
    if x = BayRec.init then none else some (b.1, x)
  let d1 := { d with keys := k, tens := { d.tens with bays := bays },
                     hbc := { d.hbc with fillMap := d.hbc.fillMap.filter fun i => decide (i ≠ r.a) } }
  let d2 := d1.notice St.keyRetired r.a
  match r.cxl with
  | some c => d2.cxlDone c
  | none => d2

/-- Earlier-accepted retirement that shares a bay and has not ended (R264). -/
def Die.retireBlocked (d : Die) (r : Retire) : Bool :=
  d.keys.rets.any fun (x : Retire) => decide (x.acc < r.acc) && x.bays.any fun b => r.bays.any fun c => decide (b.bay = c.bay)

/-- Enter CLEARING; an erasure zeroes the key at once, clears the bays whose key list holds it and gives the others their new default
(R262, R271). -/
def Die.startClear (d : Die) (r : Retire) : Die :=
  let s := d.slot r.a
  let spare (b : RetBay) : Bool := r.erase && !(d.bay b.bay).keyList.contains r.a
  let bays := r.bays.map fun (b : RetBay) => if spare b then { b with done := true, physLeft := false } else b
  let d1 := (d.setSlot r.a { s with st := .clearing, key := if r.erase then 0 else s.key }).setRet { r with phase := .clearing, bays := bays }
  (r.bays.filter spare).foldl (fun (d : Die) (b : RetBay) => d.setDefKey b.bay r.a b.new) d1

/-- Bays of a re-key that are done are noted; a retirement whose bays are done ends. -/
def Die.retireCheck (d : Die) (a : Nat) : Die :=
  match d.retire? a with
  | none => d
  | some r =>
    if r.phase ≠ .clearing then d
    else
      let d1 := r.bays.foldl (fun (d : Die) (b : RetBay) =>
        if !b.done && !r.erase && d.rekeyDone a b then (d.bayCleared r b).setRetBay a { b with done := true } else d) d
      match d1.retire? a with
      | some r1 =>
        let filling (b : RetBay) : Bool := d1.lane.any fun (e : LaneEnt) => e.fill && decide (e.bay = b.bay)
        if r1.bays.all fun b => b.done && !b.physLeft && !(r1.phys && filling b) then d1.retireEnd r1 else d1
      | none => d1

/-- Let every retirement go as far as it can: FLUSHING to CLEARING in order, and ends. The first argument bounds the chain. -/
def Die.advanceRets : Nat → Die → Die
  | 0, d => d
  | n + 1, d =>
    let d1 := d.keys.rets.foldl (fun (d : Die) (r : Retire) =>
      match d.retire? r.a with
      | some x => if x.phase = .flushing ∧ x.parts = [] ∧ !d.retireBlocked x ∧ !(x.erase && x.bays.any fun b => d.bayPending b.bay)
          then d.startClear x else d
      | none => d) d
    let d2 := d1.keys.rets.foldl (fun (d : Die) (r : Retire) => d.retireCheck r.a) d1
    if d2.keys.rets.length = d.keys.rets.length then d2 else Die.advanceRets n d2

def Die.retsGo (d : Die) : Die := Die.advanceRets 8 d

/-! ## The flush (R263, R349) -/

/-- The part has nothing left under `a`. -/
def Die.partClean (d : Die) (r : Retire) (p : FlushPart) : Bool :=
  match p with
  | .cache => decide (r.setsLeft = 0)
  | .lanes => !(d.lane.any fun (e : LaneEnt) => match e.raw with
        | some g => decide (g.kind < 2) && decide (g.kic = kicOf r.a)
        | none => decide (e.kidx = r.a) && !e.fill) &&
      !(d.wq.any fun (w : WqEnt) => decide (w.g.kind < 2) && decide (w.g.kic = kicOf r.a) && !w.g.unwritten)
  | .pendingImages => !(d.itr.pend.any fun (p : Pending) => p.mask.any fun s =>
      let g := p.leaf * 4096 + s * 64
      decide ((d.heldGranule g).kic = kicOf r.a) && decide (d.indexOf g (d.keysOfPhys (bayOf g)) = some r.a))
  | .codecJob => true

def Die.flushPart (d : Die) (a : Nat) (p : FlushPart) : Die :=
  match d.retire? a with
  | none => d
  | some r =>
    if r.phase ≠ .flushing ∨ !r.parts.contains p ∨ !d.partClean r p then d
    else
      let d1 := d.setRet { r with parts := r.parts.filter (· ≠ p) }
      let d2 := if p = .lanes then (List.range 16).foldl (fun (d : Die) c => d.event (R.cryEvent (d.chan c).lane) 2) d1 else d1
      d2.retsGo

def execFlushPartDone (a : Nat) (part : FlushPart) (s : State) : Host.Outcome State Fault Refusal :=
  onLive s fun d => d.flushPart a part

/-- The indices a walk works for. -/
def Die.walkFor (d : Die) : List Retire :=
  d.keys.rets.filter fun (r : Retire) => decide (r.phase = .flushing) && r.parts.contains .cache && decide (r.setsLeft ≠ 0)

/-- The walk has made its step of this transom (R349), or accesses of it wait at the HBM controller. -/
def Die.flushWaits (d : Die) : Bool := decide (d.hbc.walkAt = some d.transom) || d.hbc.queue.any fun (x : HbmAcc) => match x.op with
  | .flush _ => true
  | _ => false

/-- The walk covers its next FLUSH_RATE sets, each an access of the third group (R349, R351); it waits for those it has made. -/
def Die.flushStep (d : Die) : Die :=
  match d.hbc.walk with
  | none => d
  | some n =>
    if d.flushWaits then d
    else
      let k := fld (d.act R.hbcCfg) 24 16
      let d1 := (List.range k).foldl (fun (d : Die) i =>
        (d.hbm 3 0 (wayAddr ((n + i) % hbSets) 0) 14 true (.flush ((n + i) % hbSets))).2) d
      let kics := d.walkFor.map fun (r : Retire) => kicOf r.a
      let covered (s : Nat) : Bool := decide (n ≤ s ∧ s < n + k) || decide (s + hbSets < n + k)
      let ways := d1.hbc.ways.filter fun (w : Nat × CacheWay) => !(covered (w.1 / 8) && kics.contains w.2.kic)
      let rets := d.keys.rets.map fun (r : Retire) => if r.phase = .flushing then { r with setsLeft := r.setsLeft - k } else r
      { d1 with hbc := { d1.hbc with ways := ways, walk := some ((n + k) % hbSets), walkAt := some d.transom }, keys := { d1.keys with rets := rets } }

def execCacheFlushWalkStep (s : State) : Host.Outcome State Fault Refusal := onLive s Die.flushStep

/-- A walk has covered every set for the retirements that joined it: their cache parts are complete. -/
def Die.flushDone (d : Die) : Die :=
  let mine := d.keys.rets.filter fun (r : Retire) => decide (r.phase = .flushing) && r.parts.contains .cache && decide (r.setsLeft = 0)
  if d.hbc.walk.isNone ∨ mine = [] then d
  else
    let d1 := mine.foldl (fun (d : Die) (r : Retire) => d.setRet { r with parts := r.parts.filter (· ≠ FlushPart.cache) }) d
    let d2 := if d1.walkFor = [] then { d1 with hbc := { d1.hbc with walk := none } } else d1
    (d2.event R.hbcEvent 1).retsGo

def execCacheFlushWalkDone (s : State) : Host.Outcome State Fault Refusal := onLive s Die.flushDone

/-! ## Clearing: re-key (R268, R309) -/

/-- The bay of a re-key that clears now and is not being removed (R270). -/
def Die.clearingBay (d : Die) (a bay : Nat) (erase : Bool) : Option (Retire × RetBay) :=
  match d.retire? a with
  | none => none
  | some r =>
    if r.phase ≠ .clearing ∨ r.erase ≠ erase ∨ (d.entriesOfBay bay).any fun e => decide ((d.bt e).st = .scrubbing) then none
    else (r.bays.find? fun (b : RetBay) => decide (b.bay = bay) && (!b.done || b.physLeft)).map fun b => (r, b)

/-- A page at the end of its MAJOR is made writable by a re-key that may reset it (R274): its image is kept pending and MAJOR
starts at 0. -/
def Die.reopenPage (d : Die) (page : Nat) (b : RetBay) : Die :=
  if !d.itr.readOnly.contains (0, page) ∨ !b.reset ∨ 64 ≤ d.itr.pend.length ∨ (d.itr.pendOf page).isSome then d
  else
    let d1 := d.learn (page * 4096) d.moverCharge
    match d1.itr.leafSure page with
    | none => d1
    | some n =>
      let p : Pending := { leaf := page, image := n, mask := n.minors.map Prod.fst, group := 4, louvre := d.moverLouvre, con := none }
      { d1 with itr := { d1.itr with pend := d1.itr.pend ++ [p],
                                     readOnly := d1.itr.readOnly.filter fun (r : Nat × Nat) => decide (r ≠ (0, page)) } }.setLeaf page
        { major := 0, minors := onesOf n.minors } 4 d.moverLouvre none

/-- One granule in ascending order: those out of reach are left for last (R594). -/
def Die.rekeyOne (d : Die) (a g : Nat) (dist : List (Nat × Arrival)) : Die :=
  let bay := bayOf g
  match d.clearingBay a bay false with
  | none => d
  | some (r, b) =>
    if mappedBay bay ∨ g % 64 ≠ 0 then d
    else
      let ordered := decide (d.rekeyNext bay a b.next d.reach = some g)
      let late := b.left.contains g && d.reach g
      if !ordered && !late then d
      else
        let skipped := if ordered then
            ((d.dram.map fun (e : Nat × Granule) => e.1 * 64).filter fun x => decide (bayOf x = bay) && decide (b.next ≤ x) && decide (x < g) &&
              !d.reach x && d.rekeyMine a x)
          else []
        let b1 : RetBay := { b with next := if ordered then g else b.next, left := b.left ++ skipped }
        let x := ((d.setRetBay a b1).reopenPage (g / 4096) b).rekeyGranule g a r.t bay dist
        if !x.1 then x.2
        else (x.2.setRetBay a { b1 with next := if ordered then g + 64 else b.next, left := b1.left.filter fun y => decide (y ≠ g) }).retsGo

def execRekeyOperation (a dga : Nat) (dist : List (Nat × Arrival)) (s : State) : Host.Outcome State Fault Refusal :=
  onMover s fun d => d.rekeyOne a dga dist

/-- One pane of a mapped bay: its operation joins the page's, and runs when it stands first. -/
def Die.rekeyPane (d : Die) (a page pane : Nat) (dist : List (Nat × Arrival)) : Die :=
  let bay := pageBay page
  match d.clearingBay a bay false with
  | none => d
  | some (_, b) =>
    if d.paneNext bay a b.next ≠ some (page * 8 + pane) then d
    else
      let d1 := (d.setRetBay a { b with next := page * 8 + pane + 1 }).pageOp page (.rekey a pane)
      (match d1.frontOp page with
        | some o => if o.op = POp.rekey a pane then d1.runPageOp page dist else d1
        | none => d1).retsGo

def execPaneRekeyOperation (a page pane : Nat) (dist : List (Nat × Arrival)) (s : State) : Host.Outcome State Fault Refusal :=
  onMover s fun d => if 8 ≤ pane then d else d.rekeyPane a page pane dist

/-! ## Clearing: erase (R271, R272, R308) -/

/-- Erase the leaves of a bay: those out of reach are left for last (R594). -/
def Die.eraseBay (d : Die) (a bay : Nat) : Die :=
  match d.clearingBay a bay true with
  | none => d
  | some (r, b) =>
    if b.done ∨ d.bayPending bay then d
    else if mappedBay bay then
      if d.opsInBay bay ∨ b.physLeft then d
      else
        let d1 := ((d.abandonMoves fun (m : Move) => decide (pageBay m.page = bay)).unmapBay bay)
        ((d1.bayCleared r b).setRetBay a { b with done := true, physLeft := false }).retsGo
    else
      let pages := if b.next = 0 then range' (bay * 2 ^ 18) (2 ^ 18) else b.left
      let x := pages.foldl (fun (x : List Nat × Die) p =>
        if x.2.pageOut p then (x.1 ++ [p], x.2) else (x.1, x.2.eraseLeaf p b.reset)) ([], d)
      if x.1 = [] then ((x.2.bayCleared r b).setRetBay a { b with done := true, next := 0, left := [] }).retsGo
      else x.2.setRetBay a { b with next := 1, left := x.1 }

/-- One page of the seal's erase (R433): MAJOR 0 and every minor 0 on every page, writable again. -/
def Die.sealPage (d : Die) (page : Nat) : Die :=
  let d1 := { d with itr := { d.itr with lost := d.itr.lost.filter fun (l : Lost) => decide (l.level ≠ 0 ∨ l.page ≠ page),
                                         readOnly := d.itr.readOnly.filter fun (r : Nat × Nat) => decide (r ≠ (0, page)) } }
  d1.putReset page Node.zero

/-- The seal's erase of one bay (R433): its pages, or its mapping; its key list is emptied. Pages out of reach keep the bay waiting
(R594). -/
def Die.sealErase (d : Die) (bay : Nat) : Die :=
  let ended (d : Die) : Die :=
    let d1 := { d with dbg := { d.dbg with erase := d.dbg.erase.filter fun b => decide (b ≠ bay) } }
    (d1.setBay bay { (d1.bay bay) with keyList := [] }).returnFor bay
  if (d.entriesOfBay bay).any fun e => decide ((d.bt e).st = .scrubbing) then d
  else if mappedBay bay then
    if d.opsInBay bay then d
    else
      let plain := ((d.mapPages bay).filter fun (x : Nat × PgEnt) => decide (x.2.st = .plain)).flatMap fun (x : Nat × PgEnt) => x.2.dgas.map fun g => g / 4096
      let d1 := plain.eraseDups.foldl (fun (d : Die) p => if d.itr.isLost (p * 4096) then d else d.putReset p Node.zero) d
      ended ((d1.abandonMoves fun (m : Move) => decide (pageBay m.page = bay)).unmapBay bay)
  else
    let r := (range' (bay * 2 ^ 18) (2 ^ 18)).foldl (fun (x : Bool × Die) p =>
      if x.2.pageOut p then (true, x.2) else (x.1, x.2.sealPage p)) (false, d)
    if r.1 then r.2 else ended r.2

/-- ERASE_LEAF_RESET serves a retirement's bay, or a bay the seal's erase still has to clear (R271, R433). -/
def Die.eraseFor (d : Die) (a bay : Nat) : Die := if d.dbg.erase.contains bay then d.sealErase bay else d.eraseBay a bay

def execEraseLeafReset (a bay : Nat) (s : State) : Host.Outcome State Fault Refusal := onMover s fun d => d.eraseFor a bay

/-- Fill for a list of granules of a bay, under new queue entries of the mover (R117, R272); `none` while there is no room. -/
def Die.pushFill (d : Die) (bay : Nat) (gs : List Nat) : Option Die :=
  { d with seq := d.seq + 1 }.pushUnder d.seq d.moverLouvre (gs.map fun g =>
    { LaneEnt.base with dga := g, dla := g, fill := true, master := 8, louvre := d.moverLouvre, bay := bay })

/-- Write fill to the next run of a mapped bay in erasure, then free it (R272, R308). -/
def Die.physRun (d : Die) (a bay : Nat) (b : RetBay) : Die :=
  let runs := (d.mapPages bay).filter fun (x : Nat × PgEnt) => decide (x.2.st = .packed ∨ x.2.st = .plain)
  let gs (x : Nat × PgEnt) : List Nat := (List.range (8 * x.2.run)).map x.2.dga
  if d.opsInBay bay then d
  else if runs = [] then d.setRetBay a { b with physLeft := false }
  else match runs.find? fun x => (gs x).all fun g => !(d.chan (d.chanOf g)).excluded with
    | none => d
    | some x => match d.pushFill bay (gs x) with
      | none => d
      | some d1 =>
        let d2 := ((d1.freeRunOf x.2.base x.2.run).setPgEnt x.1 PgEnt.unmapped).addUsed bay 0 x.2.run
        { d2 with pmap := { d2.pmap with cached := d2.pmap.cached.filter fun (y : Nat × Nat) => decide (y.2 ≠ x.1) } }

/-- Write fill to the next page of an erased PLAIN bay (R272): those out of reach are left for last (R594). -/
def Die.physPage (d : Die) (a bay : Nat) : Die :=
  match d.clearingBay a bay true with
  | none => d
  | some (_, b) =>
    if !b.physLeft then d
    else if mappedBay bay then d.physRun a bay b
    else if !b.done then d
    else
      let gs (p : Nat) : List Nat := (List.range 64).map fun i => (bay * 2 ^ 18 + p) * 4096 + i * 64
      let out (p : Nat) : Bool := (gs p).any fun g => (d.chan (d.chanOf g)).excluded
      let r : Option (Die × RetBay) := if b.next < 2 ^ 18 then
          (if out b.next then some (d, { b with next := b.next + 1, left := b.left ++ [b.next] })
           else (d.pushFill bay (gs b.next)).map fun d1 => (d1, { b with next := b.next + 1 }))
        else match b.left.find? fun p => !out p with
          | some p => (d.pushFill bay (gs p)).map fun d1 => (d1, { b with left := b.left.filter fun x => decide (x ≠ p) })
          | none => none
      match r with
      | none => d
      | some (d1, b1) =>
        if 2 ^ 18 ≤ b1.next ∧ b1.left = [] then (d1.setRetBay a { b1 with physLeft := false }).retsGo else d1.setRetBay a b1

def execPhysFill (a bay : Nat) (s : State) : Host.Outcome State Fault Refusal := onMover s fun d => d.physPage a bay

end Sys2Proof.Machine
end

