-- ==== Sys2Proof/Machine/Staged.lean ====
section
/-! DEFINITION. Machine/Staged.lean: staged configuration (R104–R111): the cross-field checks of every group, and a commit made or
rejected at a boundary. -/

namespace Sys2Proof.Machine

/-! ## The groups -/

/-- The COMMIT_REJECT event bit of a group's block; the host ports have none (R69). -/
def Group.rejectEvent : Group → Option (Nat × Nat)
  | .hpt _ => none
  | .trs => some (R.trsEvent, 4)
  | .lvr => some (R.lvrEvent, 0)
  | .dom => some (R.chaEvent 0, 0)
  | .itr => some (R.itrEvent, 0)
  | .pcx => some (R.pcxMapEvent, 0)
  | .cje => some (R.cjeEvent, 0)
  | .tir => some (R.tirEvent, 0)
  | .hbc => some (R.hbcEvent, 0)
  | .ten => some (R.tenEvent, 0)
  | .pwr => some (R.pwrEvent, 0)
  | .flt => some (R.fltEvent, 0)
  | .pmu => some (R.pmuEvent, 0)

/-- The block's domain is gated (R110, R490). -/
def Die.gated (d : Die) (g : Group) : Bool :=
  match d.pwr.st with
  | .sl2 | .sl2Exit => decide (g = .cje ∨ g = .tir ∨ g = .pmu)
  | .sl3 | .sl3Exit => true
  | _ => false

/-! ## Cross-field checks -/

/-- A failing field: register offset and its lowest bit. -/
abbrev BadField := Nat × Nat

def badIf (c : Bool) (o b : Nat) : List BadField := if c then [(o, b)] else []

/-- Two ranges overlap. -/
def overlap (a la b lb : Nat) : Bool := decide (a < b + lb) && decide (b < a + la)

def Die.badHpt (d : Die) (p : Nat) : List BadField :=
  let o := R.hptPortCfg p; let r := d.regR o
  badIf (!bit r 8 && decide (fld r 19 16 ≠ 0)) o 16 ++ badIf (bit r 8 && bit r 9) o 8

def Die.badTrs (d : Die) : List BadField :=
  let r := d.regR R.trsCfg
  badIf (decide (fld r 11 8 < fld r 7 4)) R.trsCfg 8

def Die.badLvr (d : Die) : List BadField :=
  let c := d.regR R.lvrCfg; let t := d.regR R.lvrTherm
  let shapes := (List.range 256).flatMap fun n =>
    let s := d.regR (R.lvrShape n)
    badIf (decide (fld s 7 0 > fld s 16 8)) (R.lvrShape n) 0 ++ badIf (decide (fld s 16 8 = 0 ∨ 256 < fld s 16 8)) (R.lvrShape n) 8
  let sum := (List.range 256).foldl (fun a n => a + fld (d.regR (R.lvrShape n)) 7 0) 0
  badIf (decide (fld c 7 0 = 0)) R.lvrCfg 0 ++ badIf (decide (fld t 15 8 ≤ fld t 7 0)) R.lvrTherm 0 ++
  badIf (decide (fld t 23 16 ≤ fld t 15 8)) R.lvrTherm 8 ++ badIf (decide (fld c 15 8 ≤ fld t 23 16)) R.lvrTherm 16 ++
  badIf (decide (fld t 27 24 = 0)) R.lvrTherm 24 ++ shapes ++ badIf (decide (192 < sum)) (R.lvrShape 0) 0

/-- Staged member tenancies of a domain: port and tenancy. -/
def Die.stagedMembers (d : Die) (n : Nat) : List (Nat × Nat) :=
  let c := d.regR (R.cha0DomCfg n)
  ((List.range 6).filter fun p => bit c (24 + p)).map fun p =>
    let r := if p < 3 then d.regR (R.cha0DomTena n) else d.regR (R.cha0DomTenb n)
    (p, fld r (10 * (p % 3) + 9) (10 * (p % 3)))

def Die.badDom (d : Die) : List BadField :=
  let valid := (List.range 64).filter fun n => bit (d.regR (R.cha0DomCfg n)) 31
  valid.flatMap fun n =>
    let o := R.cha0DomCfg n; let ms := d.stagedMembers n
    let twice := ms.filter fun (m : Nat × Nat) => valid.any fun k => decide (k < n) && (d.stagedMembers k).any fun (x : Nat × Nat) => decide (x.2 = m.2)
    badIf (decide (fld (d.regR o) 9 0 < 4)) o 0 ++ badIf (decide (ms.length < 2)) o 24 ++
    twice.map fun m => (if m.1 < 3 then R.cha0DomTena n else R.cha0DomTenb n, 10 * (m.1 % 3))

def Die.badItr (d : Die) : List BadField :=
  let dm := fld (d.regR R.itrCfg) 16 0
  let base (n : Nat) : Nat := fld (d.regR (R.itrSetLo n)) 12 0
  let total (n : Nat) : Nat := fld (d.regR (R.itrSetHi n)) 13 0
  let valid (n : Nat) : Bool := bit (d.regR (R.itrSetHi n)) 31
  badIf (decide (dm < 1024 ∨ 65536 < dm)) R.itrCfg 0 ++ (List.range 16).flatMap fun n =>
    let lo := R.itrSetLo n; let hi := R.itrSetHi n
    badIf (d.itr.ready && decide (d.regR lo ≠ d.act lo)) lo 0 ++
    badIf (valid n && decide (fld (d.regR lo) 25 13 ≠ 63 * total n / 64)) lo 13 ++
    badIf (valid n && (List.range n).any fun k => valid k && overlap (base n) (total n) (base k) (total k)) lo 0 ++
    badIf (d.itr.ready && decide (d.regR hi ≠ d.act hi)) hi 0

def Die.badPcx (d : Die) : List BadField :=
  let r := d.regR R.pcxMapCfg
  badIf (decide (fld r 1 0 = 3)) R.pcxMapCfg 0 ++ badIf (decide (100 < fld r 15 8)) R.pcxMapCfg 8

/-- A queue's state. -/
def Die.job (d : Die) (q : Nat) : JobQ := (d.jobs.find? q).getD JobQ.init
def Die.setJob (d : Die) (q : Nat) (x : JobQ) : Die := { d with jobs := d.jobs.set JobQ.init q x }

def Die.badCje (d : Die) : List BadField :=
  let k := fld (d.regR R.cjeCfg) 8 0
  badIf (decide (k < 4 ∨ 256 < k)) R.cjeCfg 0 ++ (List.range 64).flatMap fun q =>
    let c := R.cjeQcfg q; let r := d.regR c
    let run := decide ((d.job q).st = 1)
    let log := fld r 27 24
    badIf (run && decide (setFld r 31 31 0 ≠ setFld (d.act c) 31 31 0)) c 0 ++
    badIf (bit r 31 && decide (log < 4 ∨ 12 < log)) c 24 ++
    ([R.cjeQkey q, R.cjeQsq q, R.cjeQcq q].flatMap fun o => badIf (run && decide (d.regR o ≠ d.act o)) o 0)

def Die.badTir (d : Die) : List BadField :=
  let r := d.regR R.tirCfg
  badIf (decide (10 < fld r 3 0)) R.tirCfg 0 ++ badIf (decide (fld r 12 4 < 16 ∨ 320 < fld r 12 4)) R.tirCfg 4 ++
  badIf (decide (fld r 22 16 = 0 ∨ 64 < fld r 22 16)) R.tirCfg 16 ++ (List.range 16).flatMap fun p =>
    let o := R.tirPolicy p; let x := d.regR o
    badIf (decide (fld x 15 8 ≤ fld x 7 0)) o 0 ++ badIf (decide (fld x 15 8 = 0)) o 8 ++
    badIf (decide (fld x 28 24 < 10 ∨ 24 < fld x 28 24)) o 24

def Die.badHbc (d : Die) : List BadField :=
  let f := fld (d.regR R.hbcCfg) 24 16
  badIf (decide (f < 16 ∨ 320 < f)) R.hbcCfg 16

/-- A LIVE PLAIN entry outside every domain (R380, R535). -/
def Die.plainEntry (d : Die) (e : Nat) : Bool :=
  let b := d.bt e
  decide (b.st = .live) && decide (b.mode = 0) && !b.inDom

/-- The tenancy whose staged segment holds entry `e`. -/
def Die.stagedOwner (d : Die) (e : Nat) : Option Nat :=
  (List.range 1024).find? fun t => bit (d.regR (R.tenCfg t)) 31 &&
    decide (fld (d.regR (R.tenSeg t)) 29 16 ≤ e) && decide (e < fld (d.regR (R.tenSeg t)) 29 16 + fld (d.regR (R.tenSeg t)) 12 0)

/-- The staged entry breaks R364: its DLA bay stands in another entry, not both of one domain; or a physical bay is a store
bay or holds leaves. An entry outside every segment has no effect (R371). -/
def Die.bayClash (d : Die) (i : Nat) (b : Bt) : Bool :=
  decide (b.st ≠ .empty) && (d.stagedOwner i).isSome &&
  ((d.usedEntries.any fun e => decide (e ≠ i) && decide ((d.bt e).dlaBay = b.dlaBay) &&
      !((d.bt e).inDom && b.inDom && decide ((d.bt e).dom = b.dom))) ||
    (!mappedBay b.dlaBay && ((d.storeOf b.dlaBay).isSome || !d.isDataBay b.dlaBay)))

def Die.badTen (d : Die) : List BadField :=
  let cfg (t : Nat) : Reg := d.regR (R.tenCfg t)
  let base (t : Nat) : Nat := fld (d.regR (R.tenSeg t)) 29 16
  let len (t : Nat) : Nat := fld (d.regR (R.tenSeg t)) 12 0
  let valid := (List.range 1024).filter fun t => bit (cfg t) 31
  let i := fld (d.regR R.tenBtuIdx) 13 0
  let b := btOf (d.regR R.tenBtuLo) (d.regR R.tenBtuHi)
  let mapped := mappedBay b.dlaBay
  let btu := if !bit (d.regR R.tenBtuIdx) 31 then []
    else
      badIf (d.bayClash i b) R.tenBtuLo 0 ++
      badIf (decide (b.st = .live) && (match d.stagedOwner i with | some t => decide (t ≠ b.ten) | none => false)) R.tenBtuLo 14 ++
      badIf (decide (b.st ≠ .empty) && (decide (b.mode = 3) || (decide (b.mode = 0) == mapped) || decide (12288 ≤ b.dlaBay))) R.tenBtuHi 26 ++
      badIf (b.cache && decide (b.mode = 1)) R.tenBtuHi 28
  let log := (List.range 1024).flatMap fun t =>
    badIf (bit (cfg t) 19 && !d.plainEntry (fld (d.regR (R.tenLog t)) 13 0)) (R.tenCfg t) 19
  let cut (t : Nat) : Bool := d.tenFound t && (range' (len t) (d.segLen t - len t)).any fun i =>
    decide ((d.bt (d.segBase t + i)).st ≠ .empty)
  btu ++ log ++ valid.flatMap fun t =>
    let ld := fld (cfg t) 27 23
    badIf (decide (4 < fld (cfg t) 22 20)) (R.tenCfg t) 20 ++
    badIf (decide (15 < ld ∧ ld ≠ 31)) (R.tenCfg t) 23 ++
    badIf (decide (ld ≠ 31) && valid.any fun k => decide (k < t) && decide (fld (cfg k) 30 23 = fld (cfg t) 30 23)) (R.tenCfg t) 23 ++
    badIf (decide (5 < fld (cfg t) 30 28)) (R.tenCfg t) 28 ++
    badIf (decide (len t = 0 ∨ 4096 < len t) || cut t) (R.tenSeg t) 0 ++
    badIf (decide (16384 < base t + len t)) (R.tenSeg t) 16 ++
    badIf (valid.any fun k => decide (k < t) && overlap (base k) (len k) (base t) (len t)) (R.tenSeg t) 16

def Die.badPwr (d : Die) : List BadField :=
  let c := d.regR R.pwrCfg; let t := d.regR R.pwrTherm
  badIf (decide (fld c 23 16 < 10)) R.pwrCfg 16 ++ badIf (decide (fld c 31 24 < 8)) R.pwrCfg 24 ++
  badIf (decide (fld t 3 0 = 0)) R.pwrTherm 0 ++ badIf (decide (fld t 23 16 ≤ fld t 15 8)) R.pwrTherm 8

def Die.badFlt (d : Die) : List BadField :=
  let c := d.regR R.fltCfg
  badIf (decide (fld c 10 8 < 2)) R.fltCfg 8 ++ badIf (decide (fld c 15 11 < 10 ∨ 24 < fld c 15 11)) R.fltCfg 11 ++
  badIf (decide (fld c 23 16 = 0)) R.fltCfg 16 ++ badIf (decide (fld c 31 24 < 2)) R.fltCfg 24

/-- Scopes an event may be counted in (R529): 0 device, 1 port, 2 channel, 3 home slice, 4 louvre, 5 tenancy, 6 master. -/
def eventScopes (ev : Nat) : List Nat :=
  if ev = 0 then [0, 1, 2, 3, 4, 5, 6]
  else if ev = 1 ∨ ev = 2 then [0]
  else if ev = 0x10 ∨ ev = 0x11 ∨ ev = 0x15 ∨ ev = 0x16 then [1, 4, 5, 6]
  else if 0x12 ≤ ev ∧ ev ≤ 0x14 then [1, 5]
  else if ev = 0x17 then [4, 3]
  else if 0x20 ≤ ev ∧ ev ≤ 0x25 then [2]
  else if ev = 0x30 ∨ ev = 0x31 then [0, 4, 5]
  else if ev = 0x32 then [0, 2]
  else if ev = 0x42 then [3, 1]
  else if 0x40 ≤ ev ∧ ev ≤ 0x44 then [3]
  else if ev = 0x50 ∨ ev = 0x51 then [2]
  else if ev = 0x52 ∨ ev = 0x60 ∨ ev = 0x61 ∨ ev = 0x70 ∨ ev = 0x71 then [0, 5]
  else if ev = 0x80 ∨ ev = 0x81 then [0]
  else []

/-- Instances of a scope (R528). -/
def scopeSize (s : Nat) : Nat := [1, 6, 16, 8, 256, 1024, 16].getD s 0

/-- A selection R529 and R528 allow. -/
def selOk (r : Reg) : Bool :=
  (eventScopes (fld r 11 0)).contains (fld r 31 28) && decide (fld r 27 16 < scopeSize (fld r 31 28))

/-- Tenancies counter `k`'s staged selection is open to, before windows: a tenancy-scoped selection's own. -/
def selTen (r : Reg) : Option Nat := if fld r 31 28 = 5 then some (fld r 27 16) else none

def Die.badPmu (d : Die) : List BadField :=
  let c := d.regR R.pmuTelCfg
  let sel (k : Nat) : Reg := d.regR (R.pmuSel k)
  let win (t : Nat) : Bool := bit (d.regR (R.pmuWindow (t / 32))) (t % 32)
  badIf (bit c 31 && !d.plainEntry (fld c 13 0)) R.pmuTelCfg 0 ++
  badIf (bit c 31 && decide (fld c 20 16 < 10 ∨ 24 < fld c 20 16)) R.pmuTelCfg 16 ++
  ((List.range 256).flatMap fun m =>
    let chain := bit (d.regR (R.pmuChain (m / 32))) (m % 32)
    match selTen (sel (2 * m + 1)) with
    | some t => badIf (chain && win t && decide (selTen (sel (2 * m)) ≠ some t)) (R.pmuChain (m / 32)) (m % 32)
    | none => []) ++
  (List.range 512).flatMap fun k => badIf (!selOk (sel k)) (R.pmuSel k) 0

/-- The failing fields of a group's staged copy. -/
def Die.badFields (d : Die) (g : Group) : List BadField :=
  match g with
  | .hpt p => d.badHpt p
  | .trs => d.badTrs
  | .lvr => d.badLvr
  | .dom => d.badDom
  | .itr => d.badItr
  | .pcx => d.badPcx
  | .cje => d.badCje
  | .tir => d.badTir
  | .hbc => d.badHbc
  | .ten => d.badTen
  | .pwr => d.badPwr
  | .flt => d.badFlt
  | .pmu => d.badPmu

/-- The first failing field: ascending register offset, then bit (R107). -/
def Die.firstBad (d : Die) (g : Group) : Option BadField :=
  (d.badFields g).foldl (fun (a : Option BadField) x =>
    match a with
    | none => some x
    | some y => if x.1 < y.1 ∨ (x.1 = y.1 ∧ x.2 < y.2) then some x else some y) none

/-! ## Making a commit -/

/-- The staged copy becomes the active copy (R105). -/
def Die.copyStaged (d : Die) (g : Group) : Die :=
  (d.stagedKeys g).foldl (fun (d : Die) o => d.regW (o + mirrorGap o) (d.regR o)) d

/-- Counters whose selection a PMU commit changes start at 0 (R525). -/
def Die.clearSelected (old d : Die) : Die :=
  let ks := (List.range 512).filter fun k => decide (old.act (R.pmuSel k) ≠ d.act (R.pmuSel k))
  { d with pmu := { d.pmu with ctr := ks.foldl Tbl.erase d.pmu.ctr, ovf := d.pmu.ovf.filter fun k => !ks.contains k } }

/-- The bay-table entry a TEN commit changes (R363). -/
def Die.applyBtu (d : Die) : Die :=
  let r := d.regR R.tenBtuIdx
  if !bit r 31 then d
  else
    let d1 := d.setBt (fld r 13 0) (btOf (d.regR R.tenBtuLo) (d.regR R.tenBtuHi))
    (d1.regW R.tenBtuIdx (setFld r 31 31 0)).regW (R.tenBtuIdx + 0x8000) (setFld r 31 31 0)

/-- Start link training under the committed link fields, once start-up has reached step 13 (R42, R69, R554). -/
def Die.train13 (d : Die) (p : Nat) : Die :=
  let x := d.port p; let cfg := d.act (R.hptPortCfg p)
  if x.perst ∨ x.linkUp ∨ !bit cfg 0 ∨ d.boot.step < 13 then d else d.setPort p { x with training := true, cfg := cfg }

/-- A commit of a port's group (R69): a port enabled while its link is down starts training, one disabled while it trains stops. -/
def Die.portCommitted (d : Die) (p : Nat) : Die :=
  let x := d.port p
  if bit (d.act (R.hptPortCfg p)) 0 then d.train13 p else d.setPort p { x with training := x.training && x.linkUp }

/-- What a group's commit does beside the copy. -/
def Die.commitHook (old d : Die) (g : Group) : Die :=
  match g with
  | .ten => d.applyBtu
  | .pmu => Die.clearSelected old d
  | .hpt p => d.portCommitted p
  | _ => d

/-- Make or reject one commit (R105, R107): the failing field of a rejected one, the state. BAD_REG and BAD_BIT keep what the last rejected
commit left when a later one is made (DESIGN CHOICE, log 133: R111 does not say that they clear). -/
def Die.runCommit (d : Die) (g : Group) : Option BadField × Die :=
  let o := Group.commitReg g; let r := d.regR o
  match d.firstBad g with
  | some (reg, b) =>
    let v := setFld (setFld (setFld (setFld r 31 31 0) 29 28 2) 20 16 b) 15 0 (reg - (Group.span g).1)
    let d1 := d.regW o v
    (some (reg, b), match Group.rejectEvent g with
      | some (e, i) => d1.event e i
      | none => d1)
  | none =>
    let v := setFld (setFld (setFld r 31 31 0) 29 28 1) 27 24 (fld r 27 24 + 1)
    (none, Die.commitHook d ((d.copyStaged g).regW o v) g)

end Sys2Proof.Machine
end

