-- ==== Sys2Proof/Machine/Tenancy.lean ====
section
/-! DEFINITION. Machine/Tenancy.lean: tenancies (R357–R386, R595): the TEN_* commands, what their commits do, and the boundary
work of resets, removals, resizes and harvests. -/

namespace Sys2Proof.Machine

/-! ## Register-valued parameters (R388, R400) -/

/-- A register-valued parameter has a reserved bit set. -/
def rsvBad (o v : Nat) : Bool :=
  match regRow o with
  | some r => decide (v &&& (0xffffffff - r.mask) ≠ 0)
  | none => false

/-- The first register-valued parameter with a reserved bit: byte offset from the start of the header. -/
def firstRsv (ps : List (Nat × Nat × Nat)) : Option Nat :=
  (ps.find? fun (p : Nat × Nat × Nat) => rsvBad p.2.1 p.2.2).map Prod.fst

/-- Request the commit a command ends with. -/
def Die.commitFor (d : Die) (g : Group) (c : Instr) (ws : List (Nat × Nat)) : Die :=
  d.commit g (some c) (ws.map fun (w : Nat × Nat) => (w.1, BitVec.ofNat 32 w.2))

/-- Entries emptied through the update port, one commit each (R363). -/
def Die.emptyEntries (d : Die) (es : List Nat) : Die :=
  d.askCommits (es.map fun e => { group := .ten, at_ := d.time, cmd := none, writes := btuWrites e Bt.empty })

/-! ## Segments (R371, R595) -/

/-- Records a pending create has taken. -/
def Die.tenPending (d : Die) (t : Nat) : Bool :=
  d.mgt.commits.any fun (c : CommitReq) => c.writes.any fun (w : Nat × Reg) => decide (w.1 = R.tenCfg t) && bit w.2 31

/-- A tenancy's port and LD once its pending create lands. -/
def Die.tenKey (d : Die) (t : Nat) : Nat := fld (d.future (R.tenCfg t)) 30 23

/-- Records that are not free: in use or being created. -/
def Die.tenTaken (d : Die) : List Nat := (List.range 1024).filter fun t => decide ((d.ten t).st ≠ .free) || d.tenPending t

/-- Segments that may not be overlapped: as they stand and as pending commits make them. -/
def Die.segsTaken (d : Die) (ts : List Nat) : List (Nat × Nat) :=
  ts.flatMap fun t =>
    let f := d.future (R.tenSeg t)
    (if (d.ten t).st = .free then [] else [(d.segBase t, d.segLen t)]) ++ [(fld f 29 16, fld f 12 0)]

/-- `n` entries from `b` lie outside every segment of a list and inside the table. -/
def segFree (taken : List (Nat × Nat)) (b n : Nat) : Bool :=
  decide (b + n ≤ 16384) && !taken.any fun (x : Nat × Nat) => overlap x.1 x.2 b n

/-- The lowest SEG_BASE with room for `n` entries. -/
def placeSeg (taken : List (Nat × Nat)) (n : Nat) : Option Nat :=
  ((0 :: taken.map fun (x : Nat × Nat) => x.1 + x.2).filter fun b => segFree taken b n).foldl (fun (m : Option Nat) b =>
    match m with
    | none => some b
    | some x => some (min x b)) none

/-! ## What runs on a tenancy (R374, R379) -/

/-- The tenancy a job queue is bound to (R311). -/
def Die.jobTen (d : Die) (q : Nat) : Option Nat :=
  let c := d.act (R.cjeQcfg q)
  if bit c 28 then some (fld c 9 0) else none

def Die.queuesOf (d : Die) (t : Nat) : List Nat := (List.range 64).filter fun q => decide (d.jobTen q = some t)

/-- A request or job of an earlier generation is still in the device. -/
def Die.oldGen (d : Die) (t : Nat) : Bool :=
  let g := (d.ten t).gen
  (d.txns.any fun (x : Txn) => decide (x.ten = t) && decide (x.master < 6) && decide (x.gen ≠ g)) ||
  (d.queuesOf t).any fun q => match (d.job q).job with
    | some j => decide (j.gen ≠ g)
    | none => false

/-- A reset, removal, resize or bay removal runs on the tenancy. -/
def Die.tenRunning (d : Die) (t : Nat) : Bool :=
  (d.tens.ops.any fun (o : TenOp) => decide (o.ten = t)) ||
  d.tens.bayOps.any fun (o : BayOp) => decide (o.ten = t) && decide (o.why = 0)

def Die.addTenOp (d : Die) (o : TenOp) : Die := { d with tens := { d.tens with ops := d.tens.ops ++ [o] } }
def Die.dropTenOp (d : Die) (t : Nat) : Die :=
  { d with tens := { d.tens with ops := d.tens.ops.filter fun (o : TenOp) => decide (o.ten ≠ t) } }

/-- The entry holds a ring of the command interface or the telemetry ring, or a dirty log of a tenancy other than `t`. -/
def Die.holdsRing (d : Die) (e : Nat) : Bool :=
  let c := d.act R.pmuTelCfg
  (d.mgt.rings.any fun (x : Nat × Ring) => x.2.valid && decide (d.segBase x.2.ten + x.2.bay = e)) ||
  (bit c 31 && decide (fld c 13 0 = e))
def Die.holdsLog (d : Die) (e : Nat) (t : Option Nat) : Bool :=
  d.tenList.any fun k => d.logOn k && decide (some k ≠ t) && decide (fld (d.act (R.tenLog k)) 13 0 = e)

/-! ## TEN_CREATE, TEN_SET, TEN_LOG (R359, R380, R595) -/

/-- The header and opcode of a tenancy command, the tenancy known. -/
def Die.withTen (d : Die) (h : Hdr) (op t : Nat) (body : Die) : Die :=
  if 1023 < t ∨ (d.ten t).st = .free then d.fail h op St.notFound 16 else body

def cfgWord (port ld : Nat) : Nat := 2 ^ 31 + port * 2 ^ 28 + ld * 2 ^ 23 + 4 * 2 ^ 20

def execTenCreate (h : Hdr) (ten port ld segLen : Nat) (s : State) : Host.Outcome State Fault Refusal :=
  onCmd s fun d => d.command h 0x0200 [.f] 6 fun d =>
    let taken := d.tenTaken
    if 1023 < ten ∧ ten ≠ 0xffff then d.fail h 0x0200 St.notFound 16
    else if 5 < port then d.fail h 0x0200 St.badParam 18
    else if 15 < ld ∧ ld ≠ 31 then d.fail h 0x0200 St.badParam 19
    else if segLen = 0 ∨ 4096 < segLen then d.fail h 0x0200 St.badParam 20
    else
      match (if ten = 0xffff then (List.range 1024).find? fun t => !taken.contains t
             else if taken.contains ten then none else some ten) with
      | none => d.fail h 0x0200 St.noFreeTenancy (if ten = 0xffff then 0 else ten)
      | some t =>
        match taken.find? fun k => decide (ld ≠ 31) && decide (d.tenKey k = port * 32 + ld) with
        | some k => d.fail h 0x0200 St.ldInUse k
        | none =>
          match placeSeg (d.segsTaken taken) segLen with
          | none => d.fail h 0x0200 St.segOverlap t
          | some b => d.commitFor .ten (.tenCreate h t port ld segLen) [(R.tenCfg t, cfgWord port ld), (R.tenSeg t, b * 2 ^ 16 + segLen)]

def execTenSet (h : Hdr) (ten cls louvre : Nat) (s : State) : Host.Outcome State Fault Refusal :=
  onCmd s fun d => d.command h 0x0201 [.f] 4 fun d => d.withTen h 0x0201 ten
    (if 4 < cls then d.fail h 0x0201 St.badParam 18
     else if cls ≠ fld (d.future (R.tenCfg ten)) 22 20 ∧ d.contracts.any (fun (c : Contract) => decide (c.ten = ten)) then
       d.fail h 0x0201 St.classNotAllowed ten
     else
       let v := setFld (setFld (d.future (R.tenCfg ten)) 22 20 cls) 7 0 louvre
       d.commitFor .ten (.tenSet h ten cls louvre) [(R.tenCfg ten, v.toNat)])

def execTenLog (h : Hdr) (ten en entry : Nat) (s : State) : Host.Outcome State Fault Refusal :=
  onCmd s fun d => d.command h 0x0205 [.f] 5 fun d => d.withTen h 0x0205 ten
    (if 1 < en then d.fail h 0x0205 St.badParam 18
     else if 16383 < entry then d.fail h 0x0205 St.badParam 19
     else
       let v := setFld (d.future (R.tenCfg ten)) 19 19 en
       d.commitFor .ten (.tenLog h ten en entry) ([(R.tenCfg ten, v.toNat)] ++ if en = 1 then [(R.tenLog ten, entry)] else []))

/-! ## TEN_RESET, TEN_REMOVE, TEN_RESIZE (R371–R379) -/

/-- Accept a long command of the tenancy manager. -/
def Die.acceptTenOp (d : Die) (h : Hdr) (op t kind : Nat) (scrub : Bool) : Die :=
  (d.addTenOp { ten := t, kind := kind, scrub := scrub, begun := false, hdr := some h }).interim h op

def execTenReset (h : Hdr) (ten scrub : Nat) (s : State) : Host.Outcome State Fault Refusal :=
  onCmd s fun d => d.longCommand h 0x0202 [.f] 3 fun d => d.withTen h 0x0202 ten
    (if 1 < scrub then d.fail h 0x0202 St.badParam 18
     else if (d.ten ten).st ≠ .active ∨ d.tenRunning ten ∨ d.tens.adds.contains ten ∨ d.oldGen ten then
       d.fail h 0x0202 St.tenBusy ten
     else d.acceptTenOp h 0x0202 ten 0 (decide (scrub = 1)))

def execTenRemove (h : Hdr) (ten : Nat) (s : State) : Host.Outcome State Fault Refusal :=
  onCmd s fun d => d.longCommand h 0x0203 [.f] 2 fun d => d.withTen h 0x0203 ten
    (if (d.ten ten).st ≠ .active ∨ d.tenRunning ten ∨ d.tens.adds.contains ten ∨ d.oldGen ten then d.fail h 0x0203 St.tenBusy ten
     else match (d.segEntries ten).find? fun e => decide ((d.bt e).st ≠ .empty) && (d.holdsRing e || d.holdsLog e (some ten)) with
       | some e => d.fail h 0x0203 St.bayInUse e
       | none => d.acceptTenOp h 0x0203 ten 1 true)

/-- Entries of a tenancy's segment that are not EMPTY. -/
def Die.tenEntries (d : Die) (t : Nat) : List Nat := (d.segEntries t).filter fun e => decide ((d.bt e).st ≠ .empty)

/-- Move or keep the segment (R371): entries are copied one commit at a time, then the segment changes. -/
def Die.resize (d : Die) (h : Hdr) (t len : Nat) : Die :=
  let others := d.segsTaken (d.tenTaken.filter (· ≠ t))
  let base := d.segBase t
  match (if segFree others base len then some base else placeSeg ((base, d.segLen t) :: others) len) with
  | none => d.fail h 0x0204 St.segOverlap t
  | some b =>
    let d1 := d.acceptTenOp h 0x0204 t 2 false
    let copies := if b = base then [] else d1.tenEntries t
    d1.askCommits ((copies.map fun e =>
        { group := .ten, at_ := d.time, cmd := none, writes := btuWrites (b + (e - base)) (d.bt e), source := some e }) ++
      [{ group := .ten, at_ := d.time, cmd := some (.tenResize h t len),
         writes := [(R.tenSeg t, BitVec.ofNat 32 (b * 2 ^ 16 + len))] }])

def execTenResize (h : Hdr) (ten segLen : Nat) (s : State) : Host.Outcome State Fault Refusal :=
  onCmd s fun d => d.longCommand h 0x0204 [.f] 4 fun d => d.withTen h 0x0204 ten
    (if segLen = 0 ∨ 4096 < segLen then d.fail h 0x0204 St.badParam 18
     else if (d.ten ten).st ≠ .active ∨ d.tenRunning ten ∨ (d.tenEntries ten).any fun e => decide ((d.bt e).st ≠ .live) then
       d.fail h 0x0204 St.tenBusy ten
     else d.resize h ten segLen)

/-- The segment has moved from `old`: the copies are in force, the old entries have no effect any more and are emptied by further
commits. What names an entry follows it. -/
def Die.moveSegment (d : Die) (t old n : Nat) : Die :=
  let base := d.segBase t
  if base = old then d
  else
    let moved (e : Nat) : Nat := if old ≤ e ∧ e < old + n then base + (e - old) else e
    let d1 := d.txns.foldl (fun (d : Die) (x : Txn) => d.setTxn { x with entry := moved x.entry }) d
    let c := d1.act R.pmuTelCfg
    let d2 := if bit c 31 ∧ moved (fld c 13 0) ≠ fld c 13 0
      then d1.commit .pmu none [(R.pmuTelCfg, setFld c 13 0 (moved (fld c 13 0)))] else d1
    let d3 := { d2 with tens := { d2.tens with bayOps := d2.tens.bayOps.map fun (o : BayOp) => { o with entry := moved o.entry } } }
    d3.emptyEntries ((range' old n).filter fun e => decide ((d.bt e).st ≠ .empty) && decide (base + d.segLen t ≤ e ∨ e < base))

/-! ## TEN_HARVEST, TEN_QUERY (R382, R383) -/

def execTenHarvest (h : Hdr) (ten : Nat) (s : State) : Host.Outcome State Fault Refusal :=
  onCmd s fun d => d.longCommand h 0x0206 [.f] 2 fun d => d.withTen h 0x0206 ten
    (if !d.logOn ten then d.fail h 0x0206 St.badParam 16
     else
       let x : Harvest := { ten := ten, mapB := false, swapped := none, hdr := h }
       let d1 := { d with tens := { d.tens with harvests := d.tens.harvests ++ [x] } }
       d1.interim h 0x0206)

def TenSt.code : TenSt → Nat
  | .free => 0 | .active => 1 | .resetting => 2 | .removing => 3

/-- TEN_STATt (R386). -/
def Die.tenStatReg (d : Die) (t : Nat) : Reg :=
  let x := d.ten t
  BitVec.ofNat 32 (x.st.code * 2 ^ 29 + b2n x.actB * 2 ^ 28 + b2n x.ovfB * 2 ^ 27 + b2n x.ovfA * 2 ^ 26 + x.gen % 2 ^ 16)

def execTenQuery (h : Hdr) (ten : Nat) (s : State) : Host.Outcome State Fault Refusal :=
  onCmd s fun d => d.command h 0x0207 [.f, .t] 2 fun d => d.tenParam h 0x0207 ten 16
    (d.ok h 0x0207 ([(4, (d.act (R.tenCfg ten)).toNat), (4, (d.act (R.tenSeg ten)).toNat), (4, (d.act (R.tenLog ten)).toNat),
      (4, (d.tenStatReg ten).toNat)] ++ payList 2 (d.allowedOf ten)))

/-- Harvests whose retired map has no buffer entry left are answered. -/
def Die.endHarvests (d : Die) : Die :=
  d.tens.harvests.foldl (fun (d : Die) (x : Harvest) =>
    match x.swapped with
    | none => d
    | some b =>
      if d.tens.logs.any fun (e : LogEnt) => decide (e.ten = x.ten) && decide (e.mapB = x.mapB) then d
      else
        let ovf := if x.mapB then (d.ten x.ten).ovfB else (d.ten x.ten).ovfA
        let d1 := { d with tens := { d.tens with harvests := d.tens.harvests.filter fun (y : Harvest) => decide (y ≠ x) } }
        d1.ok x.hdr 0x0206 [(1, b2n x.mapB), (8, b), (1, b2n ovf)]) d

/-- Swap the maps of the first waiting harvest of each tenancy whose earlier harvest has ended (R383). -/
def Die.swapMaps (d : Die) : Die :=
  let r := d.tens.harvests.foldl (fun (a : List Harvest × List Nat × Die) (x : Harvest) =>
    if a.2.1.contains x.ten ∨ x.swapped.isSome then (a.1 ++ [x], x.ten :: a.2.1, a.2.2)
    else
      let t := a.2.2.ten x.ten
      let t1 : Ten := if t.actB then { t with actB := false, ovfA := false } else { t with actB := true, ovfB := false }
      (a.1 ++ [{ x with mapB := t.actB, swapped := some a.2.2.transom }], x.ten :: a.2.1, a.2.2.setTen x.ten t1)) ([], [], d)
  ({ r.2.2 with tens := { r.2.2.tens with harvests := r.1 } }).endHarvests

/-- A log buffer entry is dropped unwritten: its map counts as overflown, since no bit is lost (R382, R384; DEDUCED, log 147). -/
def Die.loseLog (d : Die) (e : LogEnt) : Die :=
  if (d.ten e.ten).st = .free then d
  else (d.setTen e.ten (if e.mapB then { (d.ten e.ten) with ovfB := true } else { (d.ten e.ten) with ovfA := true })).event R.tenEvent 4

/-- The mover ORs a log buffer entry into its bitmap line under the log bay's default key (R260, R382): the line is read first, and the
store takes its place in the order of the line (R21). -/
def Die.logOr (d : Die) (i : Nat) : Die :=
  match d.tens.logs[i]? with
  | none => d
  | some e =>
    let ent := fld (d.act (R.tenLog e.ten)) 13 0
    let b := d.bt ent
    let dla := b.dlaBay * 2 ^ 30 + b2n e.mapB * 0x20000000 + e.line * 64
    let k := d.remap b.dlaBay b.defKey
    let key : WKey := .log e.ten e.mapB e.line
    let taken (d : Die) : Die := { d with tens := { d.tens with logs := d.tens.logs.filter fun (x : LogEnt) => decide (x ≠ e) } }
    if !d.plainEntry ent then ((taken (d.closeReads key d.moverLouvre)).loseLog e).endHarvests
    else if d.keyRefused 0xffff ent k.1 false k.2 true then
      (((taken (d.closeReads key d.moverLouvre)).loseLog e).keyRefuse 8 0xffff (d.taOf ent dla) k.1).endHarvests
    else match d.reads key [dla] d.moverCharge with
      | (none, d1) => d1
      | (some w, d1) =>
        if !d1.lineFree dla ∨ d1.laneFull (d1.chanOf dla) then d1
        else
          let r := (taken d1).readWhole dla k.1 b.dlaBay 0 8 b.ten (d1.taOf ent dla) d1.moverCharge []
          let l : LaneEnt := r.2.underEntry w.own { LaneEnt.base with
            dga := dla, dla := dla, kidx := k.1, bay := b.dlaBay, cache := d1.bayCache b.dlaBay, master := 8, louvre := d1.moverLouvre }
          ((r.2.push (match r.1 with
            | .data x => { l with data := x ||| e.bits }
            | _ => { l with poison := true })).endReads w d1.moverLouvre).endHarvests

def execLogBufferOr (i : Nat) (s : State) : Host.Outcome State Fault Refusal := onLive s fun d => d.logOr i

/-! ## What the commits do -/

/-- What a command's commits of this file set going: an emptied allowed list and a FREE record end a removal (R378). -/
def Die.afterTen (d : Die) (c : Instr) (old : Die) : Die :=
  match c with
  | .tenCreate h t _ _ _ =>
    let d1 := d.setTen t { Ten.init with st := .active, gen := (d.ten t).gen }
    d1.ok h 0x0200 [(2, t), (2, (d.ten t).gen), (2, d.segBase t)]
  | .tenRemove h t =>
    let g := (d.ten t).gen
    let d1 := { d with keys := { d.keys with allowed := d.keys.allowed.erase t } }
    ((d1.setTen t { Ten.init with gen := g }).dropTenOp t).ok h 0x0203 [(2, g)]
  | .tenSet h _ _ _ => d.ok h 0x0201 []
  | .tenLog h _ _ _ => d.ok h 0x0205 []
  | .tenResize h t _ => ((d.moveSegment t (old.segBase t) (old.segLen t)).dropTenOp t).ok h 0x0204 [(2, d.segBase t)]
  | _ => d

/-! ## The boundary (R372–R378) -/

/-- The boundary that begins a reset or a removal: the generation rises, requests not yet ordered are dropped, the domain goes
down (R148, R372, R373). -/
def Die.newGen (d : Die) (t : Nat) (st : TenSt) : Die :=
  let x := d.ten t
  let g := (x.gen + 1) % 65536
  let d1 := (d.setTen t { x with st := st, gen := g }).hostEvent (d.tenPort t) (.generation t g)
  let d2 := (d1.txns.filter fun (y : Txn) => decide (y.ten = t) && decide (y.master < 6) && decide (y.stage = .port)).foldl
    (fun (d : Die) (y : Txn) => d.dropTxn y.id) d1
  match d2.domOfTen t with
  | some n => d2.domainDown n 4 (d2.tenPort t)
  | none => d2

/-- Put an entry and its bay into the fence at this boundary (R369 step 2). -/
def Die.fenceBay (d : Die) (e why t : Nat) (hdr : Option Hdr) : Die :=
  let b := (d.bt e).dlaBay
  let d1 := (d.entriesOfBay b).foldl (fun (d : Die) i => d.setBt i { (d.bt i) with st := .fenced }) d
  let d2 := d1.abandonMoves fun (m : Move) => decide (pageBay m.page = b) && mappedBay b
  let o : BayOp := { entry := e, bay := b, phase := .drain, why := why, ten := t, next := 0, left := [], until_ := 0, hdr := hdr }
  { d2 with tens := { d2.tens with bayOps := d2.tens.bayOps ++ [o] } }

/-- Stop a queue (R321), or disable it (R378). -/
def Die.stopQueue (d : Die) (q : Nat) : Die :=
  if (d.job q).st = 1 then (d.setJob q { (d.job q) with st := 2 }).event R.cjeEvent 1 else d
def Die.disableQueue (d : Die) (q : Nat) : Die :=
  let d1 := d.setJob q { (d.job q) with st := 0, stream := Stream.init }
  d1.commit .cje none [(R.cjeQcfg q, setFld (d1.future (R.cjeQcfg q)) 31 31 0)]

def Die.beginReset (d : Die) (o : TenOp) : Die :=
  let d1 := (d.queuesOf o.ten).foldl Die.stopQueue (d.newGen o.ten .resetting)
  if !o.scrub then d1
  else ((d1.tenEntries o.ten).filter fun e => !(d1.bt e).inDom).foldl (fun (d : Die) e => d.fenceBay e 1 o.ten none) d1

/-- Delete a tenancy's contracts without notices; a contract command still filling leaf blocks is answered (R378). -/
def Die.dropContracts (d : Die) (t : Nat) : Die :=
  let mine := d.contracts.filter fun (c : Contract) => decide (c.ten = t)
  let d1 := mine.foldl (fun (d : Die) (c : Contract) =>
    let d1 := d.delCon c.id
    d1.refuseFilling c St.tenBusy t fun _ => []) d
  if mine = [] then d1 else d1.repin

/-- A removed member's entries of domain bays become EMPTY; a bay that loses its last entry stays with the domain. -/
def Die.leaveEntries (d : Die) (t : Nat) : Die :=
  ((d.tenEntries t).filter fun e => (d.bt e).inDom).foldl (fun (d : Die) e =>
    let b := d.bt e
    let d1 := d.setBt e Bt.empty
    if d1.entriesOfBay b.dlaBay ≠ [] then d1
    else { d1 with home := { d1.home with kept := d1.home.kept.set [] b.dom (b :: Tbl.get [] d1.home.kept b.dom) } }) d

def Die.beginRemove (d : Die) (o : TenOp) : Die :=
  let t := o.ten
  let d1 := ((d.newGen t .removing).dropContracts t)
  let d2 := (d1.queuesOf t).foldl Die.disableQueue d1
  let d3 := (if bit (d2.tenCfg t) 19 then d2.commit .ten none [(R.tenCfg t, setFld (d2.future (R.tenCfg t)) 19 19 0)] else d2).leaveEntries t
  (d3.tenEntries t).foldl (fun (d : Die) e => d.fenceBay e 2 t none) d3

/-- The operations of tenancies at a boundary: those accepted before it begin, behind commits that still change the tenancy's bays. -/
def Die.beginTenOps (d : Die) : Die :=
  (d.tens.ops.filter fun (o : TenOp) => !o.begun && decide (o.kind < 2) &&
      !((d.tenEntries o.ten).any fun e => d.bayPending (d.bt e).dlaBay)).foldl (fun (d : Die) (o : TenOp) =>
    let d1 := { d with tens := { d.tens with ops := d.tens.ops.map fun (x : TenOp) => if x = o then { x with begun := true } else x } }
    if o.kind = 0 then d1.beginReset o else d1.beginRemove o) d

/-- A reset ends: ACTIVE, and the reply (R376). -/
def Die.endReset (d : Die) (o : TenOp) : Die :=
  let d1 := (d.setTen o.ten { (d.ten o.ten) with st := .active }).dropTenOp o.ten
  match o.hdr with
  | some h => d1.ok h 0x0202 [(2, (d.ten o.ten).gen)]
  | none => d1

/-- A removal's last scrub has ended: the commit that clears VALID and returns the louvre to LV0 is requested (R104, R378). -/
def Die.endRemove (d : Die) (o : TenOp) : Die :=
  let t := o.ten
  let c := setFld (setFld (d.future (R.tenCfg t)) 31 31 0) 7 0 0
  match o.hdr with
  | none => d
  | some h =>
    if d.mgt.commits.any fun (x : CommitReq) => decide (x.cmd = some (.tenRemove h t)) then d
    else d.commit .ten (some (.tenRemove h t)) [(R.tenCfg t, c)]

/-- Operations whose conditions hold at this boundary end. -/
def Die.endTenOps (d : Die) : Die :=
  (d.tens.ops.filter fun (o : TenOp) => o.begun).foldl (fun (d : Die) (o : TenOp) =>
    let scrubs := d.tens.bayOps.any fun (x : BayOp) => decide (x.ten = o.ten) && decide (x.why = o.kind + 1)
    if scrubs then d
    else if o.kind = 0 then (if d.oldGen o.ten then d else d.endReset o)
    else if o.kind = 1 then d.endRemove o
    else d) d

end Sys2Proof.Machine
end

