-- ==== Sys2Proof/Machine/Bays.lean ====
section
/-! DEFINITION. Machine/Bays.lean: bays and store bays (R278, R306, R361–R370), the mover's scrub (R234, R369, R594), and the
commands that set registers of the ports, louvres, tiering and memory groups (0x0208–0x020A, 0x03xx). -/

namespace Sys2Proof.Machine

/-! ## Register commands: PORT_SET, LVR_SET, LVR_GLOBAL, TIER_SET, MEM_CFG (R400) -/

/-- Parameters checked for reserved bits, then the commit. -/
def Die.regCommand (d : Die) (h : Hdr) (op : Nat) (g : Group) (c : Instr) (ps : List (Nat × Nat × Nat)) : Die :=
  match firstRsv ps with
  | some o => d.fail h op St.badParam o
  | none => d.commitFor g c (ps.map Prod.snd)

def execPortSet (h : Hdr) (port cfg : Nat) (s : State) : Host.Outcome State Fault Refusal :=
  onCmd s fun d => d.command h 0x0208 [.f] 5 fun d =>
    if 5 < port then d.fail h 0x0208 St.badParam 16
    else d.regCommand h 0x0208 (.hpt port) (.portSet h port cfg) [(17, R.hptPortCfg port, cfg)]

def execLvrSet (h : Hdr) (louvre shape target : Nat) (s : State) : Host.Outcome State Fault Refusal :=
  onCmd s fun d => d.command h 0x0209 [.f] 9 fun d =>
    d.regCommand h 0x0209 .lvr (.lvrSet h louvre shape target) [(17, R.lvrShape louvre, shape), (21, R.lvrTarget louvre, target)]

def execLvrGlobal (h : Hdr) (cfg therm pmic map0 map1 : Nat) (s : State) : Host.Outcome State Fault Refusal :=
  onCmd s fun d => d.command h 0x020a [.f] 20 fun d =>
    d.regCommand h 0x020a .lvr (.lvrGlobal h cfg therm pmic map0 map1)
      [(16, R.lvrCfg, cfg), (20, R.lvrTherm, therm), (24, R.lvrPmic, pmic), (28, R.lvrMasterMap0, map0), (32, R.lvrMasterMap1, map1)]

def execTierSet (h : Hdr) (policy value : Nat) (s : State) : Host.Outcome State Fault Refusal :=
  onCmd s fun d => d.command h 0x0306 [.f] 5 fun d =>
    if 15 < policy then d.fail h 0x0306 St.badParam 16
    else d.regCommand h 0x0306 .tir (.tierSet h policy value) [(17, R.tirPolicy policy, value)]

/-- The groups MEM_CFG changes: offset of the parameter, group, register, value; 0xFFFF_FFFF leaves a register unchanged. -/
def memParts (p : MemCfgP) : List (Nat × Group × Nat × Nat) :=
  [(16, Group.tir, R.tirCfg, p.tir), (20, .pcx, R.pcxMapCfg, p.map), (24, .hbc, R.hbcCfg, p.hbc), (28, .itr, R.itrCfg, p.itr),
   (32, .cje, R.cjeCfg, p.cje)].filter fun (x : Nat × Group × Nat × Nat) => decide (x.2.2.2 ≠ 0xffffffff)

def execMemCfg (h : Hdr) (p : MemCfgP) (s : State) : Host.Outcome State Fault Refusal :=
  onCmd s fun d => d.command h 0x0307 [.f] 20 fun d =>
    match firstRsv ((memParts p).map fun (x : Nat × Group × Nat × Nat) => (x.1, x.2.2)) with
    | some o => d.fail h 0x0307 St.badParam o
    | none =>
      if (memParts p) = [] then d.ok h 0x0307 []
      else (memParts p).foldl (fun (d : Die) (x : Nat × Group × Nat × Nat) => d.commitFor x.2.1 (.memCfg h p) [x.2.2]) d

/-! ## Free bays (R364, R365) -/

/-- DLA bays that are not free: in an entry, about to be, a store bay, or staying with a DOWN domain. -/
def Die.bayTaken (d : Die) : List Nat :=
  (d.usedEntries.map fun e => (d.bt e).dlaBay) ++
  ((d.pendingBtu.filter fun (x : Nat × Bt) => decide (x.2.st ≠ .empty)).map fun (x : Nat × Bt) => x.2.dlaBay) ++
  (d.pmap.stores.map fun (x : Nat × Store) => x.2.bay) ++ d.home.kept.flatMap fun (x : Nat × List Bt) => x.2.map fun b => b.dlaBay

/-- The lowest free physical data bay of a set. -/
def Die.freePhys (d : Die) (set : Nat) : Option Nat :=
  let i := d.setInfo set; let taken := d.bayTaken
  if !i.valid then none else (range' i.base i.data).find? fun b => !taken.contains b

/-- The lowest free DLA bay of mapped storage. -/
def Die.freeMapped (d : Die) : Option Nat :=
  let taken := d.bayTaken
  (range' 8192 4096).find? fun b => !taken.contains b

/-- The segment of a tenancy once pending commits have landed: base and length. -/
def Die.futureSeg (d : Die) (t : Nat) : Nat × Nat :=
  let r := d.future (R.tenSeg t)
  (fld r 29 16, fld r 12 0)

/-- A bay index whose entry is EMPTY and not about to be written, in a segment that may be moving. -/
def Die.indexFree (d : Die) (t i : Nat) : Bool :=
  decide ((d.bt (d.segBase t + i)).st = .empty ∨ d.segLen t ≤ i) &&
  !d.pendingBtu.any fun (x : Nat × Bt) => decide (x.1 = (d.futureSeg t).1 + i)

/-! ## BAY_ADD (R365, R366) -/

/-- The first parameter out of range. -/
def Die.bayAddBad (d : Die) (p : BayAddP) : Option (Nat × Nat) :=
  let mapped := decide (p.mode ≠ 0)
  let store (s : Nat) : Option Store := d.pmap.stores.find? s
  let setOf (s : Nat) : Option Nat := (store s).bind fun x => d.setOfBay x.bay
  if 2 < p.mode then some (St.badParam, 20)
  else if 1 < p.cache then some (St.badParam, 21)
  else if 4095 < p.defKey then some (St.badParam, 22)
  else if 15 < p.set then some (St.badParam, 24)
  else if 15 < p.policy then some (St.badParam, 25)
  else if mapped ∧ (store p.primary).isNone then some (St.notFound, 26)
  else if mapped ∧ p.secondary ≠ 0xffff ∧ (store p.secondary).isNone then some (St.notFound, 28)
  else if mapped ∧ p.secondary ≠ 0xffff ∧ setOf p.primary ≠ setOf p.secondary then some (St.badParam, 28)
  else if mapped ∧ (p.quota = 0 ∨ 2097152 < p.quota) then some (St.badParam, 30)
  else none

/-- The new entry's value. -/
def newEntry (p : BayAddP) (bay : Nat) : Bt :=
  { st := .live, cache := decide (p.cache = 1), mode := p.mode, inDom := false, dom := 0, policy := if p.mode = 2 then p.policy else 0,
    defKey := p.defKey, ten := p.ten, dlaBay := bay }

/-- The rest of an add once its parameters are in range. -/
def Die.bayAddGo (d : Die) (h : Hdr) (p : BayAddP) : Die :=
  let seg := d.futureSeg p.ten
  if p.cache = 1 ∧ p.mode = 1 then d.fail h 0x0300 St.bayModeInvalid p.ten
  else if !d.live? p.defKey then d.fail h 0x0300 St.keyNotLive p.defKey
  else match (if p.mode = 0 then d.freePhys p.set else d.freeMapped) with
    | none => d.fail h 0x0300 St.noFreeBay 0
    | some b =>
      match (if p.bay = 0xffff then (List.range seg.2).find? (d.indexFree p.ten) else if d.indexFree p.ten p.bay then some p.bay else none) with
      | none => d.fail h 0x0300 St.segFull (if p.bay = 0xffff then p.ten else seg.1 + p.bay)
      | some i =>
        let d1 := { d with tens := { d.tens with adds := d.tens.adds ++ [p.ten] } }
        d1.commit .ten (some (.bayAdd h { p with bay := i })) (btuWrites (seg.1 + i) (newEntry p b))

def execBayAdd (h : Hdr) (p : BayAddP) (s : State) : Host.Outcome State Fault Refusal :=
  onCmd s fun d => d.command h 0x0300 [.f] 18 fun d => d.withTen h 0x0300 p.ten
    (if (d.ten p.ten).st ≠ .active then d.fail h 0x0300 St.tenBusy p.ten
     else if p.bay ≠ 0xffff ∧ (d.futureSeg p.ten).2 ≤ p.bay then d.fail h 0x0300 St.badParam 18
     else match d.bayAddBad p with
       | some (st, o) => d.fail h 0x0300 st o
       | none => d.bayAddGo h p)

/-! ## BAY_SET, BAY_QUERY -/

/-- The entry of a bay index, not EMPTY. -/
def Die.bayEntry (d : Die) (t bay : Nat) : Option Nat :=
  let e := d.segBase t + bay
  if bay < d.segLen t ∧ (d.bt e).st ≠ .empty then some e else none

/-- Every entry of a DLA bay, those that pending commits write included: a moving segment's copies among them (R371). -/
def Die.sameBay (d : Die) (b : Nat) : List (Nat × Bt) :=
  ((d.tens.bt.keys.map fun e => (e, d.bt e)) ++ d.pendingBtu.filter fun (x : Nat × Bt) => decide ((d.bt x.1).st = .empty)).filter fun (x : Nat × Bt) =>
    decide (x.2.st ≠ .empty) && decide (x.2.dlaBay = b)

/-- An entry as BAY_SET changes it. -/
def Bt.changed (b : Bt) (cache policy : Nat) : Bt := { b with cache := decide (cache = 1), policy := if b.mode = 2 then policy else 0 }

def execBaySet (h : Hdr) (ten bay cache policy quota : Nat) (s : State) : Host.Outcome State Fault Refusal :=
  onCmd s fun d => d.command h 0x0302 [.f] 10 fun d => d.withTen h 0x0302 ten
    (match d.bayEntry ten bay with
     | none => d.fail h 0x0302 St.notFound 18
     | some e =>
       let b := d.bt e
       if 1 < cache then d.fail h 0x0302 St.badParam 20
       else if 15 < policy then d.fail h 0x0302 St.badParam 21
       else if 2097152 < quota then d.fail h 0x0302 St.badParam 22
       else if b.st ≠ .live then d.fail h 0x0302 St.tenBusy ten
       else if cache = 1 ∧ b.mode = 1 then d.fail h 0x0302 St.bayModeInvalid e
       else
         let change (c : Option Instr) (i : Nat) (x : Bt) : CommitReq :=
           { group := .ten, at_ := d.time, cmd := c, writes := btuWrites i (x.changed cache policy), source := some i }
         d.askCommits (((d.sameBay b.dlaBay).filter fun (x : Nat × Bt) => decide (x.1 ≠ e)).map (fun (x : Nat × Bt) => change none x.1 x.2) ++
           [change (some (.baySet h ten bay cache policy quota)) e b]))

def execBayQuery (h : Hdr) (ten bay : Nat) (s : State) : Host.Outcome State Fault Refusal :=
  onCmd s fun d => d.command h 0x0303 [.f, .t] 4 fun d => d.tenParam h 0x0303 ten 16
    (if (d.ten ten).st = .free then d.fail h 0x0303 St.notFound 16
     else if d.segLen ten ≤ bay then d.fail h 0x0303 St.notFound 18
     else
       let b := d.bt (d.segBase ten + bay); let r := d.bay b.dlaBay
       let mapped := decide (b.st ≠ .empty) && mappedBay b.dlaBay
       d.ok h 0x0303 ([(4, b.lo.toNat), (4, b.hi.toNat)] ++ payList 2 (if b.st = .empty then [] else r.keyList) ++
         (if mapped then [(2, r.primary), (2, r.secondary), (4, r.quota), (4, r.used)] else [(2, 0xffff), (2, 0xffff), (4, 0), (4, 0)])))

/-! ## STORE_ADD, STORE_RELEASE (R278, R306) -/

/-- A store index begins with every slab free and its initial open lists (R301). -/
def Die.freshStore (d : Die) (s : Nat) : Die :=
  let p := d.pmap
  { d with pmap := { p with gone := p.gone.filter fun (g : Nat) => decide (g / 65536 ≠ s)
                            slabs := p.slabs.filter (fun (x : Nat × Nat) => decide (x.1 / 65536 ≠ s)),
                            openL := p.openL.filter (fun (x : Nat × List Nat) => decide (x.1 / 8 ≠ s)),
                            current := p.current.filter (fun (x : Nat × Nat) => decide (x.1 / 8 ≠ s)) } }

def execStoreAdd (h : Hdr) (set : Nat) (s : State) : Host.Outcome State Fault Refusal :=
  onCmd s fun d => d.command h 0x0304 [.f] 1 fun d =>
    if 15 < set then d.fail h 0x0304 St.badParam 16
    else if !(d.setInfo set).valid then d.fail h 0x0304 St.notFound 16
    else match d.freePhys set, (List.range 4096).find? fun i => (d.pmap.stores.find? i).isNone with
      | none, _ => d.fail h 0x0304 St.noFreeBay 0
      | _, none => d.fail h 0x0304 St.tooMany 0
      | some b, some i =>
        let d1 := d.freshStore i
        ({ d1 with pmap := { d1.pmap with stores := d1.pmap.stores.insert i { bay := b, low := false } } }).ok h 0x0304 [(2, i), (2, b)]

/-- Pages of a physical bay whose leaf has a minor other than 0. -/
def Die.writtenPages (d : Die) (b : Nat) : List Nat :=
  (((d.itr.home.map Prod.fst) ++ (d.itr.cc.map Prod.fst) ++
      (d.itr.lines.filterMap fun (x : Nat × BlkLine) => (d.itr.block (x.1 / 2 ^ 18)).bay.map fun y => nodeKey 0 (y * 2 ^ 18 + x.1 % 2 ^ 18))).filter
    fun k => decide (keyLevel k = 0) && decide (keyIdx k / 2 ^ 18 = b) && (d.itr.leafSure (keyIdx k)).any fun n => decide (n.minors ≠ [])).map keyIdx |>.eraseDups

def execStoreRelease (h : Hdr) (store : Nat) (s : State) : Host.Outcome State Fault Refusal :=
  onCmd s fun d => d.command h 0x0305 [.f] 2 fun d =>
    match d.pmap.stores.find? store with
    | none => d.fail h 0x0305 St.notFound 16
    | some x =>
      let named := d.usedEntries.any fun e => mappedBay (d.bt e).dlaBay &&
        decide ((d.bay (d.bt e).dlaBay).primary = store ∨ (d.bay (d.bt e).dlaBay).secondary = store)
      if named || !d.storeEmpty store then d.fail h 0x0305 St.storeInUse store
      else
        let d1 := (d.writtenPages x.bay).foldl Die.scrubLeaf d
        ({ (d1.freshStore store) with pmap := { (d1.freshStore store).pmap with stores := d1.pmap.stores.erase store } }).ok h 0x0305 []

/-! ## BAY_REMOVE (R367–R369) -/

def Die.setBayOp (d : Die) (o : BayOp) : Die :=
  { d with tens := { d.tens with bayOps := d.tens.bayOps.map fun (x : BayOp) => if x.bay = o.bay then o else x } }
def Die.dropBayOp (d : Die) (b : Nat) : Die :=
  { d with tens := { d.tens with bayOps := d.tens.bayOps.filter fun (x : BayOp) => decide (x.bay ≠ b) } }
def Die.bayOp? (d : Die) (b : Nat) : Option BayOp := d.tens.bayOps.find? fun (x : BayOp) => decide (x.bay = b)

/-- Set the state of every entry of a DLA bay. -/
def Die.setBaySt (d : Die) (b : Nat) (st : BaySt) : Die :=
  (d.entriesOfBay b).foldl (fun (d : Die) e => d.setBt e { (d.bt e) with st := st }) d

/-- Send an event about the extent of each entry of a bay to its tenancy's port. -/
def Die.extentEvent (d : Die) (b : Nat) (f : Nat → Ev) : Die :=
  (d.entriesOfBay b).foldl (fun (d : Die) e => d.hostEvent (d.tenPort (d.bt e).ten) (f (d.taOf e 0))) d

/-- The phase after the release: recall for a domain bay, else fence. -/
def Die.afterRelease (d : Die) (b : Nat) : RemPhase := if (d.domOfBay b).isSome then .recall else .fence

/-- Why a removal is refused (R367, R379). -/
def Die.removeRefused (d : Die) (t e : Nat) : Option (Nat × Nat) :=
  let b := (d.bt e).dlaBay
  if (d.ten t).st ≠ .active ∨ d.tenRunning t ∨ (d.bt e).st ≠ .live then some (St.tenBusy, t)
  else if d.contracts.any fun (c : Contract) => c.live && c.uses.any fun u => u.dla.contains b then some (St.bayInContract, e)
  else if (d.entriesOfBay b).any fun i => d.holdsRing i || d.holdsLog i none then some (St.bayInUse, e)
  else if d.keys.rets.any fun (r : Retire) => r.erase && decide (r.phase = .clearing) && r.bays.any fun x => decide (x.bay = b) && !x.done then
    some (St.bayBusy, e)
  else none

def execBayRemove (h : Hdr) (ten bay force waitMs : Nat) (s : State) : Host.Outcome State Fault Refusal :=
  onCmd s fun d => d.longCommand h 0x0301 [.f] 9 fun d => d.withTen h 0x0301 ten
    (match d.bayEntry ten bay with
     | none => d.fail h 0x0301 St.notFound 18
     | some e =>
       if 1 < force then d.fail h 0x0301 St.badParam 20
       else match d.removeRefused ten e with
         | some (st, x) => d.fail h 0x0301 st x
         | none =>
           let b := (d.bt e).dlaBay
           let d1 := d.extentEvent b .dcRelease
           let d2 := if force = 1 then d1.extentEvent b .dcForced else d1
           let o : BayOp :=
             { entry := e, bay := b, phase := if force = 1 then d.afterRelease b else .waitHost, why := 0, ten := ten, next := 0,
               left := [], until_ := d.time + waitMs * 100000, hdr := some h }
           ({ d2 with tens := { d2.tens with bayOps := d2.tens.bayOps ++ [o] } }).interim h 0x0301)

/-- The host releases an extent (R368). -/
def execHostExtentRelease (port ta : Nat) (s : State) : Host.Outcome State Fault Refusal :=
  onLive s fun d =>
    match d.tens.bayOps.find? fun (o : BayOp) => decide (o.phase = .waitHost) && decide (d.tenPort o.ten = port) &&
        decide (d.taOf o.entry 0 = ta / 2 ^ 30 * 2 ^ 30) with
    | some o => d.setBayOp { o with phase := d.afterRelease o.bay }
    | none => d

/-- WAIT_MS ends and the host still holds the extent: the bay stays LIVE (R368). -/
def execReleaseWaitTimeout (entry : Nat) (s : State) : Host.Outcome State Fault Refusal :=
  onLive s fun d =>
    match d.tens.bayOps.find? fun (o : BayOp) => decide (o.phase = .waitHost) && decide (o.entry = entry) && decide (o.until_ ≤ d.time) with
    | some o =>
      match o.hdr with
      | some h => (d.dropBayOp o.bay).fail h 0x0301 St.hostHolds entry
      | none => d.dropBayOp o.bay
    | none => d

/-- HBM lines of the directory (R146). -/
def dirLines : Nat := 16777216

/-- Start a directory sweep under the lowest free number. -/
def Die.addSweep (d : Die) (x : Sweep) : Die :=
  match (List.range 4096).find? fun i => (d.home.sweeps.find? i).isNone with
  | some i => { d with home := { d.home with sweeps := d.home.sweeps.insert i x } }
  | none => d

/-- A request, store or job of the bay is still in the device (R369 step 3). -/
def Die.bayInUse (d : Die) (b : Nat) : Bool :=
  let store (dga : Nat) : Bool := if mappedBay b then (d.mapPages b).any fun (x : Nat × PgEnt) => x.2.dgas.contains dga else decide (bayOf dga = b)
  (d.txns.any fun (t : Txn) => decide (bayOf t.dla = b) && decide (t.stage ≠ .port)) ||
  (d.home.busy.any fun (x : Busy) => decide (bayOf x.dla = b)) ||
  (d.lane.any fun (e : LaneEnt) => decide (e.bay = b)) || (d.wq.any fun (w : WqEnt) => store w.dga) || d.opsInBay b ||
  (List.range 64).any fun q => (d.job q).job.isSome && match d.jobTen q with
    | some t => (d.entriesOfBay b).any fun e => decide ((d.bt e).ten = t)
    | none => true

/-- A bay's scrub is over: a reset's bay is LIVE again; the others wait for the boundary (R369, R376). A retirement that was
clearing the bay has its clearing done (R270). -/
def Die.scrubDone (d : Die) (o : BayOp) : Die :=
  let d1 := d.keys.rets.foldl (fun (d : Die) (r : Retire) =>
    match r.bays.find? fun (x : RetBay) => decide (x.bay = o.bay) with
    | some x => if decide (r.phase = .clearing) && !x.done then (d.bayCleared r x).setRetBay r.a { x with done := true, physLeft := false } else d
    | none => d) d
  let d2 := match o.why with
    | 1 => (d1.setBaySt o.bay .live).dropBayOp o.bay
    | 3 => d1.dropBayOp o.bay
    | _ => d1.setBayOp { o with phase := .free }
  d2.retsGo

/-- Is the scrub of a bay at its end? -/
def Die.scrubOver (d : Die) (o : BayOp) : Bool :=
  if mappedBay o.bay then d.mapPages o.bay = [] else decide (o.next = 2 ^ 18) && decide (o.left = [])

/-- The drain of a bay ends (R369 steps 3 and 4). -/
def execBayDrainEnd (bay : Nat) (s : State) : Host.Outcome State Fault Refusal :=
  onLive s fun d =>
    match d.bayOp? bay with
    | some o =>
      if o.phase ≠ .drain ∨ d.bayInUse bay then d
      else
        let o1 : BayOp := { o with phase := .scrub }
        let d1 := (d.setBaySt bay .scrubbing).setBayOp o1
        if d1.scrubOver o1 then d1.scrubDone o1 else d1
    | none => d

/-- Free one page of a mapped bay (R308). -/
def Die.scrubMapped (d : Die) (page : Nat) : Die :=
  let e := d.pgEntry page
  let d1 := if e.st = .packed ∨ e.st = .plain then (d.freeRunOf e.base e.run).addUsed (pageBay page) 0 e.run else d
  let d2 := d1.setPgEnt page PgEnt.unmapped
  { d2 with pmap := { d2.pmap with cached := d2.pmap.cached.filter fun (x : Nat × Nat) => decide (x.2 ≠ page) } }

/-- The mover scrubs one page: PLAIN pages in order, those out of reach last (R594); the next mapped page of a mapped bay. -/
def Die.scrubStep (d : Die) (o : BayOp) (page : Nat) : Die :=
  if mappedBay o.bay then
    match d.mapPages o.bay with
    | x :: _ => if x.1 = page then (let d1 := d.scrubMapped page; if d1.scrubOver o then d1.scrubDone o else d1) else d
    | [] => d.scrubDone o
  else
    let lo := o.bay * 2 ^ 18
    let from_ := lo + o.next
    let skipped := range' from_ (page - from_)
    let step (o1 : BayOp) : Die :=
      let d1 := (d.scrubLeaf page).setBayOp o1
      if d1.scrubOver o1 then d1.scrubDone o1 else d1
    if from_ ≤ page ∧ page < lo + 2 ^ 18 then
      if d.pageOut page then
        if page = from_ then d.setBayOp { o with next := o.next + 1, left := o.left ++ [page] } else d
      else if skipped.all d.pageOut then step { o with next := page + 1 - lo, left := o.left ++ skipped } else d
    else if o.left.contains page ∧ o.next = 2 ^ 18 ∧ !d.pageOut page then step { o with left := o.left.filter (· ≠ page) }
    else d

def execScrubPage (bay page : Nat) (s : State) : Host.Outcome State Fault Refusal :=
  onMover s fun d =>
    match d.bayOp? bay with
    | some o => if o.phase = .scrub then d.scrubStep o page else d
    | none => d

/-! ## What the commits do, and the boundary -/

def Die.afterBay (d : Die) (c : Instr) : Die :=
  match c with
  | .portSet h _ _ => d.ok h 0x0208 []
  | .lvrSet h _ _ _ => d.ok h 0x0209 []
  | .lvrGlobal h _ _ _ _ _ => d.ok h 0x020a []
  | .tierSet h _ _ => d.ok h 0x0306 []
  | .bayAdd h p =>
    let e := d.segBase p.ten + p.bay; let b := (d.bt e).dlaBay
    let d1 := if p.mode = 0 then d
      else d.setBay b { (d.bay b) with primary := p.primary, secondary := p.secondary, quota := p.quota, used := 0 }
    let d2 := { d1 with tens := { d1.tens with adds := d1.tens.adds.erase p.ten } }
    (d2.hostEvent (d2.tenPort p.ten) (.dcAdd (d2.taOf e 0))).ok h 0x0300 [(2, e), (2, p.bay), (2, b)]
  | .baySet h t bay _ _ quota =>
    let b := d.bt (d.segBase t + bay)
    if b.st = .empty then d.fail h 0x0302 St.notFound 18
    else if b.st ≠ .live then d.fail h 0x0302 St.tenBusy t
    else
      let d1 := if quota = 0 ∨ !mappedBay b.dlaBay then d else d.setBay b.dlaBay { (d.bay b.dlaBay) with quota := quota }
      d1.ok h 0x0302 []
  | _ => d

/-- Free a scrubbed bay (R369 step 5). -/
def Die.freeBay (d : Die) (o : BayOp) : Die :=
  let d1 := (d.entriesOfBay o.bay).foldl (fun (d : Die) e => d.setBt e Bt.empty) d
  let d2 := ((d1.setBay o.bay { BayRec.init with keyList := (d1.bay o.bay).keyList }).dropBayOp o.bay).event R.tenEvent 3
  match o.hdr with
  | some h => d2.ok h 0x0301 []
  | none => d2

/-- Bay operations at a boundary: recall, fence, free (R369). A recall or fence waits for commits that still change the bay's entries. -/
def Die.bayBoundary (d : Die) : Die :=
  d.tens.bayOps.foldl (fun (d : Die) (o : BayOp) =>
    match o.phase with
    | .recall =>
      if (d.bt o.entry).st ≠ .live ∨ d.bayPending o.bay then d
      else
        let n := (d.domOfBay o.bay).getD 0
        (d.setBaySt o.bay .recalling).addSweep
          { dom := n, port := none, bay := some o.bay, clear := d.domDown n, linesLeft := dirLines, last := (0, 0), cmd := none }
    | .fence =>
      if d.bayPending o.bay then d else
      let d1 := (d.setBaySt o.bay .fenced).abandonMoves fun (m : Move) => decide (pageBay m.page = o.bay) && mappedBay o.bay
      d1.setBayOp { o with phase := .drain }
    | .free => d.freeBay o
    | _ => d) d

end Sys2Proof.Machine
end

