-- ==== Sys2Proof/Machine/Power.lean ====
section
/-! DEFINITION. Machine/Power.lean: performance levels, request slots, thermal cap, sleep entry up to the walker's preparation,
wake sources, residency and the PWR register values (14). -/

namespace Sys2Proof.Machine

/-! ## Level requests (R465–R470) -/

/-- Start an in-flight level request (R469): to a faster level, the voltage first. -/
def Die.startLevel (d : Die) (level : Nat) : Die :=
  if level < d.pwr.level then
    { d with pwr := { d.pwr with freqDone := false, settled := false, settling := true, volt := level } }
  else { d with pwr := { d.pwr with freqDone := false, settled := false } }

/-- CORE_VID[4:0] (R580): high impedance until start-up step 1, from then on the code of the level whose voltage is requested. -/
def Die.coreVid (d : Die) : Option Nat :=
  if d.boot.started ∧ 1 ≤ d.boot.step then some (20 - 6 * d.pwr.volt) else none

/-- The core voltage a code requests, in mV (R580). -/
def coreMv (code : Nat) : Nat := 600 + 10 * code

/-- The sources always enabled (R482, R483). -/
def alwaysWake : Nat := 0xe1c0

/-- A request enters the in-flight slot. -/
def Die.enterSlot (d : Die) (r : PwrReq) : Die :=
  let d1 := { d with pwr := { d.pwr with inflight := some r } }
  let sleep (st : PwrSt) : Die :=
    { d1 with pwr := { d1.pwr with st := st, present := 0, wakeMask := r.mask % 65536 ||| alwaysWake } }
  match r.code with
  | 5 => { d1 with pwr := { d1.pwr with st := .sl1 false } }
  | 6 => sleep .sl2Entry
  | 7 => sleep (.sl3Entry 0)
  | c => d1.startLevel (c - 1)

/-- Domain `n` is powered (R490). -/
def Die.domainOn (d : Die) (n : Nat) : Bool :=
  let contract (c : Nat) : Bool := decide ((loadOf (d.contracts.filter Contract.live) fun _ => d.chargeQ c) ≠ 0)
  match d.pwr.st with
  | .sl3 => decide (n = 0)
  | .sl2 =>
    if n = 5 ∨ n = 6 ∨ n = 21 ∨ n = 22 then false
    else if n = 23 ∨ n = 24 then
      (List.range 16).any fun c => contract c && decide (((d.chan c).lane = 16 + 2 * (n - 23) ∨ (d.chan c).lane = 17 + 2 * (n - 23)) ∨
        (d.chan c).codec = 16 + (n - 23))
    else if 25 ≤ n then contract (n - 25)
    else true
  | _ => true

/-- u16 and u32 fields of a body. -/
def u16At (b : List Nat) (i : Nat) : Nat := ofLe ((b.drop i).take 2)
def u32At (b : List Nat) (i : Nat) : Nat := ofLe ((b.drop i).take 4)

/-- One entry of a REGION body (R420). -/
structure RegionEnt where
  ctl : Nat
  region : Nat
  base : Nat
  lim : Nat
  mask : Nat
  word : Nat
  deriving DecidableEq, Repr

def regionEnts (b : List Nat) : List RegionEnt :=
  (List.range (u16At b 0)).map fun i =>
    let o := 2 + 18 * i
    { ctl := b.getD o 0, region := b.getD (o + 1) 0, base := u32At b (o + 2), lim := u32At b (o + 6), mask := u32At b (o + 10),
      word := u32At b (o + 14) }

/-- The domains of the crypto lanes. -/
def cryDomains : List Nat := range' 23 18

/-- The blocks the secure world holds (R435), each by its domain (R490) and whether it runs on the fabric clock (R477; log entry
158). -/
def Die.heldBlocks (d : Die) : List (Nat × Bool) :=
  let core := if (List.range 4).any fun k => ((d.dbg.cores.find? k).getD Core.init).secure then [(2, false)] else []
  let slots := cryDomains.map fun n => (n, true)
  let change (p : Proposal) : List (Nat × Bool) :=
    if p.commit.isNone then []
    else match p.kind with
      | 1 => slots
      | 2 => (regionEnts p.body).map fun e => (if e.ctl < 16 then 25 + e.ctl else 19, false)
      | 4 => [(7, false)]
      | 5 => [(8, true)]
      | _ => [(2, false)]
  core ++ (if d.dbg.siAt.isSome then slots else []) ++ d.dbl.props.flatMap change

/-- The secure world holds a block whose clock or power a request would gate (R435, R436): SL1 the fabric clock, SL2 and SL3 the
domains that R490 turns off. -/
def Die.secureHolds (d : Die) (code : Nat) : Bool :=
  let asleep (st : PwrSt) : Die := { d with pwr := { d.pwr with st := st } }
  let gates (b : Nat × Bool) : Bool :=
    match code with
    | 5 => b.2
    | 6 => !(asleep .sl2).domainOn b.1
    | 7 => !(asleep .sl3).domainOn b.1
    | _ => false
  d.heldBlocks.any gates

/-- Accept a request (R473, R474): the slot it takes, and the reply's status. -/
def Die.placeRequest (d : Die) (r : PwrReq) : Nat × Die :=
  let held := d.secureHolds r.code
  if d.pwr.inflight.isNone ∧ d.pwr.pending.isNone ∧ !held then (St.success, d.enterSlot r)
  else
    let d1 := if d.pwr.pending.isSome then
        { d with pwr := { d.pwr with last := St.superseded } }.event R.pwrEvent 3
      else d
    let d2 := { d1 with pwr := { d1.pwr with pending := some r, deferred := held } }
    -- a request in SL1 ends when another enters the pending slot (R476); in SL2 and on the way there it is a wake source (R484)
    let d3 := match d2.pwr.st with
      | .sl1 _ => ({ d2 with pwr := { d2.pwr with st := .run } }.endRequest St.success)
      | .sl2 | .sl2Entry => d2.wake 15
      | _ => d2
    (if held then St.deferredSecure else St.success, d3)

/-- A domain is UP or SWEEPING (R480). -/
def Die.anyDomainUp (d : Die) : Bool := (List.range 64).any d.domUp

def execPwrLevel (h : Hdr) (level : Nat) (s : State) : Host.Outcome State Fault Refusal :=
  onCmd s fun d => d.command h 0x0800 [.f] 1 fun d =>
    if 3 < level then d.fail h 0x0800 St.badParam 16
    else if !d.levelOk level then d.fail h 0x0800 St.capacityHeld 0
    else
      let inForce := d.pwr.level
      let r := d.placeRequest { code := level + 1, mask := 0 }
      r.2.answer h 0x0800 r.1 0 [(1, inForce)]

def execPwrSleep (h : Hdr) (state mask : Nat) (s : State) : Host.Outcome State Fault Refusal :=
  onCmd s fun d => d.command h 0x0801 [.f] 5 fun d =>
    if state = 0 ∨ 3 < state then d.fail h 0x0801 St.badParam 16
    else if 65536 ≤ mask then d.fail h 0x0801 St.badParam 17
    else if state = 3 ∧ d.anyDomainUp then d.fail h 0x0801 St.domainState 0
    else
      let r := d.placeRequest { code := state + 4, mask := mask }
      r.2.answer h 0x0801 r.1 0 []

/-- A voltage wait ends (R469, R471). -/
def Die.vsettle (d : Die) : Die :=
  if !d.pwr.settling then d
  else
    let d1 := { d with pwr := { d.pwr with settling := false, back := if d.pwr.back = 1 then 2 else d.pwr.back } }
    match d.pwr.inflight with
    | some r =>
      if 4 < r.code then d1
      else if d.pwr.freqDone then
        ({ d1 with pwr := { d1.pwr with commanded := r.code - 1 } }.endRequest St.success).event R.pwrEvent 1
      else { d1 with pwr := { d1.pwr with settled := true } }
    | none => d1

def execVsettleDone (s : State) : Host.Outcome State Fault Refusal := onLive s Die.vsettle

/-! ## The boundary (R466–R471, R475) -/

/-- The in-flight level request at a boundary. -/
def Die.levelBoundary (d : Die) : Die :=
  match d.pwr.inflight with
  | some r =>
    if r.code = 0 ∨ 4 < r.code ∨ d.pwr.freqDone then d
    else
      let l := r.code - 1
      let faster := decide (l < d.pwr.level)
      if faster ∧ !d.pwr.settled then d
      else if !d.levelOk l then
        ({ d with pwr := { d.pwr with volt := d.pwr.level } }.endRequest St.capacityHeld).event R.pwrEvent 4
      else if faster then
        ({ d with pwr := { d.pwr with level := l, commanded := l } }.endRequest St.success).event R.pwrEvent 1
      else { d with pwr := { d.pwr with level := l, volt := l, freqDone := true, settling := true } }
  | none => d

/-- The hottest die sensor in service (R471). -/
def Die.hottest (d : Die) : Int :=
  (d.pwr.sensors.filter fun (e : Nat × Int) => !d.flt.sensorsOut.contains e.1).foldl
    (fun a (e : Nat × Int) => max a e.2) (-128)

/-- The thermal cap (R471). -/
def Die.thermalBoundary (d : Die) : Die :=
  let th := d.act R.pwrTherm
  let hot := Int.ofNat (fld th 15 8); let hyst := Int.ofNat (fld th 3 0)
  let cap := max d.pwr.commanded d.pwr.floor
  if hot ≤ d.hottest then
    let d1 := { d with pwr := { d.pwr with hot := true, back := 0, level := cap } }
    if d.pwr.hot then d1 else d1.event R.pwrEvent 6
  else if !d.pwr.hot then d
  else if d.hottest < hot - hyst then
    if d.pwr.commanded = d.pwr.level then { d with pwr := { d.pwr with hot := false, back := 0 } }
    else if d.pwr.back = 2 then { d with pwr := { d.pwr with hot := false, back := 0, level := d.pwr.commanded } }
    else if d.pwr.back = 0 then
      { d with pwr := { d.pwr with back := 1, settling := true, volt := d.pwr.commanded } }
    else d
  else { d with pwr := { d.pwr with level := cap } }

/-- The pending request moves into an empty in-flight slot (R475). -/
def Die.pendingBoundary (d : Die) : Die :=
  match d.pwr.inflight, d.pwr.pending with
  | none, some r =>
    if d.secureHolds r.code then { d with pwr := { d.pwr with deferred := true } }
    else
      let d1 := { d with pwr := { d.pwr with pending := none, deferred := false } }
      if 1 ≤ r.code ∧ r.code ≤ 4 ∧ !d.levelOk (r.code - 1) then
        { d1 with pwr := { d1.pwr with last := St.capacityHeld } }.event R.pwrEvent 4
      else if r.code = 7 ∧ d.anyDomainUp then { d1 with pwr := { d1.pwr with last := St.domainState } }.event R.pwrEvent 4
      else d1.enterSlot r
  | _, _ => d

/-- Power at a boundary, after step 5 of R71. -/
def Die.powerBoundary (d : Die) : Die :=
  let d1 := d.levelBoundary
  let d2 := { d1 with pwr := { d1.pwr with floor := d1.floorPl } }
  d2.thermalBoundary.pendingBoundary

/-! ## Residency (R492) -/

/-- The counter that advances now: PL0–PL3, SL1, SL2, SL3. -/
def Pwr.residency (p : Pwr) : Nat :=
  match p.st with
  | .sl1 _ => 4
  | .sl2 => 5
  | .sl3 => 6
  | _ => p.level

/-- One reference cycle passes: time base and residency; HBM accesses and port messages that waited for it go (R26, R36, R351). -/
def Die.cycle (d : Die) : Die :=
  let k := d.pwr.residency
  let d1 := { d with time := d.time + 1, pwr := { d.pwr with res := d.pwr.res.set 0 k (Tbl.get 0 d.pwr.res k + 1) } }
  (Die.hbmDrain d1.hbc.queue.length d1).portsSend

/-- `n` reference cycles pass. -/
def Die.advance : Nat → Die → Die
  | 0, d => d
  | n + 1, d => Die.advance n d.cycle

/-! ## Sleep (R477–R487) -/

/-- No fabric block holds a request, response or queued operation (R477). -/
def Die.idle (d : Die) : Bool :=
  d.home.txns.isEmpty && d.xfers.isEmpty && d.lane.isEmpty && d.wq.isEmpty && d.home.busy.isEmpty && d.hbc.queue.isEmpty && d.wops.isEmpty &&
  d.pmap.ops.isEmpty && d.tir.moves.isEmpty && d.flt.tests.isEmpty && d.egr.all (fun (e : Nat × Egress) => e.2.waiting.isEmpty) &&
  d.jobs.all fun (e : Nat × JobQ) => e.2.job.isNone

/-- SL1's fabric clock stops (R477). -/
def execSl1ClockStop (s : State) : Host.Outcome State Fault Refusal :=
  onLive s fun d =>
    match d.pwr.st with
    | .sl1 false => if d.idle then { d with pwr := { d.pwr with st := .sl1 true } } else d
    | _ => d

/-- The waits of R479: no job runs, no log entry stands, no test runs, moves abandoned, erasures stopped. -/
def Die.quietForSleep (d : Die) : Bool :=
  (d.jobs.all fun (e : Nat × JobQ) => e.2.job.isNone) && d.tens.logs.isEmpty &&
  !(d.flt.tests.any fun (t : Test) => t.running)

/-- The level sources that the always-on logic sees present when an entry ends (R482, R485). -/
def Die.levelSources (d : Die) : Nat :=
  let on (c : Bool) (b : Nat) : Nat := if c then 2 ^ b else 0
  (List.range 6).foldl (fun a p => a ||| on (d.port p).perst p)
    (on (d.ohmSeen.any fun (f : Frame) => decide (f.st ≠ .good) || decide (f.events ≠ 0)) 7 |||
     on (decide (Int.ofNat (fld (d.act R.pwrTherm) 15 8) ≤ d.hottest)) 9 ||| on d.pwr.pending.isSome 15)

/-- An entry ends: the sources its sleep starts with (R485), and whether one of them ends it at once. -/
def Die.entryEnds (d : Die) (asleep exit : PwrSt) : Die :=
  let m := d.pwr.present ||| d.levelSources
  let wake := decide (m &&& d.pwr.wakeMask ≠ 0)
  { d with pwr := { d.pwr with st := if wake then exit else asleep, present := m, sleepStart := d.time,
                               sleepEnd := if wake then d.time else d.pwr.sleepEnd } }

/-- SL2 is entered once the waits are over (R479); a level source then present wakes at once (R485). -/
def execSl2Entry (s : State) : Host.Outcome State Fault Refusal :=
  onLive s fun d =>
    if d.pwr.st ≠ .sl2Entry then d
    else
      let d1 := (d.abandonMoves fun _ => true).dropMoverOps
      if !d1.quietForSleep then d1 else d1.entryEnds .sl2 .sl2Exit

/-- A wake source fires: the source is a bit of R482. -/
def execWakeSource (source : Nat) (s : State) : Host.Outcome State Fault Refusal :=
  onDie s fun d => if d.boot.hold ∨ 16 ≤ source then d else d.wake source

/-- PWR_WAKE_TIME. -/
def Die.wakeTime (d : Die) : Nat := (d.regR R.pwrWakeTimeHi).toNat * 2 ^ 32 + (d.regR R.pwrWakeTimeLo).toNat

/-- The wake timer: fires when the time base reaches PWR_WAKE_TIME, unless that had passed when the entry ended (R487). -/
def execWakeTimer (s : State) : Host.Outcome State Fault Refusal :=
  onDie s fun d =>
    if d.boot.hold ∨ d.time < d.wakeTime ∨ d.wakeTime ≤ d.pwr.sleepStart then d else d.wake 10

/-- An SL2 exit ends (R481, R486, R493). -/
def execSl2ExitDone (s : State) : Host.Outcome State Fault Refusal :=
  onLive s fun d =>
    if d.pwr.st ≠ .sl2Exit then d
    else
      let d1 := ({ d with pwr := { d.pwr with st := .run }, pmu := { d.pmu with gapDue := true } }.recordWake d.pwr.present)
      ((d1.endRequest St.success).event R.pwrEvent 2).drainDeferred

/-! ## Sensors (R471, R472) -/

/-- A die temperature sensor reads; at CRIT a fatal THERMAL_CRIT is recorded. -/
def execDieSensorReading (sensor : Nat) (temp : Int) (s : State) : Host.Outcome State Fault Refusal :=
  onLive s fun d =>
    let d1 := { d with pwr := { d.pwr with sensors := d.pwr.sensors.insert sensor temp } }
    if d.flt.sensorsOut.contains sensor then d1
    else if Int.ofNat (fld (d.act R.pwrTherm) 23 16) ≤ temp then d1.record (0xc0 + sensor) 0x54 2 0xff 0xffff 0 0
    else if Int.ofNat (fld (d.act R.pwrTherm) 15 8) ≤ temp then d1.wake 9
    else d1

/-! ## PWR register values (R494) -/

def PwrSt.code : PwrSt → Nat
  | .run | .sl2Entry => 0
  | .sl1 _ => 1
  | .sl2 => 2
  | .sl3Entry _ | .sl3 => 3
  | .sl2Exit | .sl3Exit => 4

def Die.pwrStat (d : Die) : Reg :=
  let p := d.pwr
  BitVec.ofNat 32 (p.level * 2 ^ 30 + p.commanded * 2 ^ 28 + p.floor * 2 ^ 26 + b2n p.hot * 2 ^ 25 + p.st.code * 2 ^ 22)

def slotCode : Option PwrReq → Nat
  | some r => r.code
  | none => 0

def Die.pwrReq (d : Die) : Reg :=
  BitVec.ofNat 32 (slotCode d.pwr.inflight * 2 ^ 28 + slotCode d.pwr.pending * 2 ^ 24 + b2n d.pwr.deferred * 2 ^ 23 + d.pwr.last % 65536)

/-- Two's complement byte of a temperature. -/
def tempByte (t : Int) : Nat := (t % 256).toNat

def Die.domStatReg (d : Die) (lo n : Nat) : Reg :=
  BitVec.ofNat 32 ((List.range n).foldl (fun a i => a + b2n (d.domainOn (lo + i)) * 2 ^ i) 0)

def execPwrQuery (h : Hdr) (s : State) : Host.Outcome State Fault Refusal :=
  onCmd s fun d => d.command h 0x0802 [.f, .k] 0 fun d =>
    d.ok h 0x0802 ([(1, d.pwr.level)] ++ ([0, 4, 5, 6].map fun k => (8, Tbl.get 0 d.pwr.res k)) ++ [(4, d.pwr.lastWake)])

end Sys2Proof.Machine
end

