-- ==== Sys2Proof/Machine/Ohmoux.lean ====
section
/-! DEFINITION. Machine/Ohmoux.lean: the Ohmoux die (13): state table, ramp, trips, cool-down and latch-off, the entry record,
sequencing, orderly shutdown, feeds, status frames and the standby target. -/

namespace Sys2Proof.Machine

/-! ## The entry record and straps -/

/-- CRC-16 of R453: polynomial 0x1021, initial value 0xFFFF, no reflection. -/
def crc16 (bs : List Nat) : Nat :=
  bs.foldl (fun c b => (List.range 8).foldl (fun c _ => if c < 0x8000 then 2 * c else (2 * c - 0x10000) ^^^ 0x1021)
    (c ^^^ b * 256)) 0xffff

def RState.code : RState → Nat
  | .clear => 0 | .cooldown => 1 | .latched => 2 | .fetShort => 3

/-- RSTATE of a code; other codes are reserved. -/
def RState.ofCode : Nat → RState
  | 1 => .cooldown | 2 => .latched | 3 => .fetShort | _ => .clear

/-- The 16 bytes of the entry record (R453). -/
def EntryRec.bytes (r : EntryRec) : List Nat :=
  let b := [r.retries * 16 + r.rstate.code, r.cause] ++ leBytes 2 r.trips ++ leBytes 4 r.goods ++ List.replicate 6 0
  b ++ leBytes 2 (crc16 b)

/-- TRIP_PCT (%), SOA_T (0.5 ms), RETRY_MAX and COOL (0.5 s) of a strap row (R443). -/
def tripPct (k : Nat) : Nat := [150, 175, 200, 225, 250, 275, 300, 200].getD k 200
def soaHms (k : Nat) : Nat := [1, 2, 4, 8, 16, 24, 40, 8].getD k 8
def retryMax (k : Nat) : Nat := [0, 1, 2, 4, 5, 6, 7, 3].getD k 3
def coolHs (k : Nat) : Nat := [1, 2, 6, 8, 10, 12, 16, 4].getD k 4
/-- V_END of a strap row (mV), from the table of R450. -/
def vEnd (k : Nat) : Nat := [2206, 1947, 1181, 919, 716, 558, 338, 1516].getD k 1516

/-! ## Actions -/

/-- GATE off and every SEQ_EN low; the main die is held in reset (R449, R459). -/
def Ohm.off (o : Ohm) : Ohm :=
  { o with gate := false, entry := false, seqEn := 0, pg := 0, released := false, vout := 0, leaving := false }

/-- A ramp may start: VBUS in range and presence debounced (R444). -/
def Ohm.mayRamp (o : Ohm) : Bool := o.vbusOk && o.debounced

/-- Start a ramp (R444). -/
def Ohm.ramp (o : Ohm) : Ohm := { o with st := .ramp, gate := true, fltN := false }

/-- Act on RSTATE (R455, R460). -/
def Ohm.actOn (o : Ohm) : Ohm :=
  match o.record.rstate with
  | .clear => { o with st := .waitPresent, fltN := false }
  | .cooldown => { o with st := .cooldown, fltN := true }
  | .latched => { o with st := .latched, fltN := true }
  | .fetShort => { o with st := .fetShort, fltN := true }

/-- The record after a trip (R449 steps 4 and 5). -/
def EntryRec.trip (r : EntryRec) (max cause : Nat) : EntryRec :=
  { r with retries := if r.retries < max then r.retries + 1 else r.retries,
           rstate := if r.retries < max then .cooldown else .latched,
           cause := cause, trips := min (r.trips + 1) 0xffff }

/-- A trip (R449). -/
def Ohm.trip (o : Ohm) (cause : Nat) : Ohm :=
  let r := o.record.trip (retryMax o.straps.retry) cause
  { o.off with st := if r.rstate = .cooldown then .cooldown else .latched, fltN := true, cdh := 2500, record := r }

/-- The record with RETRIES 0 and RSTATE CLEAR (R452, R456). -/
def EntryRec.clear (r : EntryRec) : EntryRec := { r with retries := 0, rstate := .clear }

/-- A latch-off ends (R452). -/
def Ohm.unlatch (o : Ohm) : Ohm := { o with record := o.record.clear, st := .waitPresent, fltN := false }

/-! ## The main die's supply -/

/-- The main die loses its supply: only the keep registers, the flash and the record of what was sent keep their contents
(R563); the ports' PERST# pins keep their levels. A keep write under way leaves the old value or the new one (R557): a free choice. -/
def Die.powerOff (d : Die) : Die :=
  let k := d.kps
  let cells := match k.queue with
    | w :: _ => if Config.random d.draws % 2 = 0 ∨ k.bad.contains w.k then (k.cells, k.wear)
        else (k.cells.set 0 w.k w.v, k.wear.set 0 w.k (Tbl.get 0 k.wear w.k + 1))
    | [] => (k.cells, k.wear)
  { Die.init with draws := d.draws + 1, out := d.out,
                  ports := d.ports.filterMap (fun (e : Nat × Port) =>
                    if e.2.perst then none else some (e.1, { Port.init with perst := false })),
                  kps := { Kps.init with cells := cells.1, wear := cells.2 },
                  boot := { Boot.init with flash := d.boot.flash } }

/-- The state with a new Ohmoux state; a main die that loses its release loses its supply, and frames under way are lost. -/
def State.withOhm (s : State) (o : Ohm) : State :=
  let o1 := { o with tripNow := none }
  if s.ohm.released && !o.released then { s with ohm := o1, die := s.die.powerOff, link := [] } else { s with ohm := o1 }

/-! ## Status frames (R462) -/

def Ohm.frame (o : Ohm) : Frame :=
  { st := o.st, record := o.record, feedAOk := o.feedAOk, feedBOk := o.feedBOk, feedAOn := o.feedAOn, feedBOn := o.feedBOn,
    prsnt := o.prsnt, pg := o.pg, trip := tripPct o.straps.trip, soa := soaHms o.straps.soa, cool := coolHs o.straps.cool,
    retry := retryMax o.straps.retry, vbus := o.vbus, vout := o.vout, cdh := o.cdh, events := o.events }

/-- Send a status frame to a released main die. -/
def State.sendFrame (s : State) : State :=
  if s.ohm.released then { s with link := s.link ++ [s.ohm.frame], ohm := { s.ohm with events := 0 } } else s

/-- Report an event over the link at once (R462). -/
def State.ohmEvent (s : State) (bitNo : Nat) : State :=
  { s with ohm := { s.ohm with events := s.ohm.events ||| 2 ^ bitNo } }.sendFrame

/-! ## OHM register values (R464) -/

def OhmSt.code : OhmSt → Nat
  | .init => 0 | .waitPresent => 1 | .ramp => 2 | .seq => 3 | .good => 4 | .cooldown => 5 | .latched => 6 | .fetShort => 7
  | .holdOff => 8

def Frame.stat (f : Frame) : Reg :=
  BitVec.ofNat 32 (f.st.code * 2 ^ 28 + f.record.cause % 16 * 2 ^ 24 + f.record.retries * 2 ^ 21 + b2n f.feedAOk * 2 ^ 20 +
    b2n f.feedBOk * 2 ^ 19 + b2n f.feedAOn * 2 ^ 18 + b2n f.feedBOn * 2 ^ 17 + b2n f.prsnt * 2 ^ 16 + f.pg % 256)
def Frame.cfg (f : Frame) : Reg := BitVec.ofNat 32 (f.trip * 2 ^ 23 + f.soa * 2 ^ 16 + f.cool * 2 ^ 8 + f.retry)
/-- IOUT is a measurement that nothing in the model gives: a free value. -/
def Frame.telem0 (f : Frame) (iout : Nat) : Reg := BitVec.ofNat 32 (f.vbus * 2 ^ 16 + iout % 2 ^ 16)
def Frame.telem1 (f : Frame) : Reg := BitVec.ofNat 32 (f.vout * 2 ^ 16 + f.cdh % 2 ^ 16)
/-- OHM_RECORDi. -/
def Frame.recordReg (f : Frame) (i : Nat) : Reg := BitVec.ofNat 32 (ofLe ((f.record.bytes.drop (4 * i)).take 4))
/-- The status registers OHM_QUERY returns. -/
def Frame.query (f : Frame) (iout : Nat) : List PayVal :=
  ([f.stat, f.cfg, f.telem0 iout, f.telem1] ++ (List.range 4).map f.recordReg).map fun r => (4, r.toNat)

/-! ## The input -/

/-- VBUS rises through 10.2 V (R443, R455): straps and record read; `damaged` is byte 0 of a record whose CHECK fails. -/
def Ohm.rise (o : Ohm) (mv : Nat) (straps : Straps) (damaged : Option Nat) : Ohm :=
  let o1 := { o with powered := true, vbusOk := true, vbus := mv, straps := straps, debounced := false, feedAOk := true,
                     feedBOk := true, feedAOn := true, feedBOn := true }
  match damaged with
  | none => o1.actOn
  | some b =>
    { o1 with cdh := 2500, record := { o1.record with rstate := .cooldown, cause := 7,
                                                      retries := if b % 16 < 4 then b / 16 % 8 else 0 } }.actOn

def execVbusRise (mv : Nat) (straps : Straps) (damaged : Option Nat) (s : State) : Host.Outcome State Fault Refusal :=
  .next (if s.ohm.powered then s else s.withOhm (s.ohm.rise mv straps damaged))

/-- Ohmoux without input: record and CDH carry the state (R460). -/
def Ohm.stop (o : Ohm) (mv : Nat) : Ohm :=
  { o.off with st := .init, powered := false, vbusOk := false, vbus := mv, debounced := false, fltN := false, killN := false,
               feedAOk := false, feedBOk := false, feedAOn := false, feedBOn := false, events := 0, last := none }

def execVbusFall (mv : Nat) (s : State) : Host.Outcome State Fault Refusal :=
  .next (if s.ohm.powered then s.withOhm (s.ohm.stop mv) else s)

/-- VBUS above 14.0 V: HOLD_OFF from every powered state but FET_SHORT (R459, R460). -/
def execVbusOvervoltage (mv : Nat) (s : State) : Host.Outcome State Fault Refusal :=
  .next (if s.ohm.powered ∧ s.ohm.st ≠ .fetShort then
      s.withOhm { s.ohm.off with st := .holdOff, vbusOk := false, vbus := mv, debounced := false, fltN := false }
    else s)

/-- VBUS below 13.6 V in HOLD_OFF: RSTATE acted on (R460). -/
def execVbusOvResume (mv : Nat) (s : State) : Host.Outcome State Fault Refusal :=
  .next (if s.ohm.st = .holdOff then s.withOhm { s.ohm with vbusOk := true, vbus := mv }.actOn else s)

/-! ## Presence -/

/-- PRSNT_N low for 50 ms (R442, R460): a CLEAR record ramps, a COOLDOWN one once CDH is at or below V_END. -/
def Ohm.present (o : Ohm) (cdh : Nat) : Ohm :=
  let o1 := { o with prsnt := true, debounced := true }
  match o.st with
  | .waitPresent => if o1.mayRamp then o1.ramp else o1
  | .cooldown => if o1.mayRamp ∧ cdh ≤ vEnd o.straps.cool then { o1 with cdh := cdh }.ramp else { o1 with cdh := cdh }
  | .holdOff => { o with prsnt := true }
  | _ => o1

def execPresenceDebounced (cdhMv : Nat) (s : State) : Host.Outcome State Fault Refusal :=
  .next (if s.ohm.powered then s.withOhm (s.ohm.present cdhMv) else s)

/-- PRSNT_N rises (R459, R460): a ramp or a sequence ends, and WAIT_PRESENT goes on by the record, so that a cool-down whose attempt
ended is waited for again; in GOOD, ENTRY_LOSS goes to the main die. -/
def Ohm.absent (o : Ohm) : Ohm :=
  let o1 := { o with prsnt := false, debounced := false }
  match o.st with
  | .ramp | .seq => o1.off.actOn
  | .good => { o1 with leaving := true }
  | _ => o1

def execPrsntRise (s : State) : Host.Outcome State Fault Refusal :=
  .next (if s.ohm.powered then (s.withOhm s.ohm.absent).sendFrame else s)

/-- The orderly shutdown 1 ms after ENTRY_LOSS (R459). -/
def execOrderlyShutdown (s : State) : Host.Outcome State Fault Refusal :=
  .next (if s.ohm.leaving then s.withOhm { s.ohm.off with st := .waitPresent } else s)

/-- PRSNT_N high for 60 s: a latch-off ends (R452). -/
def execPresenceCycle (s : State) : Host.Outcome State Fault Refusal :=
  .next (if s.ohm.st = .latched ∧ !s.ohm.prsnt then s.withOhm s.ohm.unlatch else s)

/-! ## Ramp and sequencing -/

/-- Entry good (R442, R450, R454, R457): GOODS rises, RSTATE CLEAR, SEQ_EN0 rises. -/
def Ohm.entryGood (o : Ohm) (vout : Nat) : Ohm :=
  { o with st := .seq, entry := true, vout := vout, seqEn := 1,
           record := { o.record with rstate := .clear, goods := min (o.record.goods + 1) 0xffffffff } }

def execEntryGood (voutMv : Nat) (s : State) : Host.Outcome State Fault Refusal :=
  .next (if s.ohm.st = .ramp ∧ s.ohm.vbus ≤ voutMv + 500 then s.withOhm (s.ohm.entryGood voutMv) else s)

/-- The next SEQ_EN rises 1 ms after the last one's SEQ_PG (R457). -/
def execSeqEnable (s : State) : Host.Outcome State Fault Refusal :=
  .next (if s.ohm.st = .seq ∧ s.ohm.seqEn < 255 then
      s.withOhm { s.ohm with pg := s.ohm.seqEn, seqEn := 2 * s.ohm.seqEn + 1 }
    else s)

/-- SEQ_PG7 high for 2 ms (R458): entry good over the link, the main die released at start-up step 0. -/
def execMainDieRelease (s : State) : Host.Outcome State Fault Refusal :=
  .next (if s.ohm.st = .seq ∧ s.ohm.seqEn = 255 then
      { s with ohm := { s.ohm with st := .good, pg := 255, released := true },
               die := { s.die with time := 0, boot := { s.die.boot with started := true, step := 0, fresh := true } } }.sendFrame
    else s)

/-! ## Trips -/

/-- Of two causes in one reference cycle the record takes the first in the order of R447, which is that of their codes. -/
def Ohm.firstCause (o : Ohm) (cause : Nat) : Ohm :=
  { o with record := { o.record with cause := min o.record.cause cause } }

/-- A trip that the state, SEQ_EN and SEQ_PG allow (R460); one that those of a trip in the same cycle allowed joins that trip (R447). -/
def State.tripIn (s : State) (p : OhmSt → Nat → Nat → Bool) (cause : Nat) : State :=
  let o := s.ohm
  if p o.st o.seqEn o.pg then
    let s1 := s.withOhm (o.trip cause)
    { s1 with ohm := { s1.ohm with tripNow := some { cause := cause, st := o.st, seqEn := o.seqEn, pg := o.pg } } }
  else match o.tripNow with
    | some n => if p n.st n.seqEn n.pg then { s with ohm := o.firstCause cause } else s
    | none => s

def rampOn : OhmSt → Bool
  | .ramp | .seq | .good => true
  | _ => false
def seqOn : OhmSt → Bool
  | .seq | .good => true
  | _ => false

def execFastTrip (s : State) : Host.Outcome State Fault Refusal := .next (s.tripIn (fun st _ _ => rampOn st) 1)
def execSoaTrip (s : State) : Host.Outcome State Fault Refusal := .next (s.tripIn (fun st _ _ => rampOn st) 2)
def execRampTimeout (s : State) : Host.Outcome State Fault Refusal := .next (s.tripIn (fun st _ _ => decide (st = .ramp)) 3)
def execPgTimeout (s : State) : Host.Outcome State Fault Refusal :=
  .next (s.tripIn (fun st en pg => seqOn st && pg != en) 4)
def execPgLost (k : Nat) (s : State) : Host.Outcome State Fault Refusal :=
  .next (s.tripIn (fun st _ pg => seqOn st && pg.testBit k) 5)

/-- CDH measured: at V_END the next attempt starts, presence debounced (R450, R460). -/
def execCooldownEnd (cdhMv : Nat) (s : State) : Host.Outcome State Fault Refusal :=
  .next (if s.ohm.st = .cooldown then
      let o := { s.ohm with cdh := cdhMv }
      s.withOhm (if cdhMv ≤ vEnd o.straps.cool ∧ o.mayRamp then o.ramp else o)
    else s)

/-- 60 s of GOOD (R451). -/
def execGoodRunClear (s : State) : Host.Outcome State Fault Refusal :=
  .next (if s.ohm.st = .good ∧ !s.ohm.leaving then
      { s with ohm := { s.ohm with record := { s.ohm.record with retries := 0 } } }.ohmEvent 5
    else s)

/-! ## Damaged pass FET (R456) -/

/-- VOUT above 1.0 V with GATE off: FET_SHORT. -/
def execFetShortDetect (voutMv : Nat) (s : State) : Host.Outcome State Fault Refusal :=
  .next (if s.ohm.powered ∧ !s.ohm.gate ∧ 1000 < voutMv then
      s.withOhm { s.ohm with st := .fetShort, fltN := true, killN := true, seqEn := 0, vout := voutMv,
                             record := { s.ohm.record with rstate := .fetShort, cause := 6 } }
    else s)

/-- The 20 ms check of a power-up with RSTATE FET_SHORT. -/
def execFetShortRecheck (voutMv : Nat) (s : State) : Host.Outcome State Fault Refusal :=
  .next (if s.ohm.st = .fetShort ∧ !s.ohm.killN then
      if voutMv ≤ 1000 then s.withOhm { s.ohm with st := .waitPresent, fltN := false, record := s.ohm.record.clear }
      else s.withOhm { s.ohm with killN := true, vout := voutMv }
    else s)

/-! ## Feeds (R448) -/

def execOringReverse (feedB : Bool) (s : State) : Host.Outcome State Fault Refusal :=
  .next (if s.ohm.powered then
      { s with ohm := if feedB then { s.ohm with feedBOn := false } else { s.ohm with feedAOn := false } }.ohmEvent
        (if feedB then 2 else 1)
    else s)

def execOringTurnOn (feedB : Bool) (s : State) : Host.Outcome State Fault Refusal :=
  .next (if s.ohm.powered then
      { s with ohm := if feedB then { s.ohm with feedBOn := true, feedBOk := true }
                      else { s.ohm with feedAOn := true, feedAOk := true } }.sendFrame
    else s)

def execFeedLost (feedB : Bool) (s : State) : Host.Outcome State Fault Refusal :=
  .next (if s.ohm.powered then
      { s with ohm := if feedB then { s.ohm with feedBOk := false } else { s.ohm with feedAOk := false } }.ohmEvent
        (if feedB then 4 else 3)
    else s)

/-! ## Frames and the standby target -/

def execStatusFrameSend (s : State) : Host.Outcome State Fault Refusal := .next (if s.ohm.powered then s.sendFrame else s)

/-- A reply of the standby target. -/
def standbyReply (opcode seq status : Nat) (payload : List PayVal) : Reply :=
  { via := .mctp 0x1d false, seq := seq, opcode := opcode, interim := false, replayed := false, status := status,
    detail := 0, payload := payload }

/-- A reply of the standby target (R463), with the repeat rule of R390. -/
def State.standby (s : State) (opcode seq status : Nat) (payload : List PayVal) (o : Ohm) : State :=
  let r := standbyReply opcode seq status payload
  let kept := match s.ohm.last with
    | some l => if l.seq = seq ∧ l.opcode = opcode then l.reply else none
    | none => none
  match kept with
  | some k => { s with die := s.die.emit (.reply { k with replayed := true }) }
  | none =>
    { s with ohm := { o with last := some { seq := seq, opcode := opcode, reply := some r } }, die := s.die.emit (.reply r) }

/-- OHM_CLEAR on the standby target (R452, R463). -/
def execStandbyOhmClear (seq : Nat) (s : State) : Host.Outcome State Fault Refusal :=
  .next (if !s.ohm.powered then s
    else if s.ohm.st = .latched then s.standby 0x0804 seq 0 [] s.ohm.unlatch
    else s.standby 0x0804 seq 0x0800 [] s.ohm)

/-- OHM_QUERY on the standby target (R463). -/
def execStandbyOhmQuery (seq : Nat) (s : State) : Host.Outcome State Fault Refusal :=
  .next (if !s.ohm.powered then s else s.standby 0x0803 seq 0 (s.ohm.frame.query (Config.iout s.die.draws)) s.ohm)

end Sys2Proof.Machine
end

