-- ==== Sys2Proof/Machine/Startup.lean ====
section
/-! DEFINITION. Machine/Startup.lean: start-up steps, their failures and policies (R547–R554), the interleave sets (R18, R19),
region registers at start-up (R418), restart (R400, R563), the keep store and its commands (R557–R561), firmware images
(R555, R556). -/

namespace Sys2Proof.Machine

/-! ## Keep registers -/

/-- Write a keep register by a device-owned path: a worn register records KEEP_WORN (R558). -/
def Die.keepWrite (d : Die) (k : Nat) (v : Reg) : Die :=
  if !d.kps.bad.contains k ∧ wearMax ≤ Tbl.get 0 d.kps.wear k then
    (d.keepMake k v).record unitKps 0x63 0 0xff 0xffff 0 k
  else d.keepMake k v

/-- Change a field of a keep register; the same value is not written again. -/
def Die.keepFld (d : Die) (k hi lo v : Nat) : Die :=
  if fld (d.keep k) hi lo = v then d else d.keepWrite k (setFld (d.keep k) hi lo v)

/-- KEEP_SEC_BASE (R439). -/
def Die.keepSecBase (d : Die) : Nat := fld (d.regR R.mulWorld) 17 8

/-! ## Interleave sets (R18, R19) -/

/-- The largest of 16, 8, 4, 2 or 1 channels that `n` channels can fill. -/
def setSize (n : Nat) : Nat := if 16 ≤ n then 16 else if 8 ≤ n then 8 else if 4 ≤ n then 4 else if 2 ≤ n then 2 else 1

/-- Cut a population's channels, ascending, into sets. The first argument bounds the cuts. -/
def cutSets : Nat → List Nat → List (List Nat)
  | 0, _ => []
  | _, [] => []
  | n + 1, cs => cs.take (setSize cs.length) :: cutSets n (cs.drop (setSize cs.length))

/-- A channel's DIMM population. -/
def Chan.population (c : Chan) : Nat × Nat × Bool × Nat := (c.dimms, c.gib, c.fast, c.spareGib)

/-- Bays (GiB) a channel offers: a spare rank is held out of the DGA space (R19, R511). -/
def Chan.bays (c : Chan) : Nat := c.dimms * c.gib - c.spareGib

/-- Every set: its channels and its capacity in bays, in DGA order (R19). -/
def Die.buildSets (d : Die) : List (List Nat × Nat) :=
  let cs := (List.range 16).filter fun c => (d.chan c).trained && !(d.chan c).excluded
  let pops := (cs.map fun c => (d.chan c).population).eraseDups
  let sets := pops.flatMap fun p => (cutSets 16 (cs.filter fun c => decide ((d.chan c).population = p))).map fun l =>
    (l, l.length * (d.chan (l.headD 0)).bays)
  sets.mergeSort fun a b => decide (b.2 < a.2) || (decide (a.2 = b.2) && decide (a.1.headD 0 ≤ b.1.headD 0))

/-- Write one region register pair (R418). -/
def Die.region (d : Die) (ctl n base lim mask : Nat) (secure : Bool) : Die :=
  let i := 64 * ctl + n
  d.regWs [(R.mulBase i, BitVec.ofNat 32 base), (R.mulLim i, BitVec.ofNat 32 lim), (R.mulMask i, BitVec.ofNat 32 mask),
           (R.mulCtl i, BitVec.ofNat 32 (2 ^ 31 + b2n secure * 2 ^ 30))]

/-- HBC's regions (R418). -/
def Die.hbcRegions (d : Die) : Die :=
  ((((d.region 16 0 0x0 0x81fff 0x04000400 true).region 16 1 0x82000 0xfffff 0x04000400 true).region 16 2 0x100000 0x4fffff
    0x40004100 false).region 16 3 0x500000 0x53ffff 0x40004000 false).region 16 4 0x540000 0x5fffff 0x40004000 false

/-- Load ITR_SETn and the channels' regions for the built sets (R205, R418). -/
def Die.loadSets (d : Die) : Die :=
  let sets := d.buildSets
  let r := (sets.zip (List.range 16)).foldl (fun (a : Die × Nat) x =>
    let n := x.2; let total := x.1.2; let data := 63 * total / 64; let base := a.2
    let lo := BitVec.ofNat 32 (data * 2 ^ 13 + base); let hi := BitVec.ofNat 32 (2 ^ 31 + total)
    let d1 := a.1.regWs [(R.itrSetLo n, lo), (R.itrSetHi n, hi), (R.itrSetLo n + 0x8000, lo), (R.itrSetHi n + 0x8000, hi)]
    let d2 := x.1.1.foldl (fun d c =>
      (d.region c 0 (base * 2 ^ 18) ((base + data) * 2 ^ 18 - 1) 0x3f3f3f3f false).region c 1 ((base + data) * 2 ^ 18)
        ((base + total) * 2 ^ 18 - 1) 0x04000400 true) d1
    ({ d2 with setChans := d2.setChans.insert n x.1.1 }, base + total)) (d, 0)
  let placed := sets.flatMap Prod.fst
  { r.1 with boot := { r.1.boot with gib := r.2, trainedMask := placed.foldl (fun m c => m ||| 2 ^ c) 0 } }

/-! ## The start record (R549, R551) -/

/-- Write START_REC at entry to step `n`, once (R558); the image in use is known from step 5 on (R552). -/
def Die.enterRecord (d : Die) (n : Nat) : Die :=
  let old := d.keep 0
  if n < 3 then d
  else if n = 3 then
    let first := decide (d.keep 1 = 0)
    let cut := !bit old 26 && !bit old 27 && !first && d.boot.fresh
    let r0 := setFld (setFld (setFld old 31 28 3) 27 27 0) 26 26 0
    let r1 := if cut then setFld (setFld (setFld r0 23 20 (fld old 31 28)) 15 12 1) 11 4 0xff else r0
    let r2 := if d.boot.fresh then setFld r1 19 16 0 else r1
    let d1 := { d with boot := { d.boot with prev := old } }
    (d1.keepWrite 0 r2).keepWrite 1 (BitVec.ofNat 32 (min ((d.keep 1).toNat + 1) 0xffffffff))
  else
    let r := setFld old 31 28 n
    d.keepWrite 0 (if n = 5 then setFld (setFld r 25 25 d.boot.image) 24 24 (b2n d.boot.alt) else r)

/-- The main die begins again at step 1 (R549, R563): only the keep registers, the flash and the pins' levels stay. -/
def Die.restart (d : Die) (fresh : Bool) : Die :=
  { Die.init with
    time := d.time, draws := d.draws, out := d.out,
    kps := { Kps.init with cells := d.kps.cells, wear := d.kps.wear },
    boot := { Boot.init with flash := d.boot.flash, started := true, step := 1, fresh := fresh },
    ports := d.ports.filterMap (fun (e : Nat × Port) =>
      if e.2.perst then none else some (e.1, { Port.init with perst := false })),
    ohmSeen := d.ohmSeen }

/-- The recovery hold (R550). -/
def Die.enterHold (d : Die) : Die := { d with boot := { d.boot with hold := true } }.emit (.alert 0 true)

/-- Raise a channel's failure policy (R553). -/
def Die.chFail (d : Die) (c : Nat) : Die :=
  let v := d.keep (16 + c)
  let f := min (fld v 1 0 + 1) 3
  let v1 := setFld (setFld v 1 0 f) 4 4 1
  d.keepWrite (16 + c) (if 2 ≤ f then setFld v1 5 5 1 else v1)

/-- A start-up step fails (R549, R551): the record, the step's policy, and a restart or the recovery hold. `code`: 2
WATCHDOG, 3 CHECK, 4 FATAL; `units`: the failing SRAM unit or channels; `secure`: secure SRAM failed. -/
def Die.stepFail (d : Die) (step code unit : Nat) (units : List Nat) (secure : Bool) : Die :=
  if step < 3 then d.enterHold
  else
    let old := d.keep 0
    let count := min (fld old 19 16 + 1) 15
    let r := setFld (setFld (setFld (setFld (setFld old 26 26 1) 23 20 step) 19 16 count) 15 12 code) 11 4 (unit % 256)
    let d1 := d.keepWrite 0 r
    let d2 :=
      if step = 5 ∧ !secure then (d1.keepFld 3 10 10 1).keepFld 3 9 6 (units.headD 0 % 16)
      else if step = 6 ∨ step = 7 then d1.keepFld 3 3 3 1
      else if step = 8 ∨ step = 9 then units.foldl Die.chFail d1
      else if step = 10 then d1.keepFld 3 2 2 1
      else d1
    if 4 ≤ count ∨ step = 3 ∨ step = 11 ∨ (step = 5 ∧ secure) then d2.enterHold else d2.restart false

/-! ## What a step does -/

/-- Step 2 (R507, R557): bad registers, then TRIPS compared. -/
def Die.step2 (d : Die) (bad : List Nat) (trips cause : Nat) : Die :=
  let d1 := { d with kps := { d.kps with ready := true, bad := bad } }
  let d2 := bad.foldl (fun d k => (d.event R.kpsEvent 2).record unitKps 0x64 1 0xff 0xffff 0 k) d1
  let kept := (d2.keep 2).toNat
  if kept < trips then
    (d2.record unitOhm 0x62 0 0xff 0xffff 0 (cause % 256 + (trips - kept) % 65536 * 256)).keepWrite 2 (BitVec.ofNat 32 trips)
  else d2

/-- Step 3: worlds, debug policy and the deadbolt from the keep store (R559). -/
def Die.step3 (d : Die) : Die :=
  let w := d.keep 994
  let d1 := if w = 0 then d else d.regW R.mulWorld w
  let d2 := d1.regW R.mulDbgPolicy (BitVec.ofNat 32 (3 - (d.keep 995).toNat % 4))
  let o := d.keep 996
  { d2 with dbl := { d2.dbl with owned := bit o 31, port := fld o 30 28, eid := fld o 7 0, changes := (d.keep 997).toNat } }

/-- The image tried first at step 4 (R552). -/
def Die.firstImage (d : Die) : Nat :=
  let pref := fld (d.keep 3) 0 0
  let p := d.boot.prev
  if bit p 26 ∧ (fld p 23 20 = 4 ∨ fld p 23 20 = 15) ∧ fld p 25 25 = pref then 1 - pref else pref

/-- Flash offset of an image (R555). -/
def imageBase (i : Nat) : Nat := if i = 0 then 0 else 0x800000

/-- A flash byte: as written, else what the factory left. -/
def Die.flashByte (d : Die) (o : Nat) : Nat := (d.boot.flash.find? o).getD (Config.factoryFlash o % 256)

/-- VERSION of an image's header. -/
def Die.imageVersion (d : Die) (i : Nat) : Nat := ofLe ((List.range 4).map fun k => d.flashByte (imageBase i + 4 + k))

/-- An image in flash verifies (R555): magic, lengths, hash; the signature's verdict is a free function of the header. -/
def Die.imageVerifies (d : Die) (i : Nat) : Bool :=
  let byte (o : Nat) : Nat := d.flashByte (imageBase i + o)
  let word (o : Nat) : Nat := ofLe ((List.range 4).map fun k => byte (o + k))
  let len := word 8
  decide ((List.range 4).map byte = [0x4c, 0x51, 0x46, 0x57]) && decide (len + 512 ≤ 0x300000) &&
  decide (word 12 ≤ fld (d.regR R.mulWorld) 3 0 * 262144) &&
  decide (sha384 ((List.range len).map fun k => byte (512 + k)) = (List.range 48).map fun k => byte (16 + k)) &&
  Config.pubkeyValid && Config.signatureVerifies ((List.range 160).map byte)

/-- Step 4: the image used and ALT_IMAGE, or none where neither verifies (R552). -/
def Die.step4 (d : Die) : Option (Nat × Bool) :=
  let f := d.firstImage
  if d.imageVerifies f then some (f, false) else if d.imageVerifies (1 - f) then some (1 - f, true) else none

/-- Step 5: the image's body enters management SRAM, its secure part first. -/
def Die.step5 (d : Die) : Die :=
  let b := imageBase d.boot.image + 512
  let body := d.boot.flash.filterMap fun (e : Nat × Nat) => if b ≤ e.1 ∧ e.1 < b + 0x2ffe00 then some (e.1 - b, e.2) else none
  { d with boot := { d.boot with sram := body } }

/-- Step 8: what training finds on a channel. -/
def Die.train (d : Die) (c : Nat) (f : ChanFound) : Die :=
  let excl := bit (d.keep (16 + c)) 5
  let x : Chan :=
    { Chan.init c with trained := f.trains && !excl && decide (f.dimms ≠ 0), excluded := excl || decide (f.dimms = 0),
                       dimms := f.dimms, gib := f.gib, fast := f.fast, cons := bit (d.keep (16 + c)) 4,
                       spare := b2n (decide (f.spareGib ≠ 0)), spareGib := f.spareGib }
  let d1 := d.setChan c x
  let serial (d : Die) (s v : Nat) : Die :=
    if (d.keep (32 + 2 * c + s)).toNat = v then d else d.keepWrite (32 + 2 * c + s) (BitVec.ofNat 32 v)
  let stale (s v : Nat) : Bool := decide (s < f.dimms) && decide ((d.keep (32 + 2 * c + s)).toNat ≠ v)
  -- repairs of a DIMM that was changed are discarded (R561 step 1)
  let d2 := (range' 64 64).foldl (fun d k =>
    let e := d.keep k
    if bit e 31 ∧ fld e 30 27 = c ∧ ((fld e 26 26 = 0 ∧ stale 0 f.serial0) ∨ (fld e 26 26 = 1 ∧ stale 1 f.serial1)) then
      d.keepWrite k 0
    else d) d1
  let d3 := if 1 ≤ f.dimms then serial d2 0 f.serial0 else d2
  if 2 ≤ f.dimms then serial d3 1 f.serial1 else d3

/-- Step 8's hard repairs (R561): every entry is cleared; a row without a repair is retired. -/
def Die.hardRepairs (d : Die) (noSpare : List Nat) : Die :=
  (range' 64 64).foldl (fun d k =>
    let e := d.keep k
    if !bit e 31 then d
    else
      let c := fld e 30 27
      let d1 := if noSpare.contains k then
          d.setChan c { (d.chan c) with retired := (d.chan c).retired ++ [(fld e 26 26, fld e 25 0)] }
        else d
      d1.keepWrite k 0) d

/-- Channels that fail a check of step 8 or 9. -/
def Die.badChans (d : Die) (found : List ChanFound) (p : ChanFound → Bool) : List Nat :=
  (List.range 16).filter fun c => !bit (d.keep (16 + c)) 5 && match found.getD c { dimms := 0, gib := 0, fast := true, spareGib := 0, trains := true, margin := true, serial0 := 0, serial1 := 0 } with
    | f => decide (f.dimms ≠ 0) && !p f

/-- Step 9 passed: FAILS cleared, sets built, regions programmed. -/
def Die.step9 (d : Die) : Die :=
  let d1 := (List.range 16).foldl (fun d c =>
    if (d.chan c).trained then (d.keepFld (16 + c) 1 0 0).setChan c { (d.chan c) with excluded := false, atStart := false }
    else d) d
  d1.loadSets

/-- Step 11 (R209): TK drawn, the tree as never written; every granule reads zeros. -/
def Die.step11 (d : Die) : Die :=
  let r := d.draw
  { r.2 with itr := { Itr.init with ready := true, tk := some (r.1 % 2 ^ 256) }, dram := [] }

/-- Entry to step 13 (R42): ports out of PERST# begin to train. -/
def Die.trainPorts (d : Die) : Die :=
  (List.range 6).foldl (fun d p =>
    let x := d.port p
    let en := bit (d.act (R.hptPortCfg p)) 0
    d.setPort p { x with training := !x.perst && en && !x.linkUp, cfg := d.act (R.hptPortCfg p),
                         forceX8 := bit (d.keep 4) (4 * p + 2) }) d

/-- A port fails step 13 (R548, R554): enabled and out of PERST#, it failed to train, or trained below its configured width. -/
def Die.portFailed (d : Die) (p : Nat) : Bool :=
  let x := d.port p
  bit x.cfg 0 && !x.perst && !x.training && (!x.linkUp || (x.x8 && !bit x.cfg 12 && !x.forceX8))

/-- End of step 13 (R554). -/
def Die.portPolicy (d : Die) : Die :=
  ((List.range 6).filter d.portFailed).foldl (fun d p =>
    let v := d.keep 4
    d.keepWrite 4 (setFld (setFld v (4 * p + 1) (4 * p) (min (fld v (4 * p + 1) (4 * p) + 1) 3)) (4 * p + 2) (4 * p + 2) 1)) d

/-- End of step 14: Memory_Active on every trained port (R42). -/
def Die.memActive (d : Die) : Die :=
  (List.range 6).foldl (fun d p => if (d.port p).linkUp then d.setPort p { (d.port p) with memActive := true } else d) d

/-- End of step 15 (R549, R552): DONE, FAIL_COUNT 0, PREF_IMAGE names the image in use. -/
def Die.step15 (d : Die) : Die :=
  let d1 := d.keepWrite 0 (setFld (setFld (d.keep 0) 27 27 1) 19 16 0)
  let d2 := d1.keepFld 3 0 0 d1.boot.image
  { d2 with boot := { d2.boot with done := true } }

/-- Enter step `n`. -/
def Die.enterStep (d : Die) (n : Nat) : Die :=
  let d1 := { d with boot := { d.boot with step := n } }.enterRecord n
  if n = 13 then d1.trainPorts else d1

/-- End the running step with what it reports (R547–R554). `trips`, `cause`: from Ohmoux's entry record (R507). -/
def Die.endStep (d : Die) (i : StepInfo) (trips cause : Nat) : Die :=
  let n := d.boot.step
  let bad8 := d.badChans i.found (·.trains)
  let bad9 := d.badChans i.found (fun f => f.margin && f.trains)
  match d.boot.fatal with
  | some u => { d with boot := { d.boot with fatal := none } }.stepFail n 4 u [] false
  | none =>
    if n = 5 ∧ !i.ok ∧ i.bits = [] ∧ !i.secure then d.stepFail 4 3 0xff [] false
    else if n = 8 ∧ bad8 ≠ [] then d.stepFail 8 3 (unitMch (bad8.headD 0)) bad8 false
    else if n = 9 ∧ bad9 ≠ [] then d.stepFail 9 3 (unitMch (bad9.headD 0)) bad9 false
    else if !i.ok then d.stepFail n 3 i.unit i.bits i.secure
    else match n with
      | 2 => (d.step2 i.bits trips cause).enterStep 3
      | 3 => d.step3.enterStep 4
      | 4 =>
        match d.step4 with
        | none => d.stepFail 4 3 0xff [] false
        | some (im, alt) =>
          { d with boot := { d.boot with image := im, alt := alt } }.enterStep 5
      | 5 => d.step5.enterStep 6
      | 7 => { d with pmap := PMap.init, hbc := Hbc.init, home := { d.home with dir := [] } }.hbcRegions.enterStep 8
      | 8 => (((List.range 16).zip i.found).foldl (fun d x => d.train x.1 x.2) d |>.hardRepairs i.bits).enterStep 9
      | 9 => d.step9.enterStep 10
      | 10 =>
        let run := bit (d.keep 3) 1 && !bit (d.keep 3) 2
        let d1 := if run then i.bits.foldl (fun d b =>
            let c := b / 2 ^ 27 % 16
            d.setChan c { (d.chan c) with retired := (d.chan c).retired ++ [(b / 2 ^ 26 % 2, b % 2 ^ 26)] }) d else d
        d1.enterStep 11
      | 11 => d.step11.enterStep 12
      | 12 => { d with home := { d.home with dir := [], waysOut := i.bits } }.enterStep 13
      | 13 => d.portPolicy.enterStep 14
      | 14 => d.memActive.enterStep 15
      | 15 => d.step15
      | _ => d.enterStep (n + 1)

/-- Start-up runs (not ended, not held). -/
def Die.starting (d : Die) : Bool := d.boot.started && !d.boot.hold && !d.boot.done

def execStartupStepDone (info : StepInfo) (s : State) : Host.Outcome State Fault Refusal :=
  onLive s fun d => if d.starting then d.endStep info s.ohm.record.trips s.ohm.record.cause else d

/-- A step's watchdog resets the main die (R548). -/
def execStepWatchdog (s : State) : Host.Outcome State Fault Refusal :=
  onLive s fun d => if d.starting then d.stepFail d.boot.step 2 0xff [] false else d

/-! ## Keep store commands -/

/-- Reserved bits of the keep registers KEEP_WRITE may change are 0 (R388, R562). -/
def keepRsvOk (k : Nat) (v : Reg) : Bool :=
  if k = 3 then decide (fld v 31 11 = 0) && decide (fld v 5 4 = 0)
  else if k = 4 then decide (fld v 31 24 = 0) && (List.range 6).all fun p => !bit v (4 * p + 3)
  else if 16 ≤ k ∧ k < 32 then decide (fld v 31 6 = 0) && decide (fld v 3 2 = 0)
  else true

/-- Marked for KEEP_WRITE (R559). -/
def keepMarked (k : Nat) : Bool := decide (k = 3 ∨ k = 4 ∨ (16 ≤ k ∧ k < 32) ∨ 128 ≤ k)

def execKeepRead (h : Hdr) (first count : Nat) (s : State) : Host.Outcome State Fault Refusal :=
  onCmd s fun d => d.command h 0x0b04 [.f, .k] 4 fun d =>
    if 1023 < first then d.fail h 0x0b04 St.badParam 16
    else if 256 < count ∨ 1024 < first + count then d.fail h 0x0b04 St.badParam 18
    else if d.keepSecBase < first + count then d.fail h 0x0b04 St.keepSecure 0
    else d.ok h 0x0b04 ((range' first count).flatMap fun k => [(4, (d.keep k).toNat), (4, Tbl.get 0 d.kps.wear k)])

def execKeepWrite (h : Hdr) (k value : Nat) (s : State) : Host.Outcome State Fault Refusal :=
  onCmd s fun d => d.command h 0x0b05 [.f, .k] 6 fun d =>
    let v := BitVec.ofNat 32 value
    if 1023 < k then d.fail h 0x0b05 St.badParam 16
    else if d.keepSecBase ≤ k then (d.event R.kpsEvent 0).fail h 0x0b05 St.keepSecure 0
    else if !keepMarked k then (d.event R.kpsEvent 0).fail h 0x0b05 St.badParam 16
    else if !keepRsvOk k v ∨ (k = 3 ∧ bit v 0 ≠ bit (d.keep 3) 0) then (d.event R.kpsEvent 0).fail h 0x0b05 St.badParam 18
    else { d with kps := { d.kps with queue := d.kps.queue ++ [{ k := k, v := v, hdr := some h }] } }

/-- The keep write in progress ends (R557, R558). -/
def execKeepWriteDone (s : State) : Host.Outcome State Fault Refusal :=
  onLive s fun d =>
    match d.kps.queue with
    | [] => d
    | w :: rest =>
      let worn := !d.kps.bad.contains w.k && decide (wearMax ≤ Tbl.get 0 d.kps.wear w.k)
      let d1 := { d with kps := { d.kps with queue := rest } }.keepWrite w.k w.v
      match w.hdr with
      | some h => d1.answer h 0x0b05 (if worn then St.keepWorn else St.success) 0 []
      | none => d1

/-! ## Firmware images (R555, R556) -/

def execFwInfo (h : Hdr) (s : State) : Host.Outcome State Fault Refusal :=
  onCmd s fun d => d.command h 0x0b00 [.f, .k] 0 fun d =>
    d.ok h 0x0b00 [(4, d.imageVersion 0), (4, d.imageVersion 1), (1, d.boot.image), (4, (d.keep 0).toNat)]

/-- FW_WRITE: at most 4,088 B, inside the image's 3 MiB; the image in use is refused (R400). -/
def execFwWrite (h : Hdr) (image offset : Nat) (data : List Byte) (s : State) : Host.Outcome State Fault Refusal :=
  onCmd s fun d => d.command h 0x0b01 [.k] (5 + data.length) fun d =>
    if 1 < image then d.fail h 0x0b01 St.badParam 16
    else if 0x300000 < offset + data.length then d.fail h 0x0b01 St.badParam 17
    else if image = d.boot.image then d.fail h 0x0b01 St.imageActive 0
    else
      let b := imageBase image + offset
      let fl := ((List.range data.length).zip data).foldl (fun (f : Tbl Nat) x => f.insert (b + x.1) x.2.toNat) d.boot.flash
      { d with boot := { d.boot with flash := fl, verified := d.boot.verified.filter (· ≠ image) } }.ok h 0x0b01 []

/-- FW_VERIFY: the check of step 4. It ends at once here. -/
def execFwVerify (h : Hdr) (image : Nat) (s : State) : Host.Outcome State Fault Refusal :=
  onCmd s fun d => d.longCommand h 0x0b02 [.k] 1 fun d =>
    if 1 < image then d.fail h 0x0b02 St.badParam 16
    else
      let d1 := d.interim h 0x0b02
      if d.imageVerifies image then
        { d1 with boot := { d1.boot with verified := (image :: d1.boot.verified).eraseDups } }.ok h 0x0b02 [(4, d.imageVersion image)]
      else d1.fail h 0x0b02 St.imageBad 0

def execFwSelect (h : Hdr) (image : Nat) (s : State) : Host.Outcome State Fault Refusal :=
  onCmd s fun d => d.command h 0x0b03 [.k] 1 fun d =>
    if 1 < image then d.fail h 0x0b03 St.badParam 16
    else if !d.boot.verified.contains image then d.fail h 0x0b03 St.imageBad 0
    else (d.keepFld 3 0 0 image).ok h 0x0b03 []

/-- DEVICE_RESTART: the reply, then start-up step 1 (R400, R563). -/
def execDeviceRestart (h : Hdr) (s : State) : Host.Outcome State Fault Refusal :=
  onCmd s fun d => d.command h 0x0b06 [.k] 0 fun d => (d.ok h 0x0b06 []).restart false

end Sys2Proof.Machine
end

