-- ==== Sys2Proof/Machine/KeyCmds.lean ====
section
/-! DEFINITION. Machine/KeyCmds.lean: the key commands (R256, R264, R266, R274) and the key table's registers (R276). -/

namespace Sys2Proof.Machine

/-! ## KEY_ALLOW (R256) -/

/-- Two tenancies are members of one domain. -/
def Die.sameDomain (d : Die) (t u : Nat) : Bool := (d.domOfTen t).isSome && decide (d.domOfTen t = d.domOfTen u)

/-- Index `k` stands in the allowed list of a tenancy outside `t`'s domain. -/
def Die.keyElsewhere (d : Die) (t k : Nat) : Bool :=
  d.keys.allowed.any fun (x : Nat × List Nat) => decide (x.1 ≠ t) && x.2.contains k && !d.sameDomain t x.1

def execKeyAllow (h : Hdr) (ten : Nat) (list : List Nat) (s : State) : Host.Outcome State Fault Refusal :=
  onCmd s fun d => d.command h 0x0500 [.f] (4 + 2 * list.length) fun d => d.withTen h 0x0500 ten
    (if 16 < list.length then d.fail h 0x0500 St.tooMany 0
     else match (List.range list.length).find? fun i => decide (4095 < list.getD i 0) with
       | some i => d.fail h 0x0500 St.badParam (20 + 2 * i)
       | none =>
         match list.find? (d.keyElsewhere ten) with
         | some k => d.fail h 0x0500 St.keyInUse k
         | none => ({ d with keys := { d.keys with allowed := d.keys.allowed.set [] ten list } }).ok h 0x0500 [])

/-! ## KEY_RETIRE (R264, R266, R274) -/

/-- Subjects and targets of running retirements. -/
def Die.retiring (d : Die) : List Nat :=
  d.keys.rets.flatMap fun (r : Retire) => r.a :: if r.erase then r.list.map Prod.snd else [r.t]

/-- The first field of an erase list that breaks R264. -/
def Die.eraseListBad (d : Die) (a : Nat) (list : List (Nat × Nat)) : Option Nat :=
  let ent (i : Nat) : Nat := (list.getD i (0, 0)).1
  let new (i : Nat) : Nat := (list.getD i (0, 0)).2
  let isDef (e : Nat) : Bool := d.usedEntries.contains e && decide ((d.bt e).defKey = a)
  let bad (i : Nat) : Option Nat :=
    if !isDef (ent i) || (List.range i).any fun j => decide ((d.bt (ent j)).dlaBay = (d.bt (ent i)).dlaBay) then some (24 + 4 * i)
    else if new i = a ∨ 4095 < new i then some (26 + 4 * i)
    else none
  let missing := d.usedEntries.any fun e => isDef e && !list.any fun (x : Nat × Nat) => decide ((d.bt x.1).dlaBay = (d.bt e).dlaBay)
  if missing then some 22 else (List.range list.length).findSome? bad

/-- The new index of a bay: t, or its d; none where an erased bay keeps its default. -/
def Die.newIndex (d : Die) (erase : Bool) (t : Nat) (list : List (Nat × Nat)) (bay : Nat) : Option Nat :=
  if erase then (list.find? fun (x : Nat × Nat) => decide ((d.bt x.1).dlaBay = bay)).map Prod.snd else some t

/-- A counter-lost page of a bay that clearing could not reset (R274). -/
def Die.listMixed (d : Die) (a : Nat) (erase : Bool) (t : Nat) (list : List (Nat × Nat)) : Bool :=
  (d.listedBays a).any fun b =>
    let ks := (d.bay b).keyList
    let reset := decide (ks = [a]) && (match d.newIndex erase t list b with
      | some n => !ks.contains n
      | none => true)
    let lost := d.itr.lost.any fun (l : Lost) => decide (nodeIdx l.level (b * 2 ^ 30) ≤ nodeIdx l.level (l.page * 4096)) &&
      decide (nodeIdx l.level (l.page * 4096) ≤ nodeIdx l.level (b * 2 ^ 30 + 2 ^ 30 - 4096))
    !mappedBay b && lost && !reset

/-- Why a retire command is refused. -/
def Die.retireRefused (d : Die) (a : Nat) (erase : Bool) (t : Nat) (list : List (Nat × Nat)) : Option (Nat × Nat) :=
  let used := a :: if erase then list.map Prod.snd else [t]
  let clash (b : Nat) : Bool := (d.bay b).keyList.any fun k => decide (k ≠ t) && decide (kicOf k = kicOf t)
  match (if erase then d.eraseListBad a list else if list = [] then none else some 22) with
  | some o => some (St.badParam, o)
  | none =>
    if 8 ≤ d.keys.rets.length then some (St.keyBusy, a)
    else match used.find? d.retiring.contains with
      | some k => some (St.keyBusy, k)
      | none =>
        match used.find? fun k => !d.live? k with
        | some k => some (St.keyNotLive, k)
        | none =>
          if !erase && (decide (kicOf t = kicOf a) || (d.listedBays a).any clash) then some (St.keyKicClash, t)
          else if d.listMixed a erase t list then some (St.keyListMixed, a)
          else none

/-- Accept a retirement: its slot stops at the next boundary (R262). -/
def Die.addRetire (d : Die) (a : Nat) (erase phys : Bool) (t : Nat) (list : List (Nat × Nat)) (cxl : Option (Nat × Nat × Nat)) : Die :=
  let r : Retire :=
    { a := a, erase := erase, phys := phys && erase, t := t, list := list, phase := .live, acc := d.keys.nextAcc, bays := [], parts := [],
      setsLeft := 0, hdr := none, cxl := cxl }
  { d with keys := { d.keys with rets := d.keys.rets ++ [r], nextAcc := d.keys.nextAcc + 1 } }

def execKeyRetire (h : Hdr) (a mode phys target : Nat) (list : List (Nat × Nat)) (s : State) : Host.Outcome State Fault Refusal :=
  onCmd s fun d => d.command h 0x0501 [.f] (8 + 4 * list.length) fun d =>
    if 4095 < a then d.fail h 0x0501 St.badParam 16
    else if 1 < mode then d.fail h 0x0501 St.badParam 18
    else if 1 < phys then d.fail h 0x0501 St.badParam 19
    else if mode = 0 ∧ 4095 < target then d.fail h 0x0501 St.badParam 20
    else match d.retireRefused a (decide (mode = 1)) target list with
      | some (st, x) => d.fail h 0x0501 st x
      | none => (d.addRetire a (decide (mode = 1)) (decide (phys = 1)) target list none).ok h 0x0501 [(8, d.transom + 1)]

/-! ## KEY_QUERY and the key table's registers (R276) -/

def KeySt.code : KeySt → Nat
  | .free => 0 | .live => 1 | .stopped => 2 | .flushing => 3 | .clearing => 4 | .sealed => 5

def Die.slotLo (d : Die) (k : Nat) : Reg := BitVec.ofNat 32 (d.slot k).seq
def Die.slotHi (d : Die) (k : Nat) : Reg :=
  let s := d.slot k
  if s.st = .free then 0 else BitVec.ofNat 32 (s.st.code * 2 ^ 29 + kicOf k * 2 ^ 8)

/-- KHT_RETr_A of a retirement; STOPPED is its first phase. -/
def Die.retA (d : Die) (r : Retire) : Reg :=
  let target := if r.erase then (r.list.headD (0, 0)).2 else r.t
  BitVec.ofNat 32 (2 ^ 31 + (d.slot r.a).st.code * 2 ^ 28 + b2n r.erase * 2 ^ 27 + b2n r.phys * 2 ^ 26 + target % 4096 * 2 ^ 12 + r.a % 4096)
def Retire.b (r : Retire) : Reg := BitVec.ofNat 32 (r.bays.filter fun (x : RetBay) => !x.done || x.physLeft).length

def Die.khtStat (d : Die) : Reg :=
  let live := (d.keys.slots.filter fun (x : Nat × Slot) => decide (x.2.st = .live)).length
  BitVec.ofNat 32 (b2n d.keys.sealed * 2 ^ 31 + d.keys.rets.length * 2 ^ 13 + live)

def execKeyQuery (h : Hdr) (k : Nat) (s : State) : Host.Outcome State Fault Refusal :=
  onCmd s fun d => d.command h 0x0502 [.f, .k, .s] 2 fun d =>
    if 4095 < k then d.fail h 0x0502 St.badParam 16
    else
      let r := match d.retire? k with
        | some r => [(4, (d.retA r).toNat), (4, r.b.toNat)]
        | none => [(4, 0), (4, 0)]
      d.ok h 0x0502 ([(4, (d.slotLo k).toNat), (4, (d.slotHi k).toNat)] ++ r)

end Sys2Proof.Machine
end

