-- ==== Sys2Proof/Machine/Domains.lean ====
section
/-! DEFINITION. Machine/Domains.lean: coherence domains as a whole (R141–R148, R188–R192): the 0x06xx commands, directory sweeps,
and what their commits do. -/

namespace Sys2Proof.Machine

/-! ## The domain table -/

/-- CHA0_DOM_STATd (R194). -/
def Die.domStatWord (d : Die) (n : Nat) : Reg :=
  let x := d.domStat n
  BitVec.ofNat 32 (x.1 * 2 ^ 30 + x.2.1 * 2 ^ 27 + x.2.2 * 2 ^ 24)

/-- A command that needs an UP domain (R401): what it fails with otherwise. -/
def Die.needUp (d : Die) (n : Nat) : Option (Nat × Nat) :=
  if 63 < n then some (St.badParam, 16)
  else match (d.domStat n).1 with
    | 0 => some (St.notFound, 16)
    | 1 => none
    | 2 => some (St.domainDown, n)
    | _ => some (St.domainState, n)

/-- The port has what R143 asks of every member's port. -/
def Die.domPortReady (d : Die) (p : Nat) : Bool := (d.port p).memServes && decide (2 ≤ (d.port p).flit)

/-- The first member of a list that cannot be one: `off` is the byte offset of the first (R141, R143). -/
def Die.membersBad (d : Die) (n off : Nat) (ts : List Nat) : Option (Nat × Nat) :=
  let bad (i : Nat) : Option (Nat × Nat) :=
    let t := ts.getD i 0
    if 1023 < t ∨ (d.ten t).st = .free then some (St.notFound, off + 2 * i)
    else if (ts.take i).any fun u => decide (d.tenPort u = d.tenPort t) then some (St.badParam, off + 2 * i)
    else if (d.ten t).st ≠ .active then some (St.tenBusy, t)
    else none
  match (List.range ts.length).findSome? bad with
  | some x => some x
  | none =>
    if ts.length < 2 then some (St.domainMinMembers, n)
    else match ts.find? fun t => !d.domPortReady (d.tenPort t) with
      | some t => some (St.portNotReady, d.tenPort t)
      | none => none

/-- The mode a domain of these members takes (R143). -/
def Die.domMode (d : Die) (ts : List Nat) : Bool := ts.all fun t => (d.port (d.tenPort t)).fcxActive
def Die.withPorts (d : Die) (ts : List Nat) : List (Nat × Nat) := ts.map fun t => (d.tenPort t, t)

/-! ## DOM_CREATE, DOM_QUERY -/

/-- Domains that exist or are being created. -/
def Die.domTaken (d : Die) (n : Nat) : Bool :=
  decide ((d.domStat n).1 ≠ 0) || d.mgt.commits.any fun (c : CommitReq) => c.writes.any fun (w : Nat × Reg) => decide (w.1 = R.cha0DomCfg n)

def execDomCreate (h : Hdr) (dom snpTo : Nat) (members : List Nat) (s : State) : Host.Outcome State Fault Refusal :=
  onCmd s fun d => d.command h 0x0600 [.f] (5 + 2 * members.length) fun d =>
    if 63 < dom ∧ dom ≠ 0xff then d.fail h 0x0600 St.badParam 16
    else if 1023 < snpTo then d.fail h 0x0600 St.badParam 17
    else if 6 < members.length then d.fail h 0x0600 St.tooMany 0
    else if dom ≠ 0xff ∧ d.domTaken dom then d.fail h 0x0600 St.domainState dom
    else match (if dom = 0xff then (List.range 64).find? fun n => !d.domTaken n else some dom) with
      | none => d.fail h 0x0600 St.tooMany 0
      | some n =>
        match d.membersBad n 21 members with
        | some (st, x) => d.fail h 0x0600 st x
        | none => d.commit .dom (some (.domCreate h n snpTo members)) (domWrites n (d.domMode members) snpTo (d.withPorts members))

def execDomQuery (h : Hdr) (dom : Nat) (s : State) : Host.Outcome State Fault Refusal :=
  onCmd s fun d => d.command h 0x0606 [.f] 1 fun d =>
    if 63 < dom then d.fail h 0x0606 St.badParam 16
    else d.ok h 0x0606 ([(4, (d.domCfg dom).toNat), (4, (d.act (R.cha0DomTena dom)).toNat), (4, (d.act (R.cha0DomTenb dom)).toNat),
      (4, (d.domStatWord dom).toNat)] ++ payList 2 (d.domBays dom))

/-! ## DOM_JOIN, DOM_ADD_BAY (R144, R147) -/

/-- Resolve a list of bay indices of one segment, 0xFFFF taking the lowest free one: the indices, or what fails at which
position. -/
def Die.takeIndices (d : Die) (t off step : Nat) (low : Bool) (list : List Nat) : List Nat × Option (Nat × Nat) :=
  let seg := d.futureSeg t
  (List.range list.length).foldl (fun (a : List Nat × Option (Nat × Nat)) i =>
    if a.2.isSome then a
    else
      let x := list.getD i 0
      let free (j : Nat) : Bool := d.indexFree t j && !a.1.contains j
      if low && decide (x = 0xffff) then
        match (List.range seg.2).find? free with
        | some j => (a.1 ++ [j], none)
        | none => (a.1, some (St.segFull, t))
      else if seg.2 ≤ x then (a.1, some (St.badParam, off + step * i))
      else if !free x then (a.1, some (St.segFull, seg.1 + x))
      else (a.1 ++ [x], none)) ([], none)

/-- A command's bay-table entries, one commit each (R363): entry, value, whether it changes the flags of one that stands. The last is
made together with the commit of the domain table, where there is one. -/
def Die.domCommits (d : Die) (c : Instr) (es : List (Nat × Bt × Bool)) (table : List (Nat × Reg)) : Die :=
  let one (i : Nat) (x : Nat × Bt × Bool) : CommitReq :=
    { group := .ten, at_ := d.time, cmd := if i + 1 = es.length then some c else none, writes := btuWrites x.1 x.2.1,
      source := if x.2.2 then some x.1 else none }
  d.askCommits (es.mapIdx one ++ if table = [] then [] else [{ group := .dom, at_ := d.time, cmd := some c, writes := table }])

/-- Tenancies whose accepted join of a domain has not taken effect yet, with their ports. -/
def Die.joining (d : Die) (n : Nat) : List (Nat × Nat) :=
  d.mgt.commits.filterMap fun (r : CommitReq) => match r.cmd, r.group with
    | some (.domJoin _ k t _), .dom => if k = n then some (d.tenPort t, t) else none
    | _, _ => none

/-- A domain's bays, those being added included. -/
def Die.domBaysSoon (d : Die) (n : Nat) : List Nat :=
  (d.domBays n ++ (d.pendingBtu.filter fun (x : Nat × Bt) => decide (x.2.st ≠ .empty) && x.2.inDom && decide (x.2.dom = n)).map
    fun (x : Nat × Bt) => x.2.dlaBay).mergeSort.eraseDups

/-- An index that stands in the allowed lists of two of these tenancies which would not be members of one domain (R256). -/
def Die.keyShared (d : Die) (ts : List Nat) (apart : Nat → Nat → Bool) : Option Nat :=
  ts.findSome? fun t => (d.allowedOf t).find? fun k => ts.any fun u => decide (u ≠ t) && apart t u && (d.allowedOf u).contains k

/-- The fields the entries of a domain bay share. -/
def Die.domEntry (d : Die) (n b : Nat) : Bt :=
  match d.entriesOfBay b with
  | e :: _ => d.bt e
  | [] => ((Tbl.get [] d.home.kept n).find? fun (x : Bt) => decide (x.dlaBay = b)).getD Bt.empty

def Die.domJoin (d : Die) (h : Hdr) (n t : Nat) (list : List Nat) : Die :=
  let bays := d.domBaysSoon n
  let r := d.takeIndices t 21 2 true list
  if (d.members n ++ d.joining n).any fun (m : Nat × Nat) => decide (m.1 = d.tenPort t) then d.fail h 0x0601 St.badParam 17
  else if (d.ten t).st ≠ .active then d.fail h 0x0601 St.tenBusy t
  else if (d.domOfTen t).isSome ∨ (List.range 64).any fun k => (d.joining k).any fun (m : Nat × Nat) => decide (m.2 = t) then d.fail h 0x0601 St.tooMany 0
  else if d.domFcx n ∧ !(d.port (d.tenPort t)).fcxActive then d.fail h 0x0601 St.portNotReady (d.tenPort t)
  else if list.length ≠ bays.length then d.fail h 0x0601 St.badParam 19
  else match r.2 with
    | some (st, x) => d.fail h 0x0601 st x
    | none =>
      let c : Instr := .domJoin h n t list
      let base := (d.futureSeg t).1
      let es := bays.zipWith (fun b i => (base + i, { (d.domEntry n b) with ten := t, st := .fenced, inDom := true, dom := n }, false)) r.1
      (d.interim h 0x0601).domCommits c es (domWrites n (d.domFcx n) (d.domSnpTo n) (d.members n ++ [(d.tenPort t, t)]))

def execDomJoin (h : Hdr) (dom ten : Nat) (list : List Nat) (s : State) : Host.Outcome State Fault Refusal :=
  onCmd s fun d => d.longCommand h 0x0601 [.f] (5 + 2 * list.length) fun d =>
    match d.needUp dom with
    | some (st, x) => d.fail h 0x0601 st x
    | none => if 1023 < ten ∨ (d.ten ten).st = .free then d.fail h 0x0601 St.notFound 17 else d.domJoin h dom ten list

/-- A contract names the bay under a class a domain bay does not allow. -/
def Die.classBars (d : Die) (e : Nat) : Bool :=
  d.contracts.any fun (c : Contract) => c.live && c.uses.any fun u => u.dla.contains (d.bt e).dlaBay && !classAllowed u.t.cls (d.bt e).mode true

def Die.domAddBay (d : Die) (h : Hdr) (n owner e : Nat) (list : List (Nat × Nat)) : Die :=
  let others := (d.members n ++ d.joining n).filter fun (m : Nat × Nat) => decide (m.2 ≠ owner)
  let bad (i : Nat) : Bool :=
    let t := (list.getD i (0, 0)).1
    !(others.any fun (m : Nat × Nat) => decide (m.2 = t)) || (list.take i).any fun (x : Nat × Nat) => decide (x.1 = t)
  let place (i : Nat) : Option (Nat × Nat) := (d.takeIndices (list.getD i (0, 0)).1 (25 + 4 * i) 0 false [(list.getD i (0, 0)).2]).2
  let b := d.bt e
  match (List.range list.length).find? bad with
  | some i => d.fail h 0x0605 St.badParam (23 + 4 * i)
  | none =>
    if list.length ≠ others.length then d.fail h 0x0605 St.badParam 21
    else if b.st ≠ .live ∨ b.inDom then d.fail h 0x0605 St.badParam 19
    else if d.holdsRing e || d.holdsLog e none then d.fail h 0x0605 St.bayInUse e
    else if d.classBars e then d.fail h 0x0605 St.bayInContract e
    else if d.tenRunning owner then d.fail h 0x0605 St.tenBusy owner
    else match (List.range list.length).findSome? place with
      | some (st, x) => d.fail h 0x0605 st x
      | none =>
        let c : Instr := .domAddBay h n owner (e - d.segBase owner) list
        let b1 : Bt := { b with inDom := true, dom := n }
        d.domCommits c ((e, b1, true) :: list.map fun (x : Nat × Nat) => ((d.futureSeg x.1).1 + x.2, { b1 with ten := x.1 }, false)) []

def execDomAddBay (h : Hdr) (dom owner bay : Nat) (list : List (Nat × Nat)) (s : State) : Host.Outcome State Fault Refusal :=
  onCmd s fun d => d.command h 0x0605 [.f] (7 + 4 * list.length) fun d =>
    match d.needUp dom with
    | some (st, x) => d.fail h 0x0605 st x
    | none =>
      if !(d.members dom).any fun (m : Nat × Nat) => decide (m.2 = owner) then d.fail h 0x0605 St.notFound 17
      else match d.bayEntry owner bay with
        | none => d.fail h 0x0605 St.notFound 19
        | some e => d.domAddBay h dom owner e list

/-! ## DOM_LEAVE, DOM_DESTROY, DOM_REBUILD (R145, R192) -/

/-- Begin the sweep of a leave or a destroy: the domain is SWEEPING. -/
def Die.sweepFor (d : Die) (n : Nat) (port : Option Nat) (clear : Bool) (c : Instr) : Die :=
  d.addSweep { dom := n, port := port, bay := none, clear := clear, linesLeft := dirLines, last := (0, 0), cmd := some c }

def Die.memberOf (d : Die) (n t : Nat) : Option Nat := ((d.members n).find? fun (m : Nat × Nat) => decide (m.2 = t)).map Prod.fst

def execDomLeave (h : Hdr) (dom ten : Nat) (s : State) : Host.Outcome State Fault Refusal :=
  onCmd s fun d => d.longCommand h 0x0602 [.f] 3 fun d =>
    match d.needUp dom with
    | some (st, x) => d.fail h 0x0602 st x
    | none =>
      match d.memberOf dom ten with
      | none => d.fail h 0x0602 St.notFound 17
      | some p =>
        if (d.members dom).length ≤ 2 then d.fail h 0x0602 St.domainMinMembers dom
        else match d.keyShared ((d.members dom).map Prod.snd) fun t u => decide (t = ten ∨ u = ten) with
        | some k => d.fail h 0x0602 St.keyInUse k
        | none => ((d.setDomStat dom (3, 0, 7)).sweepFor dom (some p) false (.domLeave h dom ten)).interim h 0x0602

def execDomDestroy (h : Hdr) (dom ten : Nat) (s : State) : Host.Outcome State Fault Refusal :=
  onCmd s fun d => d.longCommand h 0x0603 [.f] 3 fun d =>
    match d.needUp dom with
    | some (st, x) => d.fail h 0x0603 st x
    | none =>
      match d.memberOf dom ten with
      | none => d.fail h 0x0603 St.notFound 17
      | some _ => match d.keyShared ((d.members dom).map Prod.snd) fun _ _ => true with
        | some k => d.fail h 0x0603 St.keyInUse k
        | none => ((d.setDomStat dom (3, 0, 7)).sweepFor dom none false (.domDestroy h dom ten)).interim h 0x0603

/-- Members of a rebuild that would lack an entry for some bay of the domain and have no room for it. -/
def Die.rebuildFull (d : Die) (n : Nat) (ts : List Nat) : Option Nat :=
  ts.find? fun t =>
    let lacking := ((d.domBays n).filter fun b => !(d.entriesOfBay b).any fun e => decide (d.entryOwner e = some t)).length
    decide (((List.range (d.segLen t)).filter (d.indexFree t)).length < lacking)

/-- A rebuild of the domain is under way. -/
def Die.rebuilding (d : Die) (n : Nat) : Bool :=
  (d.home.sweeps.any fun (x : Nat × Sweep) => decide (x.2.dom = n)) ||
  (d.home.rebuilds.any fun c => match c with
    | .domRebuild _ k _ => decide (k = n)
    | _ => false) ||
  d.mgt.commits.any fun (c : CommitReq) => match c.cmd with
    | some (.domRebuild _ k _) => decide (k = n)
    | _ => false

def execDomRebuild (h : Hdr) (dom : Nat) (members : List Nat) (s : State) : Host.Outcome State Fault Refusal :=
  onCmd s fun d => d.longCommand h 0x0604 [.f] (3 + 2 * members.length) fun d =>
    if 63 < dom then d.fail h 0x0604 St.badParam 16
    else if (d.domStat dom).1 = 0 then d.fail h 0x0604 St.notFound 16
    else if !d.domDown dom ∨ d.rebuilding dom then d.fail h 0x0604 St.domainState dom
    else if 6 < members.length then d.fail h 0x0604 St.tooMany 0
    else match d.membersBad dom 19 members with
      | some (st, x) => d.fail h 0x0604 st x
      | none =>
        match d.rebuildFull dom members with
        | some t => d.fail h 0x0604 St.segFull t
        | none =>
          match d.keyShared (((d.members dom).map Prod.snd ++ members).eraseDups) fun t u => !(members.contains t && members.contains u) with
          | some k => d.fail h 0x0604 St.keyInUse k
          | none => (d.sweepFor dom none true (.domRebuild h dom members)).interim h 0x0604

/-! ## Directory sweeps (R145, R146, R192) -/

def Die.setSweep (d : Die) (i : Nat) (x : Sweep) : Die := { d with home := { d.home with sweeps := d.home.sweeps.insert i x } }
def Die.dropSweep (d : Die) (i : Nat) : Die := { d with home := { d.home with sweeps := d.home.sweeps.erase i } }

/-- A directory state names port `p`. -/
def Dir.names (x : Dir) (p : Nat) : Bool :=
  match x.st with
  | .i => false
  | .s => x.sharers.testBit p
  | .x => decide (x.owner = p)
  | .o => decide (x.owner = p) || x.sharers.testBit p

/-- The sweep recalls or clears this entry: line number and entry. -/
def Sweep.wants (x : Sweep) (k : Nat) (e : DirEnt) : Bool :=
  decide (e.dom = x.dom) && (match x.port with | some p => e.d.names p | none => true) &&
  (match x.bay with | some b => decide (bayOf (k * 64) = b) | none => true)

/-- A line of the HBM directory, in the order a sweep reads them (R146, R180). -/
def dirLineAddr (pos : Nat) : Nat := 0x500000000 + pos * 64

/-- Sweep reads wait at the HBM controller. -/
def Die.sweepWaits (d : Die) : Bool := d.hbc.queue.any fun (x : HbmAcc) => match x.op with
  | .sweep _ => true
  | _ => false

/-- One step of a sweep: at most 320 HBM lines in a transom, in the third group of R351; a set lies in two lines. Once it has passed every
line, what is left is swept again. -/
def Die.sweepStep (d : Die) (i : Nat) : Die :=
  match d.home.sweeps.find? i with
  | none => d
  | some x =>
    let pos := dirLines - x.linesLeft
    let used := if x.last.1 = d.transom then x.last.2 else 0
    let n := min (320 - used) x.linesLeft
    let read := if n = 0 then (true, d) else d.hbm 3 0 (dirLineAddr pos) 14 false (.sweep n)
    if (x.linesLeft ≠ 0 ∧ n = 0) ∨ d.sweepWaits then d
    else if !read.1 then read.2
    else
    let d := read.2
    let here (k : Nat) : Bool := decide (x.linesLeft = 0) || (decide (pos / 2 ≤ hbmPlace (k * 64)) && decide (hbmPlace (k * 64) < (pos + n) / 2))
    let d1 := d.setSweep i { x with linesLeft := x.linesLeft - n, last := (d.transom, used + n) }
    if x.clear then
      { d1 with home := { d1.home with dir := d1.home.dir.filter fun (e : Nat × DirEnt) => !(here e.1 && x.wants e.1 e.2) } }
    else
      (d1.home.dir.filter fun (e : Nat × DirEnt) => here e.1 && x.wants e.1 e.2).foldl (fun (d : Die) (e : Nat × DirEnt) => d.recall (e.1 * 64)) d1

def execDirectorySweepStep (sweep : Nat) (s : State) : Host.Outcome State Fault Refusal := onLive s fun d => d.sweepStep sweep

/-- A transaction of the line is still under way that may leave the line with someone the sweep recalls. -/
def Die.sweepBusy (d : Die) (x : Sweep) (b : Busy) : Bool :=
  decide (b.dom = x.dom) && match x.bay, x.port with
    | some k, _ => decide (bayOf b.dla = k)
    | none, some p => (b.txn.isNone && b.ack.isNone) || b.fetch || b.stable.names p || b.next.names p ||
        (b.txn.bind d.txn?).any fun t => decide (t.master < 6) && decide (t.port = p)
    | none, none => true

/-- The sweep has passed every line, nothing it recalls is left, and no request on its way can bring it back: of a bay whose entries are
RECALLING none is left that still waits for its line (R147). -/
def Die.sweepOver (d : Die) (x : Sweep) : Bool :=
  decide (x.linesLeft = 0) && !d.sweepWaits && !(d.home.dir.any fun (e : Nat × DirEnt) => x.wants e.1 e.2) &&
  !(d.home.busy.any (d.sweepBusy x)) && match x.bay with
    | some k => !d.txns.any fun (t : Txn) => decide (bayOf t.dla = k) && decide (t.stage = .port ∨ t.stage = .waitlist ∨ t.stage = .dirFetch ∨ t.stage = .snoop)
    | none => true

/-- Entries of domain `n` that lie in a tenancy's segment. -/
def Die.domEntries (d : Die) (n t : Nat) : List Nat := (d.tenEntries t).filter fun e => (d.bt e).inDom && decide ((d.bt e).dom = n)

/-- Begin the scrub of a domain's bays for a rebuild. -/
def Die.scrubDomain (d : Die) (n : Nat) (c : Instr) : Die :=
  let ops := (d.domBays n).map fun b =>
    ({ entry := (d.entriesOfBay b).headD 16384, bay := b, phase := .fence, why := 3, ten := 1024, next := 0, left := [], until_ := 0,
       hdr := none } : BayOp)
  { d with tens := { d.tens with bayOps := d.tens.bayOps ++ ops }, home := { d.home with rebuilds := d.home.rebuilds ++ [c] } }

/-- A sweep ends. -/
def Die.sweepDone (d : Die) (i : Nat) : Die :=
  match d.home.sweeps.find? i with
  | none => d
  | some x =>
    if !d.sweepOver x then d
    else
      let d1 := d.dropSweep i
      match x.cmd, x.bay with
      | some (.domLeave h n t), _ =>
        let ms := (d1.members n).filter fun (m : Nat × Nat) => decide (m.2 ≠ t)
        d1.commit .dom (some (.domLeave h n t)) (domWrites n (d1.domFcx n) (d1.domSnpTo n) ms)
      | some (.domDestroy h n t), _ =>
        let mine := d1.domEntries n t
        let rest := d1.usedEntries.filter fun e => (d1.bt e).inDom && decide ((d1.bt e).dom = n) && !mine.contains e
        d1.domCommits (.domDestroy h n t) ((rest.map fun e => (e, Bt.empty, false)) ++
          mine.map fun e => (e, { (d1.bt e) with inDom := false, dom := 0 }, true)) [(R.cha0DomCfg n, 0), (R.cha0DomTena n, 0), (R.cha0DomTenb n, 0)]
      | some (.domRebuild h n ms), _ => d1.scrubDomain n (.domRebuild h n ms)
      | _, some b => match d1.bayOp? b with
        | some o => if o.phase = .recall then d1.setBayOp { o with phase := .fence } else d1
        | none => d1
      | _, none => d1

def execDirectorySweepDone (sweep : Nat) (s : State) : Host.Outcome State Fault Refusal := onLive s fun d => d.sweepDone sweep

/-! ## What the commits do -/

def Die.clearEntries (d : Die) (es : List Nat) : Die := es.foldl (fun (d : Die) e => d.setBt e Bt.empty) d

/-- A join that cannot take effect any more is undone by further commits: the table without the joiner, its entries EMPTY. -/
def Die.unjoin (d : Die) (n t : Nat) : Die :=
  let d1 := if (d.members n).any fun (m : Nat × Nat) => decide (m.2 = t) then
      d.commit .dom none (domWrites n (d.domFcx n) (d.domSnpTo n) ((d.members n).filter fun (m : Nat × Nat) => decide (m.2 ≠ t)))
    else d
  d1.emptyEntries (d1.domEntries n t)

/-- The entries a rebuild writes (R192, R363): those of tenancies outside it EMPTY, and one for every bay a member lacks. -/
def Die.rebuildEntries (d : Die) (n : Nat) (ts : List Nat) : List (Nat × Bt × Bool) :=
  let bays := d.domBays n
  let gone := d.usedEntries.filter fun e => (d.bt e).inDom && decide ((d.bt e).dom = n) && !(ts.any fun t => decide (d.entryOwner e = some t))
  let lacking (t : Nat) : List (Nat × Bt × Bool) :=
    let need := bays.filter fun b => !(d.domEntries n t).any fun e => decide ((d.bt e).dlaBay = b)
    let room := (List.range (d.futureSeg t).2).filter (d.indexFree t)
    need.zipWith (fun b i => ((d.futureSeg t).1 + i, { (d.domEntry n b) with ten := t, st := .fenced, inDom := true, dom := n }, false)) room
  ts.flatMap lacking ++ gone.map fun e => (e, Bt.empty, false)

/-- A rebuilt domain: every entry of its members' segments for its bays becomes LIVE (R192). -/
def Die.reform (d : Die) (n : Nat) (ts : List Nat) : Die :=
  let d1 := (ts.flatMap (d.domEntries n)).foldl (fun (d : Die) e => d.setBt e { (d.bt e) with st := .live }) d
  { d1 with home := { d1.home with kept := d1.home.kept.erase n } }

def Die.afterDom (d : Die) (c : Instr) (old : Die) : Die :=
  let mode (n : Nat) : PayVal := (1, b2n (d.domFcx n))
  -- a domain that went down before its leave or destroy was made keeps its table (R188)
  let back (d : Die) (n : Nat) : Die := d.commit .dom none (domWrites n (old.domFcx n) (old.domSnpTo n) (old.members n))
  let added (d : Die) (es : List Nat) : Die := es.foldl (fun (d : Die) e => d.hostEvent (d.tenPort (d.bt e).ten) (.dcAdd (d.taOf e 0))) d
  match c with
  | .domCreate h n _ _ => (d.setDomStat n (1, 0, 7)).ok h 0x0600 [(1, n), mode n]
  | .domJoin h n t _ =>
    if (d.domStat n).1 ≠ 1 then (d.unjoin n t).fail h 0x0601 St.domainDown n
    else if (d.ten t).st ≠ .active then (d.unjoin n t).fail h 0x0601 St.tenBusy t
    else
      let es := d.domEntries n t
      (added (es.foldl (fun (d : Die) e => d.setBt e { (d.bt e) with st := .live }) d) es).ok h 0x0601 []
  | .domLeave h n t =>
    if (d.domStat n).1 ≠ 3 then (back d n).fail h 0x0602 St.domainDown n
    else ((d.setDomStat n (1, 0, 7)).clearEntries (d.domEntries n t)).ok h 0x0602 []
  | .domDestroy h n _ =>
    if (d.domStat n).1 ≠ 3 then (back d n).fail h 0x0603 St.domainDown n
    else (d.setDomStat n (0, 0, 0)).ok h 0x0603 []
  | .domRebuild h n ts => ((d.reform n ts).setDomStat n (1, 0, 7)).ok h 0x0604 [mode n]
  | .domAddBay h _ owner bay list =>
    let b := (d.bt (d.segBase owner + bay)).dlaBay
    (added d ((d.entriesOfBay b).filter fun e => list.any fun (x : Nat × Nat) => decide ((d.bt e).ten = x.1))).ok h 0x0605 []
  | _ => d

/-! ## The boundary -/

/-- Sweeps of a leave or destroy whose domain went down end; a bay's recall only clears from then on. -/
def Die.sweepsDown (d : Die) : Die :=
  d.home.sweeps.foldl (fun (d : Die) (x : Nat × Sweep) =>
    if !d.domDown x.2.dom then d
    else match x.2.cmd with
      | some (.domLeave h n _) => (d.dropSweep x.1).fail h 0x0602 St.domainDown n
      | some (.domDestroy h n _) => (d.dropSweep x.1).fail h 0x0603 St.domainDown n
      | _ => if x.2.clear then d else d.setSweep x.1 { x.2 with clear := true }) d

/-- Rebuilds whose bays are scrubbed commit their table. -/
def Die.rebuildsGo (d : Die) : Die :=
  d.home.rebuilds.foldl (fun (d : Die) c =>
    match c with
    | .domRebuild _ n ts =>
      if d.tens.bayOps.any fun (o : BayOp) => decide (o.why = 3) && (d.domBays n).contains o.bay then d
      else
        let d1 := { d with home := { d.home with rebuilds := d.home.rebuilds.filter (· ≠ c) } }
        d1.domCommits c (d1.rebuildEntries n ts) (domWrites n (d1.domMode ts) (d1.domSnpTo n) (d1.withPorts ts))
    | _ => d) d

/-- Contracts naming a bay of a DOWN domain become DEMOTED (R191). -/
def Die.demoteDown (d : Die) : Die :=
  let bays := ((List.range 64).filter d.domDown).flatMap d.domBays
  if bays = [] then d
  else (d.contracts.filter fun (c : Contract) => c.live && c.uses.any fun u => u.dla.any bays.contains).foldl Die.demote d

def Die.domBoundary (d : Die) : Die := d.sweepsDown.rebuildsGo.demoteDown

end Sys2Proof.Machine
end

