-- ==== Sys2Proof/Machine/Inflate.lean ====
section
/-! DEFINITION. Machine/Inflate.lean: decoding of DEFLATE, zlib and gzip streams (RFC 1951, 1950, 1952, as R316 supports them),
and the frame parts a compressor writes. Bytes are numbers below 256; a position counts bits, the least significant bit of a
byte first. -/

namespace Sys2Proof.Machine

/-! ## Bits and codes -/

/-- Why a decoder cannot go on: the source is at its end, or the stream is malformed. -/
inductive Stop where
  | more | bad
  deriving DecidableEq, Repr

/-- `n` bits from bit `p`. -/
def bitsAt (bs : List Nat) (p n : Nat) : Except Stop (Nat × Nat) :=
  if 8 * bs.length < p + n then .error .more
  else .ok ((List.range n).foldl (fun a i => a + ((bs.getD ((p + i) / 8) 0) / 2 ^ ((p + i) % 8) % 2) * 2 ^ i) 0, p + n)

/-- A canonical code: symbols by length and value, and how many codes each length 1 to 15 has. -/
structure Huff where
  syms : List Nat
  counts : List Nat
  deriving DecidableEq, Repr

def huffOf (lens : List Nat) : Huff :=
  let ofLen (l : Nat) : List Nat := (List.range lens.length).filter fun s => decide (lens.getD s 0 = l)
  { syms := (range' 1 15).flatMap ofLen, counts := (range' 1 15).map fun l => (ofLen l).length }

/-- No length has more codes than there is room for. -/
def Huff.ok (h : Huff) : Bool :=
  decide (((List.range 15).foldl (fun a i => a + h.counts.getD i 0 * 2 ^ (14 - i)) 0) ≤ 2 ^ 15)

/-- Decode one symbol, length by length. -/
def huffSym (syms : List Nat) (bs : List Nat) : List Nat → Nat → Nat → Nat → Nat → Except Stop (Nat × Nat)
  | [], _, _, _, _ => .error .bad
  | c :: cs, code, first, index, p =>
    match bitsAt bs p 1 with
    | .error e => .error e
    | .ok (b, p1) =>
      let code1 := code + b
      if code1 < first + c then .ok (syms.getD (index + (code1 - first)) 0, p1)
      else huffSym syms bs cs (2 * code1) (2 * (first + c)) (index + c) p1

def Huff.sym (h : Huff) (bs : List Nat) (p : Nat) : Except Stop (Nat × Nat) := huffSym h.syms bs h.counts 0 0 0 p

/-! ## Blocks (RFC 1951) -/

def lenBase : List Nat := [3, 4, 5, 6, 7, 8, 9, 10, 11, 13, 15, 17, 19, 23, 27, 31, 35, 43, 51, 59, 67, 83, 99, 115, 131, 163, 195, 227, 258]
def lenExtra : List Nat := [0, 0, 0, 0, 0, 0, 0, 0, 1, 1, 1, 1, 2, 2, 2, 2, 3, 3, 3, 3, 4, 4, 4, 4, 5, 5, 5, 5, 0]
def distBase : List Nat :=
  [1, 2, 3, 4, 5, 7, 9, 13, 17, 25, 33, 49, 65, 97, 129, 193, 257, 385, 513, 769, 1025, 1537, 2049, 3073, 4097, 6145, 8193, 12289,
   16385, 24577]
def distExtra (s : Nat) : Nat := if s < 4 then 0 else s / 2 - 1

/-- Copy `n` bytes from distance `k`; the output stands last byte first. -/
def copyOut : Nat → Nat → List Nat → List Nat
  | 0, _, out => out
  | n + 1, k, out => copyOut n k (out.getD (k - 1) 0 :: out)

/-- Where a decoder got to. -/
inductive Inf where
  /-- the last block ended: output (last byte first), position -/
  | done (out : List Nat) (p : Nat)
  /-- the source ended first: the output so far -/
  | part (out : List Nat)
  | bad
  deriving DecidableEq, Repr

/-- The symbols of one compressed block, up to its end code. -/
def infSyms (lit dist : Huff) (bs : List Nat) : Nat → Nat → List Nat → Inf
  | 0, _, _ => .bad
  | f + 1, p, out =>
    let stop (e : Stop) : Inf := match e with
      | .more => .part out
      | .bad => .bad
    match lit.sym bs p with
    | .error e => stop e
    | .ok (s, p1) =>
      if s < 256 then infSyms lit dist bs f p1 (s :: out)
      else if s = 256 then .done out p1
      else if 285 < s then .bad
      else
        match bitsAt bs p1 (lenExtra.getD (s - 257) 0) with
        | .error e => stop e
        | .ok (x, p2) =>
          match dist.sym bs p2 with
          | .error e => stop e
          | .ok (t, p3) =>
            match bitsAt bs p3 (distExtra t) with
            | .error e => stop e
            | .ok (y, p4) =>
              let k := distBase.getD t 0 + y
              if 29 < t ∨ out.length < k then .bad
              else infSyms lit dist bs f p4 (copyOut (lenBase.getD (s - 257) 0 + x) k out)

def fixedLit : Huff := huffOf (List.replicate 144 8 ++ List.replicate 112 9 ++ List.replicate 24 7 ++ List.replicate 8 8)
def fixedDist : Huff := huffOf (List.replicate 30 5)

/-- The code lengths of a dynamic block: `n` in all. -/
def infLens (cl : Huff) (bs : List Nat) (n : Nat) : Nat → Nat → List Nat → Except Stop (List Nat × Nat)
  | 0, _, _ => .error .bad
  | f + 1, p, acc =>
    if n ≤ acc.length then (if acc.length = n then .ok (acc, p) else .error .bad)
    else
      match cl.sym bs p with
      | .error e => .error e
      | .ok (s, p1) =>
        let rep (v k b : Nat) : Except Stop (List Nat × Nat) :=
          match bitsAt bs p1 b with
          | .error e => .error e
          | .ok (x, p2) => infLens cl bs n f p2 (acc ++ List.replicate (k + x) v)
        if s < 16 then infLens cl bs n f p1 (acc ++ [s])
        else if s = 16 then (if acc = [] then .error .bad else rep (acc.getLastD 0) 3 2)
        else if s = 17 then rep 0 3 3
        else rep 0 11 7

def clOrder : List Nat := [16, 17, 18, 0, 8, 7, 9, 6, 10, 5, 11, 4, 12, 3, 13, 2, 14, 1, 15]

/-- The two codes of a dynamic block. -/
def infDynamic (bs : List Nat) (p : Nat) : Except Stop (Huff × Huff × Nat) := do
  let (hlit, p1) ← bitsAt bs p 5
  let (hdist, p2) ← bitsAt bs p1 5
  let (hclen, p3) ← bitsAt bs p2 4
  let (raw, p4) ← bitsAt bs p3 (3 * (hclen + 4))
  let cl (s : Nat) : Nat := match clOrder.findIdx? (· = s) with
    | some i => if i < hclen + 4 then raw / 8 ^ i % 8 else 0
    | none => 0
  let (lens, p5) ← infLens (huffOf ((List.range 19).map cl)) bs (hlit + 257 + hdist + 1) 400 p4 []
  let lit := huffOf (lens.take (hlit + 257)); let dist := huffOf (lens.drop (hlit + 257))
  if 286 < hlit + 257 ∨ 30 < hdist + 1 ∨ !lit.ok ∨ !dist.ok ∨ lens.getD 256 0 = 0 then .error .bad else .ok (lit, dist, p5)

/-- Blocks up to the one marked last. -/
def infBlocks (bs : List Nat) : Nat → Nat → List Nat → Inf
  | 0, _, _ => .bad
  | f + 1, p, out =>
    let go (last : Nat) (r : Inf) : Inf := match r with
      | .done o p1 => if last = 1 then .done o p1 else infBlocks bs f p1 o
      | x => x
    match bitsAt bs p 3 with
    | .error _ => .part out
    | .ok (h, p1) =>
      let last := h % 2
      match h / 2 with
      | 0 =>
        let q := (p1 + 7) / 8
        if bs.length < q + 4 then .part out
        else
          let n := bs.getD q 0 + 256 * bs.getD (q + 1) 0
          let nn := bs.getD (q + 2) 0 + 256 * bs.getD (q + 3) 0
          if n + nn ≠ 65535 then .bad
          else
            let data := (bs.drop (q + 4)).take n
            if data.length < n then .part (data.reverse ++ out) else go last (.done (data.reverse ++ out) (8 * (q + 4 + n)))
      | 1 => go last (infSyms fixedLit fixedDist bs (8 * bs.length + 1) p1 out)
      | 2 =>
        match infDynamic bs p1 with
        | .error .more => .part out
        | .error .bad => .bad
        | .ok (lit, dist, p2) => go last (infSyms lit dist bs (8 * bs.length + 1) p2 out)
      | _ => .bad

/-! ## Frames (RFC 1950, RFC 1952) -/

/-- A whole frame decoded. -/
inductive Unframed where
  /-- it ended: data, bytes consumed, its Adler-32 or CRC-32 -/
  | done (data : List Nat) (used check : Nat)
  /-- the source ended first: the data so far -/
  | part (data : List Nat)
  | bad
  | unsupported
  deriving DecidableEq, Repr

/-- End of a zero-terminated field. -/
def afterZero (bs : List Nat) (p : Nat) : Option Nat := ((bs.drop p).findIdx? (· = 0)).map fun i => p + i + 1

/-- Length of a gzip header: `none` while it is not complete. -/
def gzipHeader (bs : List Nat) : Option Nat := do
  let flg := bs.getD 3 0
  let p0 := 10
  let p1 ← if flg.testBit 2 then (if bs.length < 12 then none else some (12 + bs.getD 10 0 + 256 * bs.getD 11 0)) else some p0
  let p2 ← if flg.testBit 3 then afterZero bs p1 else some p1
  let p3 ← if flg.testBit 4 then afterZero bs p2 else some p2
  let p4 := if flg.testBit 1 then p3 + 2 else p3
  if bs.length < p4 then none else some p4

/-- FHCRC of a gzip header of `n` bytes holds. -/
def gzipHeaderOk (bs : List Nat) (n : Nat) : Bool :=
  !(bs.getD 3 0).testBit 1 || decide (crc32 (bs.take (n - 2)) % 65536 = bs.getD (n - 2) 0 + 256 * bs.getD (n - 1) 0)

/-- The frame's header: its length, or why it cannot be read. -/
def frameHeader (frame : Nat) (bs : List Nat) : Except Unframed Nat :=
  match frame with
  | 0 => .ok 0
  | 1 =>
    if bs.length < 2 then .error (.part [])
    else
      let cmf := bs.getD 0 0; let flg := bs.getD 1 0
      if cmf % 16 ≠ 8 ∨ 7 < cmf / 16 ∨ (cmf * 256 + flg) % 31 ≠ 0 then .error .bad
      else if flg.testBit 5 then .error .unsupported
      else .ok 2
  | _ =>
    if bs.length < 10 then .error (.part [])
    else if bs.take 3 ≠ [0x1f, 0x8b, 8] then .error .bad
    else if 32 ≤ bs.getD 3 0 then .error .unsupported
    else match gzipHeader bs with
      | none => .error (.part [])
      | some n => if gzipHeaderOk bs n then .ok n else .error .bad

/-- The check value a frame's trailer carries. -/
def frameCheck (frame : Nat) (data : List Nat) : Nat :=
  match frame with
  | 0 => 0
  | 1 => adler32 data
  | _ => crc32 data

/-- The trailer a compressor writes. -/
def frameTrailer (frame : Nat) (data : List Nat) : List Nat :=
  match frame with
  | 0 => []
  | 1 => beBytes 4 (adler32 data)
  | _ => leBytes 4 (crc32 data) ++ leBytes 4 (data.length % 2 ^ 32)

/-- The header a compressor writes at LEVEL 1 to 4 (R316). -/
def frameStart (frame level : Nat) : List Nat :=
  match frame with
  | 0 => []
  | 1 => [0x78, [0x01, 0x5e, 0x9c, 0xda].getD (level - 1) 0x5e]
  | _ => [0x1f, 0x8b, 8, 0, 0, 0, 0, 0, if level = 1 then 4 else if level = 4 then 2 else 0, 0xff]

/-- Decode the first frame of a source. -/
def unframe (frame : Nat) (bs : List Nat) : Unframed :=
  match frameHeader frame bs with
  | .error x => x
  | .ok n =>
    match infBlocks bs (bs.length + 1) (8 * n) [] with
    | .bad => .bad
    | .part out => .part out.reverse
    | .done out p =>
      let data := out.reverse
      let q := (p + 7) / 8
      let want := frameTrailer frame data
      let have_ := (bs.drop q).take want.length
      if have_.length < want.length then .part data
      else if have_ ≠ want then .bad
      else .done data (q + want.length) (frameCheck frame data)

end Sys2Proof.Machine
end

