-- ==== Sys2Proof/Machine/Jobs.lean ====
section
/-! DEFINITION. Machine/Jobs.lean: the job engine (R311–R321): queues, descriptors, the five functions, completion records, and
the queue commands. A job's reads and writes are requests of master 9 on the path every request takes. -/

namespace Sys2Proof.Machine

/-! ## Queues -/

def Die.qcfg (d : Die) (q : Nat) : Reg := d.act (R.cjeQcfg q)
/-- The tenancy number a queue's records and requests carry; 0xFFFF for an unbound queue. -/
def Die.jobTenNo (d : Die) (q : Nat) : Nat := (d.jobTen q).getD 0xffff
def Die.qTail (d : Die) (q : Nat) : Nat := fld (d.regR (R.cjeDb q)) 11 0
def Die.qLog (d : Die) (q : Nat) : Nat := fld (d.qcfg q) 27 24

/-- CJE_QSTATq (R326): HEAD is the next descriptor to fetch, one past that of a job under way. -/
def Die.qStat (d : Die) (q : Nat) : Reg :=
  let x := d.job q
  let head := if x.job.isSome then (x.head + 1) % 2 ^ d.qLog q else x.head
  BitVec.ofNat 32 (x.st * 2 ^ 30 + head % 4096 * 2 ^ 16 + x.last % 65536)

/-- A queue has a pending job the engine may fetch. -/
def Die.jobPends (d : Die) (q : Nat) : Bool :=
  let x := d.job q
  decide (x.st = 1) && x.job.isNone && x.disabling.isNone && decide (x.head ≠ d.qTail q % 2 ^ d.qLog q)

/-- The queue whose turn it is among those with pending jobs: round-robin after the last one fetched from (R315). -/
def Die.nextQueue (d : Die) : Option Nat := ((List.range 64).map fun i => (d.jobTurn + 1 + i) % 64).find? d.jobPends

/-- The index a queue may use (R259). -/
def Die.jobKeyOk (d : Die) (ten : Option Nat) (k : Nat) : Bool :=
  match ten with
  | some t => (d.allowedOf t).contains k || (d.tenEntries t).any fun e => decide ((d.bt e).defKey = k)
  | none => true

/-! ## Requests of a job -/

/-- Entry, DLA and TA of a job's line address (R311); none where it lies in no LIVE bay (R361). -/
def Die.jobPlace (d : Die) (ten : Option Nat) (a : Nat) : Option (Nat × Nat × Nat) :=
  match ten with
  | some t =>
    match d.entryOf t a with
    | some e => if (d.bt e).st = .live then some (e, (d.bt e).dlaBay * 2 ^ 30 + a % 2 ^ 30, a) else none
    | none => none
  | none =>
    match (d.entriesOfBay (a / 2 ^ 30)).find? fun e => decide ((d.bt e).st = .live) with
    | some e => some (e, a, d.taOf e a)
    | none => none

/-- Issue one line request of a job: the status it is refused with, or the state. -/
def Die.jobTxn (d : Die) (q kidx : Nat) (op : Op) (a : Nat) (data : Line) (mask : BitVec 64) : Except (Nat × Die) Die :=
  match d.jobPlace (d.jobTen q) a with
  | none => .error (St.noBay, (d.count R.tenNobay 1).event R.tenEvent 2)
  | some (e, dla, ta) =>
    let k := d.remap (d.bt e).dlaBay kidx
    let ten := d.jobTenNo q
    -- a job under way when its index is stopped runs to completion (R262)
    let drains := decide ((d.slot k.1).st = .stopped) && !d.dbg.erase.contains (d.bt e).dlaBay && !(op.isWrite && d.listFull (d.bt e).dlaBay k.1)
    if d.keyRefused ten e k.1 false k.2 op.isWrite && !drains then .error (St.keyRefused, d.keyRefuse 9 ten 0 k.1)
    else
      .ok (d.toHome (d.newTxn (internalHdr 9 q ta) op ten e (dla / 64 * 64) k.1 4 data mask))

/-- Issue requests in order; the first refusal ends it. -/
def Die.jobTxns (d : Die) (q kidx : Nat) (op : Op) : List (Nat × Line × BitVec 64) → Except (Nat × Die) Die
  | [] => .ok d
  | (a, data, mask) :: rest =>
    let op1 := if op = .rd then Op.rd else if mask = BitVec.allOnes 64 then Op.wr else Op.wrPart
    match d.jobTxn q kidx op1 a data mask with
    | .error x => .error x
    | .ok d1 => d1.jobTxns q kidx op rest

/-- Requests of the job still in the device. -/
def Die.jobBusy (d : Die) (q : Nat) : Bool := d.txns.any fun (t : Txn) => decide (t.master = 9) && decide (t.tag = q)

/-- The lines that `n` bytes from `a` lie in. -/
def linesOf (a n : Nat) : List Nat := if n = 0 then [] else (range' (a / 64) ((a + n - 1) / 64 + 1 - a / 64)).map (64 * ·)

/-- Bytes read by a job; none where a line came poisoned. -/
def Die.jobBytes (d : Die) (q : Nat) (j : Job) (a n : Nat) : Option (List Nat) :=
  let line (x : Nat) : Option (List Nat) :=
    match d.jobPlace (d.jobTen q) x with
    | some (_, dla, _) => (Tbl.get none j.got (dla / 64)).map lineBytes
    | none => none
  ((linesOf a n).mapM line).map fun ls => (ls.flatten.drop (a % 64)).take n

/-! ## The descriptor (R312, R313) -/

def Job.le (j : Job) (off n : Nat) : Nat := ofLe ((j.desc.drop off).take n)
def Job.op (j : Job) : Nat := j.le 0 2
def Job.func (j : Job) : Nat := j.op % 16
def Job.frame (j : Job) : Nat := j.op / 16 % 4
/-- 0 NONE, 1 SYNC, 2 FULL, 3 FINAL -/
def Job.flush (j : Job) : Nat := j.op / 64 % 4
def Job.cont (j : Job) : Bool := j.op.testBit 8
def Job.level (j : Job) : Nat := if j.op / 4096 = 0 then 2 else j.op / 4096
def Job.src (j : Job) : Nat := j.le 8 8
def Job.srcLen (j : Job) : Nat := j.le 16 4
def Job.dstLen (j : Job) : Nat := j.le 20 4
def Job.dst (j : Job) : Nat := j.le 24 8
def Job.chain (j : Job) : Nat := j.le 32 8
def Job.chainN (j : Job) : Nat := j.le 40 2

/-- A failure's status: NOT_PERMITTED where a region register denied an access (R417), else the one given. -/
def Job.lost (j : Job) (st : Nat) : Nat := if j.barred then St.notPermitted else st

/-- The descriptor is malformed. -/
def Job.descBad (j : Job) (s : Stream) : Bool :=
  decide (j.le 2 2 ≠ 0 ∨ j.le 42 2 ≠ 0 ∨ j.le 48 16 ≠ 0) || decide (j.func = 0 ∨ 5 < j.func) || decide (j.frame = 3) ||
  decide (4 < j.op / 4096) || decide (2 ^ 30 < j.srcLen) || decide (255 < j.chainN) || decide (j.chain % 16 ≠ 0) ||
  (decide (j.srcLen = 0) && !(decide (j.func = 1) && j.cont && decide (j.flush ≠ 0))) ||
  (j.cont && !(s.isOpen && decide (s.func = j.func) && decide (s.frame = j.frame))) ||
  (decide (j.func = 3) && decide (j.srcLen % 512 ≠ 0))

/-- The queue's chain mode lets this job use its chain (R318). -/
def Die.jobChain (d : Die) (q : Nat) (j : Job) : Nat := if bit (d.qcfg q) 30 ∧ j.chain ≠ 0 then j.chainN else 0

/-- Destination buffers: DST, then the chain's. `none`: a chain entry has a reserved byte set. -/
def jobBufs (j : Job) (chain : List Nat) : Option (List (Nat × Nat)) :=
  let ent (i : Nat) : Nat × Nat × Nat := (ofLe ((chain.drop (16 * i)).take 8), ofLe ((chain.drop (16 * i + 8)).take 4), ofLe ((chain.drop (16 * i + 12)).take 4))
  let es := (List.range (chain.length / 16)).map ent
  if es.any fun (e : Nat × Nat × Nat) => decide (e.2.2 ≠ 0) then none
  else some ((j.dst, j.dstLen) :: es.map fun (e : Nat × Nat × Nat) => (e.1, e.2.1))

/-! ## The functions (R316–R320) -/

/-- What a function made of a job's source: output, source bytes consumed, the frame's check value, the stream afterwards. -/
structure Made where
  out : List Nat
  used : Nat
  check : Nat
  stream : Stream
  deriving DecidableEq, Repr

/-- The stream a job works in: continued, or a new one (R317). -/
def Job.stream (j : Job) (s : Stream) : Stream :=
  if j.cont then s else { Stream.init with isOpen := true, func := j.func, frame := j.frame, level := j.level }

def srcBytes (s : Stream) : List Nat := s.src.filter fun b => decide (b < 256)

def makeCompress (blk : Nat) (j : Job) (s : Stream) (bs : List Nat) : Made :=
  let s1 : Stream := { s with src := s.src ++ bs ++ [256 + j.flush], crc := crc32cRun s.crc bs }
  let final := decide (j.flush = 3)
  let data := srcBytes s1
  let raw := (Config.deflate s.level blk s1.src).map BitVec.toNat
  let total := frameStart s.frame s.level ++ raw ++ if final then frameTrailer s.frame data else []
  { out := total.drop s.given, used := bs.length, check := if final then frameCheck s.frame data else 0,
    stream := { s1 with given := total.length } }

def makeDecompress (j : Job) (s : Stream) (bs : List Nat) : Except Nat Made :=
  let before := s.src.length
  let s1 : Stream := { s with src := s.src ++ bs }
  let made (data : List Nat) (used check : Nat) : Made :=
    { out := data.drop s.given, used := used, check := check,
      stream := { s1 with given := data.length, crc := crc32cRun 0xffffffff data } }
  match unframe s.frame s1.src with
  | .bad => .error St.dataError
  | .unsupported => .error St.frameUnsupported
  | .part data => if j.flush = 3 then .error St.inputTruncated else .ok (made data bs.length 0)
  | .done data used check => .ok (made data (used - before) (if j.flush = 3 then check else 0))

/-- Panes of a source, 512 B each. -/
def makePaneEnc (s : Stream) (bs : List Nat) : Made :=
  let pane (i : Nat) : List Nat :=
    let r := encodePane (toLines ((bs.drop (512 * i)).take 512))
    r.1 :: r.2.1.flatMap lineBytes
  { out := (List.range (bs.length / 512)).flatMap pane, used := bs.length, check := 0, stream := { s with crc := crc32cRun s.crc bs } }

/-- Decode a sequence of panes, each a LEN byte and its granules (R320). -/
def paneDec : Nat → List Nat → Except Nat (List Nat)
  | 0, _ => .ok []
  | _ + 1, [] => .ok []
  | f + 1, n :: rest =>
    if 8 < n then .error St.dataError
    else if rest.length < 64 * n then .error St.inputTruncated
    else
      let gs := (List.range n).map fun i => lineOf ((rest.drop (64 * i)).take 64)
      let ls := if n = 0 then some (List.replicate 8 0) else if n = 8 then some gs else decodePane n gs
      match ls with
      | none => .error St.dataError
      | some ls =>
        match paneDec f (rest.drop (64 * n)) with
        | .ok out => .ok (ls.flatMap lineBytes ++ out)
        | .error e => .error e

def makePaneDec (s : Stream) (bs : List Nat) : Except Nat Made :=
  match paneDec (bs.length + 1) bs with
  | .error e => .error e
  | .ok out => .ok { out := out, used := bs.length, check := 0, stream := { s with crc := crc32cRun s.crc out } }

/-- Run a function; APPEND_CRC's four bytes follow its output (R319). -/
def makeJob (blk : Nat) (j : Job) (s : Stream) (bs : List Nat) : Except Nat Made :=
  let r : Except Nat Made := match j.func with
    | 1 => .ok (makeCompress blk j s bs)
    | 2 => makeDecompress j s bs
    | 3 => .ok (makePaneEnc s bs)
    | 4 => makePaneDec s bs
    | _ => .ok { out := [], used := bs.length, check := 0, stream := { s with crc := crc32cRun s.crc bs } }
  match r with
  | .error e => .error e
  | .ok m =>
    if j.op.testBit 9 ∧ (j.func = 3 ∨ (j.flush = 3 ∧ j.func ≠ 5)) then .ok { m with out := m.out ++ leBytes 4 (m.stream.crc ^^^ 0xffffffff) }
    else .ok m

/-! ## Writing the output -/

/-- Lay bytes out over buffers: (address, byte) pairs, and the bytes that found no room. -/
def layOut : List (Nat × Nat) → List Nat → List (Nat × Nat) × List Nat
  | [], out => ([], out)
  | (a, n) :: bufs, out =>
    let here := (out.take n).zipIdx.map fun (x : Nat × Nat) => (a + x.2, x.1)
    let r := layOut bufs (out.drop n)
    (here ++ r.1, r.2)

/-- Byte writes gathered into line writes, in ascending address order. -/
def lineWrites (ws : List (Nat × Nat)) : List (Nat × Line × BitVec 64) :=
  let put (t : Tbl (List (Nat × Nat))) (w : Nat × Nat) : Tbl (List (Nat × Nat)) := t.insert (w.1 / 64) (w :: Tbl.get [] t (w.1 / 64))
  ((ws.foldl put []) : Tbl (List (Nat × Nat))).map fun (e : Nat × List (Nat × Nat)) =>
    let byte (i : Nat) : Option Nat := (e.2.find? fun (w : Nat × Nat) => decide (w.1 % 64 = i)).map Prod.snd
    let bytes := (List.range 64).map fun i => (byte i).getD 0
    let mask := (List.range 64).foldl (fun a i => if (byte i).isSome then a + 2 ^ i else a) 0
    (64 * e.1, lineOf bytes, BitVec.ofNat 64 mask)

/-- Chain buffers that took bytes. -/
def bufsUsed (bufs : List (Nat × Nat)) (n : Nat) : Nat :=
  ((List.range bufs.length).filter fun i => decide (0 < i) && decide (((bufs.take i).foldl (fun a (b : Nat × Nat) => a + b.2) 0) < n) &&
    decide ((bufs.getD i (0, 0)).2 ≠ 0)).length

/-! ## The course of a job -/

def Die.setJobNow (d : Die) (q : Nat) (j : Job) : Die := d.setJob q { (d.job q) with job := some j }

/-- A queue leaves the job's place: counts, events, stop, and a waiting disable (R311, R321). `rec`: its record was written. -/
def Die.endJob (d : Die) (q : Nat) (j : Job) (r : JobRes) (written : Bool) : Die :=
  let x := d.job q; let c := d.qcfg q
  let size := 2 ^ d.qLog q
  let bad := decide (r.status ≠ St.success)
  let stop := decide (x.st = 1) && bad && (decide (r.status = St.keyRefused) || bit c 29)
  let wrap := decide (size ≤ x.head + 1)
  let y : JobQ := { x with head := (x.head + 1) % size, pass := if wrap then !x.pass else x.pass, last := r.status, stream := r.stream,
                           job := none, st := if stop then 2 else x.st, disabling := none }
  let d1 := (d.setJob q y).count (if bad then R.cjeJobsFailed else R.cjeJobsDone) 1
  let is := match d.jobTen q with
    | some t => [scDev, scTen t]
    | none => [scDev]
  let d2 := (d1.tally 0x70 r.inBytes is).tally 0x71 r.outBytes is
  let d3 := if stop then d2.event R.cjeEvent 1 else d2
  let d4 := if written && j.op.testBit 11 then d3.emit (.msix (match d.jobTen q with
      | some t => d.tenPort t
      | none => ((List.range 6).find? d.fmPort).getD 0) (fld c 21 16)) else d3
  match x.disabling with
  | some h => d4.commitFor .cje (.qDisable h q) [(R.cjeQcfg q, (setFld (d4.qcfg q) 31 31 0).toNat)]
  | none => d4

/-- A job that never got as far as a record. -/
def Die.dropJob (d : Die) (q : Nat) (j : Job) (status : Nat) : Die :=
  d.endJob q j { status := status, inBytes := 0, outBytes := 0, bufs := 0, crc := 0, frameCheck := 0, stream := (d.job q).stream } false

/-- The completion record's bytes (R314). -/
def JobRes.bytes (r : JobRes) (j : Job) (phase : Bool) : List Nat :=
  leBytes 2 r.status ++ leBytes 2 j.idx ++ (j.desc.drop 4).take 4 ++ leBytes 4 r.inBytes ++ leBytes 4 r.outBytes ++ leBytes 2 r.bufs ++
    leBytes 2 j.gen ++ leBytes 4 r.crc ++ leBytes 4 r.frameCheck ++ leBytes 4 (b2n phase * 2 ^ 31)

/-- Write the completion record; one of an old generation is not written (R373). -/
def Die.jobRecord (d : Die) (q : Nat) (j : Job) (r : JobRes) : Die :=
  let stale := match d.jobTen q with
    | some t => decide ((d.ten t).gen ≠ j.gen)
    | none => false
  if stale then ((d.count R.tenStaleDiscard 1).event R.tenEvent 1).endJob q j r false
  else
    let a := (d.act (R.cjeQcq q)).toNat * 4096 + 32 * j.idx
    let ws := lineWrites ((r.bytes j (!(d.job q).pass)).zipIdx.map fun (x : Nat × Nat) => (a + x.2, x.1))
    let d1 := d.setJobNow q { j with phase := .record, res := some r }
    match d1.jobTxns q j.kidx .wr ws with
    | .ok d2 => d2
    | .error (_, d2) => d2.endJob q j r false

/-- A job fails whole: nothing it reports has happened (R318); what its buffers hold carries no meaning. -/
def Die.failJob (d : Die) (q : Nat) (j : Job) (status : Nat) (bufs : List (Nat × Nat)) : Die :=
  let s := (d.job q).stream
  let r : JobRes := { status := status, inBytes := 0, outBytes := 0, bufs := 0, crc := s.crc ^^^ 0xffffffff, frameCheck := 0, stream := s }
  if bufs = [] ∨ j.func = 5 then d.jobRecord q j r
  else
    let ls := (bufs.flatMap fun (b : Nat × Nat) => linesOf b.1 b.2).eraseDups
    let inside (a : Nat) : Bool := bufs.any fun (b : Nat × Nat) => decide (b.1 ≤ a) && decide (a < b.1 + b.2)
    let mask (l : Nat) : BitVec 64 := BitVec.ofNat 64 ((List.range 64).foldl (fun x i => if inside (l + i) then x + 2 ^ i else x) 0)
    let ws := ls.zipIdx.map fun (x : Nat × Nat) => (x.1, Config.scratch (d.draws + x.2), mask x.1)
    let d1 := { d with draws := d.draws + ls.length }.setJobNow q { j with phase := .write, res := some r }
    match d1.jobTxns q j.kidx .wr ws with
    | .ok d2 => d2
    | .error (_, d2) => d2

/-- Engines of a kind in use and in service: compressors, decompressors, pane-format units (R315). -/
def engineKind (func : Nat) : Option Nat :=
  match func with
  | 1 => some 0
  | 2 => some 1
  | 3 | 4 => some 2
  | _ => none
def Die.engineFree (d : Die) (k : Nat) : Bool :=
  let busy := (d.jobs.filter fun (x : Nat × JobQ) => match x.2.job with
    | some j => decide (engineKind j.func = some k) && decide (j.phase ≠ .fetch)
    | none => false).length
  decide (busy + Tbl.get 0 d.flt.cjeOut k < [8, 8, 2].getD k 0)

/-- The descriptor has come: read the source and the chain list. -/
def Die.startJob (d : Die) (q : Nat) (j : Job) : Die :=
  if j.descBad (d.job q).stream then d.failJob q j St.descInvalid []
  else if (engineKind j.func).any fun k => !d.engineFree k then d
  else
    let lines := (linesOf j.src j.srcLen ++ linesOf j.chain (16 * d.jobChain q j)).eraseDups
    let j1 : Job := { j with phase := .read, got := [], rerun := false }
    match (d.setJobNow q j1).jobTxns q j.kidx .rd (lines.map fun a => (a, 0, 0)) with
    | .ok d1 => d1
    | .error (st, d1) => d1.failJob q { j1 with got := [] } st []

/-- Everything was read: run the function and write the output. -/
def Die.runJob (d : Die) (q : Nat) (j : Job) : Die :=
  let s := j.stream (d.job q).stream
  match d.jobBytes q j j.src j.srcLen, d.jobBytes q j j.chain (16 * d.jobChain q j) with
  | some bs, some chain =>
    match jobBufs j chain with
    | none => d.failJob q j St.descInvalid []
    | some bufs =>
      match makeJob (fld (d.act R.cjeCfg) 8 0) j s bs with
      | .error st => d.failJob q j st bufs
      | .ok m =>
        let laid := layOut bufs m.out
        if laid.2 ≠ [] then d.failJob q j St.outputOverflow bufs
        else
          let crc := m.stream.crc ^^^ 0xffffffff
          let mismatch := j.op.testBit 10 && decide (j.func = 2 ∨ j.func = 4) && decide (j.flush = 3) && decide (crc ≠ j.le 44 4)
          let r : JobRes :=
            { status := if mismatch then St.crcMismatch else St.success, inBytes := m.used, outBytes := m.out.length,
              bufs := bufsUsed bufs m.out.length, crc := crc, frameCheck := m.check,
              stream := if j.flush = 3 then Stream.init else m.stream }
          let d1 := d.setJobNow q { j with phase := .write, res := some r }
          match d1.jobTxns q j.kidx .wr (lineWrites laid.1) with
          | .ok d2 => d2
          | .error (st, d2) => d2.failJob q j st []
  | _, _ => d.failJob q j (j.lost St.poisonRead) [(j.dst, j.dstLen)]

/-- What a write refused by memory ends a job with: no room in a mapped bay, or a page that takes no store. -/
def Die.writeStatus (d : Die) (q : Nat) (j : Job) : Nat :=
  match d.jobPlace (d.jobTen q) j.dst with
  | some (e, _, _) => if mappedBay (d.bt e).dlaBay then St.storeFull else St.majorEnd
  | none => St.storeFull

/-- One step of a running job, once its requests have come back (R315). -/
def Die.jobStep (d : Die) (q : Nat) : Die :=
  match (d.job q).job with
  | none => d
  | some j =>
    if d.jobBusy q then d
    else if j.rerun ∧ j.phase ≠ .fetch ∧ j.phase ≠ .record then d.startJob q j
    else match j.phase with
      | .fetch =>
        if j.desc ≠ [] then d.startJob q j
        else match j.got with
          | (_, some l) :: _ =>
            let j1 : Job := { j with desc := lineBytes l }
            (d.setJobNow q j1).startJob q j1
          | _ => d.dropJob q j (j.lost St.poisonRead)
      | .read => d.runJob q j
      | .write =>
        match j.res with
        | some r =>
          if j.wfail ∧ r.status = St.success then d.failJob q { j with wfail := false } (j.lost (d.writeStatus q j)) []
          else d.jobRecord q j r
        | none => d
      | .record =>
        match j.res with
        | some r => d.endJob q j r !j.wfail
        | none => d

/-- JOB_FETCH: the engine fetches the next descriptor of a queue (R259, R314, R315). -/
def Die.jobFetch (d : Die) (q : Nat) : Die :=
  let x := d.job q
  if d.nextQueue ≠ some q then d
  else
    let ten := d.jobTen q
    let k := fld (d.act (R.cjeQkey q)) 11 0
    let j : Job :=
      { idx := x.head, desc := [], gen := match ten with | some t => (d.ten t).gen | none => 0, kidx := k, phase := .fetch, got := [],
        wfail := false, barred := false, res := none, rerun := false }
    let d1 := { d with jobTurn := q }.setJob q { x with job := some j }
    if !d.jobKeyOk ten k ∨ !d.live? k then (d1.keyRefuse 9 (d.jobTenNo q) 0 k).dropJob q j St.keyRefused
    else match d1.jobTxns q k .rd [((d.act (R.cjeQsq q)).toNat * 4096 + 64 * x.head, 0, 0)] with
      | .ok d2 => d2
      | .error (st, d2) => d2.dropJob q j st

/-- The job engine fetches no job while its domain is off or the device is in doorstop (R479, R490, R517). -/
def Die.engineRuns (d : Die) : Bool := d.moverRuns

def execJobFetch (q : Nat) (s : State) : Host.Outcome State Fault Refusal :=
  onLive s fun d => if d.engineRuns then d.jobFetch q else d
def execJobComplete (q : Nat) (s : State) : Host.Outcome State Fault Refusal := onLive s fun d => d.jobStep q

/-! ## The doorbell (R311) -/

/-- A doorbell in a tenant LD's window: those of its own tenancy's queues (R311, R572); elsewhere there is no register (R567). -/
def Die.ldDoorbell (d : Die) (src : Src) (q tail : Nat) : Die :=
  if q < 64 ∧ (d.ldTenancy src).isSome ∧ d.jobTen q = d.ldTenancy src then d.active.memWake.regW (R.cjeDb q) (BitVec.ofNat 32 (tail % 4096))
  else d.active

def execJobDoorbell (src : Src) (q tail : Nat) (s : State) : Host.Outcome State Fault Refusal :=
  onWindow s src (ld := fun d => d.ldDoorbell src q tail) fun d =>
    let d := d.active.memWake
    let bad := match d.jobTen q with
      | some t => decide (src.master < 6) && decide (d.tenPort t ≠ src.port)
      | none => false
    if 64 ≤ q then d else if bad then d.rejectWrite src (R.cjeDb q) else d.regW (R.cjeDb q) (BitVec.ofNat 32 (tail % 4096))

/-! ## Queue commands -/

def execQSetup (h : Hdr) (q cfg key sq cq : Nat) (s : State) : Host.Outcome State Fault Refusal :=
  onCmd s fun d => d.command h 0x0700 [.f] 17 fun d =>
    let c : Reg := BitVec.ofNat 32 cfg
    let ten := if bit c 28 then some (fld c 9 0) else none
    if 63 < q then d.fail h 0x0700 St.badParam 16
    else match firstRsv [(17, R.cjeQcfg q, cfg), (21, R.cjeQkey q, key), (25, R.cjeQsq q, sq), (29, R.cjeQcq q, cq)] with
      | some o => d.fail h 0x0700 St.badParam o
      | none =>
        if (d.job q).st ≠ 0 then d.fail h 0x0700 St.queueRunning q
        else if ten.any fun t => decide ((d.ten t).st = .free) then d.fail h 0x0700 St.notFound 17
        else if !d.jobKeyOk ten key then d.fail h 0x0700 St.keyRefused key
        else if !d.live? key then d.fail h 0x0700 St.keyNotLive key
        else d.commitFor .cje (.qSetup h q cfg key sq cq)
          [(R.cjeQcfg q, cfg), (R.cjeQkey q, key), (R.cjeQsq q, sq), (R.cjeQcq q, cq)]

/-- A tenant reaches only queues bound to its tenancy (R394). -/
def Die.queueParam (d : Die) (h : Hdr) (op q : Nat) (body : Die) : Die :=
  if 63 < q then d.fail h op St.badParam 16
  else if d.asTenant h op ∧ d.jobTen q ≠ some (hdrTen h) then d.fail h op St.notPermitted 0
  else body

def execQRestart (h : Hdr) (q : Nat) (s : State) : Host.Outcome State Fault Refusal :=
  onCmd s fun d => d.command h 0x0701 [.f, .t] 1 fun d => d.queueParam h 0x0701 q
    (if (d.job q).st = 0 then d.fail h 0x0701 St.notFound 16
     else (d.setJob q { (d.job q) with st := 1 }).ok h 0x0701 [])

def execQDisable (h : Hdr) (q : Nat) (s : State) : Host.Outcome State Fault Refusal :=
  onCmd s fun d => d.longCommand h 0x0702 [.f] 1 fun d =>
    if 63 < q then d.fail h 0x0702 St.badParam 16
    else if (d.job q).st = 0 then d.ok h 0x0702 []
    else if (d.job q).disabling.isSome then d.fail h 0x0702 St.queueRunning q
    else if (d.job q).job.isSome then (d.setJob q { (d.job q) with disabling := some h }).interim h 0x0702
    else
      let d1 := (d.setJob q { (d.job q) with st := 2 }).interim h 0x0702
      d1.commitFor .cje (.qDisable h q) [(R.cjeQcfg q, (setFld (d1.qcfg q) 31 31 0).toNat)]

def execQQuery (h : Hdr) (q : Nat) (s : State) : Host.Outcome State Fault Refusal :=
  onCmd s fun d => d.command h 0x0703 [.f, .t] 1 fun d => d.queueParam h 0x0703 q
    (d.ok h 0x0703 [(4, (d.qcfg q).toNat), (4, (d.qStat q).toNat)])

def Die.afterQueue (d : Die) (c : Instr) : Die :=
  match c with
  | .qSetup h q _ _ _ _ =>
    let d1 := d.setJob q { JobQ.init with st := if bit (d.qcfg q) 31 then 1 else 0 }
    (d1.regW (R.cjeDb q) 0).ok h 0x0700 []
  | .qDisable h q => (d.setJob q { (d.job q) with st := 0, stream := Stream.init }).ok h 0x0702 []
  | _ => d

end Sys2Proof.Machine
end

