-- ==== Sys2Proof/Machine/Worlds.lean ====
section
/-! DEFINITION. Machine/Worlds.lean: the gate on the management cores (R421–R425), the debug enables (R426–R430), the debug access
path (R429), and the seal of the key slots (R431–R434). -/

namespace Sys2Proof.Machine

/-! ## Cores -/

def Die.core (d : Die) (k : Nat) : Core := (d.dbg.cores.find? k).getD Core.init
def Die.setCore (d : Die) (k : Nat) (c : Core) : Die := { d with dbg := { d.dbg with cores := d.dbg.cores.set Core.init k c } }

/-- A core of the management complex as the source of an access (R410). -/
def coreSrc (secure : Bool) : Src := { master := 13, port := 0, secure := secure, jtag := false }

/-- Core `k` runs: it exists, is not halted, not fenced. -/
def Die.coreRuns (d : Die) (k : Nat) : Bool := decide (k < 4) && !(d.core k).halted && !d.flt.dead.contains (0xa8 + k)

/-- An entry point of the gate page (R421). -/
def entryPoint (offset : Nat) : Bool := decide (offset ≤ 0xf80 ∧ offset % 0x40 = 0)

/-- The secure ROM and the secure part of management SRAM (R422, R438). -/
def Die.secureCode (d : Die) (a : Nat) : Bool :=
  let n := fld (d.regR R.mulWorld) 3 0
  decide (a < 2 ^ 20) || (decide (n ≠ 0) && Config.inSecureSram n a)

/-- An access of core `c` in world `secure` hits a line of its caches: never a secure line from the normal world (R424). -/
def Core.hits (c : Core) (a : Nat) : Bool := c.lines.any fun l => l.1 == a / 64 && (c.secure || !l.2)
/-- A line filled by an access of the core's present world (R424). -/
def Core.fill (c : Core) (a : Nat) : Core :=
  { c with lines := (a / 64, c.secure) :: c.lines.filter (fun (l : Nat × Bool) => decide (l.1 ≠ a / 64)) }

/-- The core takes an instruction access fault at `a`: its trap goes to the vector of its own world (R422). -/
def Core.trap (c : Core) (a : Nat) : Core :=
  { c with epc := a, cause := 1, tval := a, pc := if c.secure then c.secVec else c.vec, resv := false }

/-- A fetch by a core that stays in its world (R421, R422, R424): a hit asks nobody; a secure core traps outside the secure ROM and SRAM,
a normal one inside, where the access is recorded too. -/
def Die.coreFetch (d : Die) (k a : Nat) : Die :=
  let c := d.core k
  if c.hits a then d.setCore k { c with pc := a }
  else if c.secure = d.secureCode a then d.setCore k { c.fill a with pc := a }
  else
    let d1 := d.setCore k (c.trap a)
    if c.secure then d1 else d1.windowDeny (coreSrc false) a false

/-- A fetch by core `k` of the address `offset` of the management complex, whose first 4 KiB are the gate page (R421, R425). -/
def Die.gateEntry (d : Die) (k offset ret : Nat) : Die :=
  let c := d.core k
  if !d.coreRuns k then d
  else if !c.secure ∧ entryPoint offset ∧ bit (d.regR R.mulWorld) (24 + k) then
    d.setCore k (Core.fill { c with secure := true, ret := ret % 2 ^ 64, pc := offset, held := true } offset)
  else d.coreFetch k offset

def execGateEntry (core offset returnAddr : Nat) (s : State) : Host.Outcome State Fault Refusal :=
  onLive s fun d => d.active.gateEntry core offset returnAddr

/-- A fetch that may be that of the exit point (R423): the secure world's registers are cleared, the core resumes at its gate return
register, a held halt takes effect there (R428). -/
def Die.gateExit (d : Die) (k offset : Nat) : Die :=
  let c := d.core k
  if !d.coreRuns k then d
  else if !c.secure ∨ offset ≠ 0xfc0 then d.coreFetch k offset
  else d.setCore k
    { c with secure := false, held := false, pc := c.ret, x := c.x.filter (fun (e : Nat × Nat) => decide (e.1 = 10 ∨ e.1 = 11)), f := [],
             fcsr := 0, resv := false, halted := c.haltHeld, haltHeld := false }

def execGateExit (core offset : Nat) (s : State) : Host.Outcome State Fault Refusal :=
  onLive s fun d => d.active.gateExit core offset

/-! ## The enables (R426–R430) -/

/-- Effective peepholes: each invasive enable implies its own. -/
def Die.np (d : Die) : Bool := d.dbg.np || d.dbg.ni
def Die.sp (d : Die) : Bool := d.dbg.sp || d.dbg.si

/-- A halt request reaches a core (R426, R428). -/
def Die.haltCore (d : Die) (k : Nat) : Die :=
  let c := d.core k
  if 4 ≤ k ∨ c.halted then d
  else if c.secure then
    if d.dbg.si then d.setCore k { c with halted := true } else if d.dbg.ni then d.setCore k { c with haltHeld := true } else d
  else if d.dbg.ni then d.setCore k { c with halted := true }
  else d

/-- A JTAG halt is also a wake source (R482), in SL3 too. -/
def execDebugHalt (core : Nat) (s : State) : Host.Outcome State Fault Refusal :=
  onDie s fun d => if d.boot.hold then d else (if d.live then d.haltCore core else d).wake 12

/-- Resume every core halted under an enable that is cleared (R430). -/
def Die.resumeCores (d : Die) (secure : Bool) : Die :=
  (List.range 4).foldl (fun (d : Die) k =>
    let c := d.core k
    if c.secure = secure then d.setCore k { c with halted := false }
    else if secure then d else d.setCore k { c with haltHeld := false }) d

/-- NP and NI change at a boundary (R427). -/
def Die.setNormal (d : Die) (ni np : Bool) : Die :=
  let d1 := { d with dbg := { d.dbg with ni := ni, np := np } }
  let d2 := if d.dbg.ni && !ni then d1.resumeCores false else d1
  if d.dbg.ni ≠ ni ∨ d.np ≠ d1.np then d2.event R.dbgEvent 0 else d2

def execDbgNormal (h : Hdr) (invasive peephole : Nat) (s : State) : Host.Outcome State Fault Refusal :=
  onCmd s fun d => d.command h 0x0c00 [.f] 2 fun d =>
    let pol := d.regR R.mulDbgPolicy
    if 1 < invasive then d.fail h 0x0c00 St.badParam 16
    else if 1 < peephole then d.fail h 0x0c00 St.badParam 17
    else if (invasive = 1 ∧ !bit pol 1) ∨ ((invasive = 1 ∨ peephole = 1) ∧ !bit pol 0) then d.fail h 0x0c00 St.debugLocked 0
    else ({ d with dbg := { d.dbg with next := some (decide (invasive = 1), decide (peephole = 1)) } }).ok h 0x0c00 []

def execDbgBind (h : Hdr) (ten : Nat) (s : State) : Host.Outcome State Fault Refusal :=
  onCmd s fun d => d.command h 0x0c01 [.f] 2 fun d =>
    if ten = 0xffff then (d.regW R.dbgBind 0).ok h 0x0c01 []
    else d.withTen h 0x0c01 ten ((d.regW R.dbgBind (BitVec.ofNat 32 (2 ^ 31 + ten))).ok h 0x0c01 [])

/-- DBG_STAT (R438). -/
def Die.dbgStat (d : Die) : Reg :=
  let cores (p : Core → Bool) : Nat := (List.range 4).foldl (fun a k => a + b2n (p (d.core k)) * 2 ^ k) 0
  BitVec.ofNat 32 (b2n d.keys.sealed * 2 ^ 31 + cores (·.secure) * 2 ^ 12 + cores (·.halted) * 2 ^ 4 + b2n d.dbg.si * 8 +
    b2n d.sp * 4 + b2n d.dbg.ni * 2 + b2n d.np)

def execDbgQuery (h : Hdr) (s : State) : Host.Outcome State Fault Refusal :=
  onCmd s fun d => d.command h 0x0c02 [.f, .k, .s] 0 fun d => d.ok h 0x0c02 [(4, fld d.dbgStat 3 0)]

/-! ## The debug access path (R260, R429) -/

/-- A request of master 12 for a line of the bound tenancy, under an index that tenancy could use as a host: the one it selects on an FCX
port, else the bay's default key (R257, R260). -/
def Die.debugAccess (d : Die) (ta : Nat) (write : Bool) (data : Line) (key : Option Nat) : Die :=
  let r := d.regR R.dbgBind
  let t := fld r 9 0
  let none_ : Die := d.emit (.dbgData none St.notPermitted)
  if !bit r 31 || !d.dbg.ni || decide ((d.ten t).st = .free) then none_
  else match d.entryOf t ta with
    | none => (d.count R.tenNobay 1).event R.tenEvent 2 |>.emit (.dbgData none St.noBay)
    | some e =>
      let b := d.bt e
      if b.st ≠ .live then (d.count R.tenNobay 1).event R.tenEvent 2 |>.emit (.dbgData none St.noBay)
      else
        let sel := if d.portFcx (d.tenPort t) then key else none
        let k := d.remap b.dlaBay (sel.getD b.defKey)
        let dla := b.dlaBay * 2 ^ 30 + ta % 2 ^ 30 / 64 * 64
        let op := if write then Op.wr else .rd
        if d.keyRefused t e k.1 sel.isSome k.2 write then (d.keyRefuse 12 t ta k.1).emit (.dbgData none St.keyRefused)
        else
          d.toHome (d.newTxn (internalHdr 12 0 ta) op t e dla k.1 4 data (BitVec.allOnes 64))

def execDebugAccess (ta : Nat) (write : Bool) (x : DbgData) (s : State) : Host.Outcome State Fault Refusal :=
  onLive s fun d => d.debugAccess ta write x.line x.key

/-! ## The seal (R431–R434) -/

/-- Seal the key slots at a boundary: every key is zeroed, every retirement ends, the bays to erase are listed, pending images
go. -/
def Die.sealKeys (d : Die) : Die :=
  let held := (d.keys.slots.filter fun (e : Nat × Slot) => decide (e.2.st ≠ .sealed)).map Prod.fst
  let slots := d.keys.slots.map fun (e : Nat × Slot) => (e.1, ({ e.2 with st := .sealed, key := 0 } : Slot))
  let cx := (d.keys.rets.filterMap (·.cxl)).eraseDups
  let bays := (d.tens.bays.filter fun (b : Nat × BayRec) => b.2.keyList.any held.contains).map Prod.fst
  let d1 := { d with keys := { d.keys with slots := slots, sealed := true, rets := [] },
                     itr := { d.itr with pend := [] },
                     dbg := { d.dbg with erase := (d.dbg.erase ++ bays).eraseDups, refused := [], siAt := some (d.time + 50) } }
  (cx.foldl Die.cxlDone d1).event R.dbgEvent 2

/-- A SECURE_DEBUG proposal commits (R426, R431, R434). -/
def Die.setSecure (d : Die) (si sp : Bool) : Die :=
  if si then
    let d1 := { d with dbg := { d.dbg with sp := sp } }
    let d2 := if d1.sp ≠ d.sp then d1.event R.dbgEvent 1 else d1
    if d.dbg.si || d.dbg.siAt.isSome then d2 else d2.sealKeys
  else
    let d1 := { d with dbg := { d.dbg with si := false, sp := sp, siAt := none }, keys := { d.keys with sealed := false } }
    let d2 := if d.dbg.si then d1.resumeCores true else d1
    if d.dbg.si ∨ d.sp ≠ d1.sp then d2.event R.dbgEvent 1 else d2

/-- The zeroing of a seal is complete: SI is granted. -/
def Die.grantSi (d : Die) : Die :=
  match d.dbg.siAt with
  | some t => if t ≤ d.time then { d with dbg := { d.dbg with si := true, siAt := none } }.event R.dbgEvent 1 else d
  | none => d

/-- Debug enables at a boundary (R427, R431). -/
def Die.debugBoundary (d : Die) : Die :=
  let d1 := d.grantSi
  let pol := d1.regR R.mulDbgPolicy
  match d1.dbg.next with
  | some (ni, np) => { d1 with dbg := { d1.dbg with next := none } }.setNormal (ni && bit pol 1) (np && bit pol 0)
  | none => d1

end Sys2Proof.Machine
end

