-- ==== Sys2Proof/Machine/Deadbolt.lean ====
section
/-! DEFINITION. Machine/Deadbolt.lean: the two-party lock (R403–R408): the claim, proposals, signatures, what each KIND checks (R103,
R252, R405, R420, R440) and what it changes at its commit (R71 step 2). -/

namespace Sys2Proof.Machine

/-! ## Secrets and digests (R403–R405) -/

/-- First keep register of a party's secret: 1 keeper, 2 steward (R559). -/
def secretBase (party : Nat) : Nat := if party = 1 then 1000 else 1012

/-- A party's 48 B secret. -/
def Die.secret (d : Die) (party : Nat) : List Nat := (range' (secretBase party) 12).flatMap fun k => leBytes 4 (d.keep k).toNat

def Die.storeSecret (d : Die) (party v : Nat) : Die :=
  (List.range 12).foldl (fun (d : Die) i => d.keepWrite (secretBase party + i) (BitVec.ofNat 32 (v / 2 ^ (32 * i)))) d

def Proposal.digest (p : Proposal) : List Nat := sha384 (p.head ++ p.body)

/-- What a party's signature over a proposal must be. -/
def Die.signature (d : Die) (p : Proposal) (party : Nat) : Nat :=
  ofLe (hmac384 (d.secret party) (p.digest ++ [party] ++ leBytes 4 p.id))

/-- The window of a claim and of a proposal: 10 s. -/
def dblWindow : Nat := 1000000000

/-- The party of a transport. -/
def partyOf : Via → Nat
  | .steward _ => 2
  | _ => 1

/-! ## The claim -/

def Die.setDbl (d : Die) (x : Dbl) : Die := { d with dbl := x }

/-- A claim still waiting for the steward. -/
def Die.claimNow (d : Die) : Option Claim := d.dbl.claim.filter fun (c : Claim) => decide (d.time ≤ c.time + dblWindow)

/-- K996 and K997 follow the deadbolt's state (R559). -/
def Die.keepDbl (d : Die) : Die :=
  let x := d.dbl
  (d.keepWrite 996 (BitVec.ofNat 32 (if x.owned then 2 ^ 31 + x.port % 8 * 2 ^ 28 + x.eid % 256 else 0))).keepWrite 997
    (BitVec.ofNat 32 x.changes)

def Die.claimDevice (d : Die) (h : Hdr) (secret port : Nat) : Die :=
  if d.dbl.owned then d.fail h 0x0d00 St.deadboltOwned 0
  else match h.via with
    | .mctp eid _ =>
      if 5 < port then d.fail h 0x0d00 St.badParam 64
      else (d.setDbl { d.dbl with claim := some { eid := eid, secret := secret, port := port, time := d.time } }).ok h 0x0d00 []
    | .steward p =>
      match d.claimNow with
      | some c =>
        if c.port ≠ p then d.fail h 0x0d00 St.notPermitted 0
        else
          let d1 := (d.storeSecret 1 c.secret).storeSecret 2 secret
          let x : Dbl := { d1.dbl with owned := true, port := p, eid := c.eid, changes := 0, claim := none }
          ((d1.setDbl x).keepDbl).ok h 0x0d00 []
      | none => (d.setDbl { d.dbl with claim := none }).fail h 0x0d00 St.notPermitted 0
    | _ => d.fail h 0x0d00 St.notPermitted 0

def execDblClaim (h : Hdr) (secret stewardPort : Nat) (s : State) : Host.Outcome State Fault Refusal :=
  onCmd s fun d => d.command h 0x0d00 [.k, .s] (if partyOf h.via = 1 then 49 else 48) fun d =>
    d.claimDevice h (secret % 2 ^ 384) stewardPort

/-- The steward's claim did not come within 10 s. -/
def execClaimTimeout (s : State) : Host.Outcome State Fault Refusal :=
  onLive s fun d => if d.claimNow.isNone then d.setDbl { d.dbl with claim := none } else d

/-! ## What a body must be -/

def Die.putRegion (d : Die) (e : RegionEnt) : Die :=
  let i := 64 * e.ctl + e.region
  d.regWs [(R.mulBase i, BitVec.ofNat 32 e.base), (R.mulLim i, BitVec.ofNat 32 e.lim), (R.mulMask i, BitVec.ofNat 32 e.mask),
           (R.mulCtl i, BitVec.ofNat 32 e.word)]

/-- The regions of R418 of a controller: first page, last page, who may read, who may write. -/
def Die.needRegions (d : Die) (c : Nat) : List (Nat × Nat × List Nat × List Nat) :=
  if c = 16 then
    [(0, 0xfffff, [10], [10]), (0x100000, 0x4fffff, [8, 14], [14]), (0x500000, 0x5fffff, [14], [14])]
  else match (List.range 16).find? fun n => (d.setInfo n).valid && (d.setChannels n).contains c with
    | some n =>
      let s := d.setInfo n
      let ids := [0, 1, 2, 3, 4, 5, 8, 9]
      [(s.base * 2 ^ 18, (s.base + s.data) * 2 ^ 18 - 1, ids, ids), ((s.base + s.data) * 2 ^ 18, (s.base + s.total) * 2 ^ 18 - 1, [10], [10])]
    | none => []

/-- Pages at which the verdict of a controller's regions can change inside a range. -/
def Die.edges (d : Die) (c lo hi : Nat) : List Nat :=
  lo :: ((List.range 64).flatMap fun n =>
    let i := 64 * c + n
    if bit (d.regR (R.mulCtl i)) 31 then [(d.regR (R.mulBase i)).toNat, (d.regR (R.mulLim i)).toNat + 1] else []).filter fun p =>
      decide (lo ≤ p) && decide (p ≤ hi)

/-- The regions break nothing the data path or the metadata depends on, and open nothing R206 or R352 closes (R420). -/
def Die.regionsOk (d : Die) : Bool :=
  (List.range 17).all fun c => (d.needRegions c).all fun r =>
    (d.edges c r.1 r.2.1).all fun p =>
      let data := decide (c < 16) && r.2.2.1.contains 0
      (List.range 16).all fun m => [false, true].all fun w =>
        let may (sec : Bool) : Bool := d.regionOk c (p * 4096) m w sec
        if (if w then r.2.2.2 else r.2.2.1).contains m then may (decide (m = 10 ∨ m = 14))
        else data || !(may true)

/-- A REGION body that may not be proposed. -/
def Die.regionBad (d : Die) (b : List Nat) : Bool :=
  let es := regionEnts b
  (es.any fun e => decide (16 < e.ctl ∨ 63 < e.region ∨ e.lim < e.base) || decide (e.word % 2 ^ 30 ≠ 0)) ||
  !(es.foldl Die.putRegion d).regionsOk

/-- A WORLD body that may not be proposed (R440). -/
def Die.worldBad (d : Die) (b : List Nat) : Option Nat :=
  let w : Reg := BitVec.ofNat 32 (u32At b 0)
  let k := fld w 17 8
  if rsvBad R.mulWorld w.toNat ∨ fld w 3 0 = 0 ∨ fld w 27 24 = 0 ∨ k < 512 ∨ 960 < k ∨ k % 16 ≠ 0 ∨
      (List.range 4).any (fun i => (d.core i).secure && !bit w (24 + i)) then some 18
  else if rsvBad R.mulDbgPolicy (u32At b 4) then some 22
  else none

/-- Lowered caps under which a contract would fail the sweep (R103). -/
def Die.capHeld (d : Die) (v : Reg) : Bool :=
  let old := d.regR R.trsCap
  let d1 := d.regW R.trsCap v
  let d2 := { d1 with trs := { d1.trs with capQ := ((List.range 16).map fun c => (c, d1.chanCap c)) } }
  let cs := d.contracts.filter Contract.live
  decide (fld v 6 0 < fld old 6 0 ∨ fld v 14 8 < fld old 14 8) &&
    decide ((d2.sweepFits (fun p => min (d2.capPort p) (d2.portCapAt d2.pwr.level p)) cs).length ≠ cs.length)

/-- The body check of a KIND (R405): status and DETAIL of the first that fails. -/
def Die.bodyBad (d : Die) (kind : Nat) (b : List Nat) : Option (Nat × Nat) :=
  let len (n : Nat) : Option (Nat × Nat) := if b.length = n then none else some (St.badLength, 8)
  let bad (c : Bool) (o : Nat) : Option (Nat × Nat) := if c then some (St.badParam, o) else none
  match kind with
  | 1 =>
    let f := u16At b 0; let n := u16At b 2
    let free (k : Nat) : Bool := decide ((d.slot k).st = .free ∨ (d.slot k).st = .sealed)
    (len 4) <|> (bad d.keys.sealed 18) <|> (bad (decide (n = 0 ∨ 256 < n)) 20) <|> (bad (decide (4096 < f + n)) 18) <|>
      (bad (!(range' f n).all free) 18)
  | 2 =>
    let n := u16At b 0
    if b.length < 2 then some (St.badLength, 8)
    else (bad (decide (n = 0 ∨ 64 < n)) 18) <|> (len (2 + 18 * n)) <|> (bad (d.regionBad b) 20)
  | 3 => (len 8) <|> ((d.worldBad b).map fun o => (St.badParam, o))
  | 4 => (len 2) <|> (bad (decide (1 < b.getD 0 0)) 18) <|> (bad (decide (1 < b.getD 1 0)) 19)
  | 5 =>
    let v : Reg := BitVec.ofNat 32 (u32At b 0)
    (len 4) <|> (bad (rsvBad R.trsCap v.toNat || decide (fld v 6 0 < 50 ∨ 90 < fld v 6 0 ∨ fld v 14 8 < 50 ∨ 90 < fld v 14 8)) 18) <|>
      (if d.capHeld v then some (St.capacityHeld, 0) else none)
  | 6 => (len 4) <|> (bad (rsvBad R.mgtFmPorts (u32At b 0)) 18)
  | 7 => len 0
  | _ => some (St.badParam, 16)

/-! ## Proposals -/

/-- The header the device fills (R404). -/
def Die.propHead (d : Die) (kind party id nonce len : Nat) : List Nat :=
  leBytes 2 kind ++ [party, 0] ++ leBytes 4 id ++ leBytes 8 d.time ++ leBytes 16 nonce ++ leBytes 8 Config.uid.toNat ++ leBytes 4 len ++
    leBytes 4 d.dbl.changes ++ leBytes 16 0

def Die.setProp (d : Die) (p : Proposal) : Die :=
  d.setDbl { d.dbl with props := d.dbl.props.map fun (x : Proposal) => if x.id = p.id then p else x }

/-- A proposal closes without a commit. -/
def Die.closeProp (d : Die) (id status : Nat) : Die :=
  d.setDbl { d.dbl with props := d.dbl.props.filter (fun (x : Proposal) => decide (x.id ≠ id)), closed := (id, status) :: d.dbl.closed }

/-- Proposals whose 10 s have passed unsigned by both close. -/
def Die.expireProps (d : Die) : Die :=
  (d.dbl.props.filter fun (p : Proposal) => p.commit.isNone && decide (p.time + dblWindow < d.time)).foldl
    (fun (d : Die) (p : Proposal) => d.closeProp p.id St.deadboltExpired) d

def bytesPay (b : List Nat) : PayVal := (b.length, ofLe b)

def Die.dblPropose (d : Die) (h : Hdr) (kind : Nat) (body : List Nat) : Die :=
  if !d.dbl.owned then d.fail h 0x0d01 St.deadboltUnowned 0
  else match d.bodyBad kind body with
    | some (st, x) => d.fail h 0x0d01 st x
    | none =>
      if (d.dbl.props.any fun (p : Proposal) => decide (p.kind = kind)) ∨ 4 ≤ d.dbl.props.length then d.fail h 0x0d01 St.deadboltConflict 0
      else
        let r := d.draw
        let id := d.dbl.nextId
        let head := d.propHead kind (partyOf h.via) id (r.1 % 2 ^ 128) body.length
        let p : Proposal :=
          { id := id, kind := kind, proposer := partyOf h.via, time := d.time, head := head, body := body, keeperSigned := false,
            stewardSigned := false, bad := 0, commit := none }
        let d1 := r.2.setDbl { r.2.dbl with nextId := (id + 1) % 2 ^ 32, props := r.2.dbl.props ++ [p] }
        d1.ok h 0x0d01 [(4, id), bytesPay head, bytesPay p.digest, (8, d.time + dblWindow)]

def execDblPropose (h : Hdr) (kind : Nat) (body : List Byte) (s : State) : Host.Outcome State Fault Refusal :=
  onCmd s fun d => d.command h 0x0d01 [.k, .s] (2 + body.length) fun d => d.expireProps.dblPropose h kind (body.map fun b => b.toNat)

/-- A proposal by ID: one that closed answers with the status that closed it. -/
def Die.withProp (d : Die) (h : Hdr) (op id : Nat) (body : Proposal → Die) : Die :=
  match d.dbl.props.find? fun (p : Proposal) => decide (p.id = id) with
  | some p => body p
  | none =>
    match List.find? (fun (x : Nat × Nat) => decide (x.1 = id)) d.dbl.closed with
    | some (_, st) => d.fail h op st 0
    | none => d.fail h op St.notFound 16

def execDblGet (h : Hdr) (id : Nat) (s : State) : Host.Outcome State Fault Refusal :=
  onCmd s fun d => d.command h 0x0d02 [.k, .s] 4 fun d =>
    let d := d.expireProps
    d.withProp h 0x0d02 id fun p =>
      d.ok h 0x0d02 [bytesPay p.head, bytesPay p.body, bytesPay p.digest, (1, b2n p.keeperSigned + 2 * b2n p.stewardSigned)]

/-- Add a signature (R405, R406). -/
def Die.sign (d : Die) (h : Hdr) (p : Proposal) (mac : Nat) : Die :=
  let me := partyOf h.via
  let signed := if me = 1 then p.keeperSigned else p.stewardSigned
  if signed ∨ p.commit.isSome then d.fail h 0x0d03 St.deadboltSameParty 0
  else if mac ≠ d.signature p me then
    if mac = d.signature p (3 - me) then d.fail h 0x0d03 St.deadboltSameParty 0
    else
      let d1 := d.record unitDbl 0x65 0 0xff 0xffff 0 p.id
      if 2 ≤ p.bad then (d1.closeProp p.id St.deadboltCancelled).fail h 0x0d03 St.deadboltCancelled 0
      else (d1.setProp { p with bad := p.bad + 1 }).fail h 0x0d03 St.deadboltSigBad 0
  else
    let p1 : Proposal := { p with keeperSigned := p.keeperSigned || decide (me = 1), stewardSigned := p.stewardSigned || decide (me = 2) }
    if !(p1.keeperSigned && p1.stewardSigned) then (d.setProp p1).ok h 0x0d03 [(1, 0), (8, 0)]
    else match d.bodyBad p.kind p.body with
      | some (st, x) => d.fail h 0x0d03 st x
      | none =>
        let b := d.transom + 2
        (d.setProp { p1 with commit := some b }).ok h 0x0d03 [(1, 1), (8, b)]

def execDblSign (h : Hdr) (id hmac : Nat) (s : State) : Host.Outcome State Fault Refusal :=
  onCmd s fun d => d.command h 0x0d03 [.k, .s] 52 fun d =>
    let d := d.expireProps
    d.withProp h 0x0d03 id fun p => d.sign h p (hmac % 2 ^ 384)

def execDblWithdraw (h : Hdr) (id : Nat) (s : State) : Host.Outcome State Fault Refusal :=
  onCmd s fun d => d.command h 0x0d04 [.k, .s] 4 fun d =>
    let d := d.expireProps
    d.withProp h 0x0d04 id fun p =>
      if p.commit.isSome then d.fail h 0x0d04 St.badParam 16 else (d.closeProp p.id St.deadboltCancelled).ok h 0x0d04 []

/-- DBL_STAT (R408). -/
def Die.dblStat (d : Die) : Reg :=
  let x := d.dbl
  BitVec.ofNat 32 (b2n x.owned * 2 ^ 31 + (if x.owned then x.port % 8 else 0) * 2 ^ 28 + x.props.length * 2 ^ 25 + x.changes % 2 ^ 25)

def execDblStatus (h : Hdr) (s : State) : Host.Outcome State Fault Refusal :=
  onCmd s fun d => d.command h 0x0d05 [.f, .k, .s, .t] 0 fun d =>
    let d := d.expireProps
    d.ok h 0x0d05 ((4, d.dblStat.toNat) :: payList 4 (d.dbl.props.map fun (p : Proposal) => p.id))

/-! ## Commits (R71 step 2, R406) -/

/-- Load `n` slots from `f` in ascending order (R252). -/
def Die.loadKeys (d : Die) (f n : Nat) : Die :=
  (range' f n).foldl (fun (d : Die) k =>
    let r := d.draw
    let seq := (r.2.keys.loadSeq + 1) % 2 ^ 32
    ({ r.2 with keys := { r.2.keys with loadSeq := seq } }).setSlot k { st := .live, seq := seq, key := r.1 % 2 ^ 256 }) d

/-- A WORLD change (R427, R440, R559): what moves between worlds is zeroed, the keep store keeps the new values, an enable whose
policy bit clears is cleared. -/
def Die.setWorld (d : Die) (w pol : Reg) : Die :=
  let old := d.regR R.mulWorld
  let ka := min (fld old 17 8) (fld w 17 8); let kb := max (fld old 17 8) (fld w 17 8)
  let sa := min (fld old 3 0) (fld w 3 0) * 262144; let sb := max (fld old 3 0) (fld w 3 0) * 262144
  let d1 := (range' ka (kb - ka)).foldl (fun (d : Die) k => if d.keep k = 0 then d else d.keepWrite k 0) d
  let d2 := { d1 with boot := { d1.boot with sram := d1.boot.sram.filter fun (e : Nat × Nat) => !(decide (sa ≤ e.1) && decide (e.1 < sb)) } }
  let d3 := ((d2.regW R.mulWorld w).regW R.mulDbgPolicy pol).keepWrite 994 w
  let d4 := d3.keepWrite 995 (BitVec.ofNat 32 (3 - pol.toNat % 4))
  d4.setNormal (d4.dbg.ni && bit pol 1) (d4.dbg.np && bit pol 0)

/-- A RELEASE: both secrets are zeroed, open proposals are cancelled, the device is unowned. -/
def Die.release (d : Die) : Die :=
  let d1 := (d.storeSecret 1 0).storeSecret 2 0
  let gone := d1.dbl.props.map fun (p : Proposal) => (p.id, St.deadboltCancelled)
  (d1.setDbl { d1.dbl with owned := false, port := 0, eid := 0, props := [], closed := gone ++ d1.dbl.closed }).keepDbl

/-- One accepted change takes effect. -/
def Die.applyProp (d : Die) (p : Proposal) : Die :=
  if !(d.dbl.props.any fun (x : Proposal) => decide (x.id = p.id)) then d
  else
    let b := p.body
    let d0 := d.setDbl { d.dbl with props := d.dbl.props.filter (fun (x : Proposal) => decide (x.id ≠ p.id)),
                                    changes := min (d.dbl.changes + 1) 0x1ffffff }
    let d1 := d0.keepWrite 997 (BitVec.ofNat 32 d0.dbl.changes)
    match p.kind with
    | 1 => d1.loadKeys (u16At b 0) (u16At b 2)
    | 2 => (regionEnts b).foldl Die.putRegion d1
    | 3 => d1.setWorld (BitVec.ofNat 32 (u32At b 0)) (BitVec.ofNat 32 (u32At b 4))
    | 4 => d1.setSecure (decide (b.getD 0 0 = 1)) (decide (b.getD 1 0 = 1))
    | 5 => d1.regW R.trsCap (BitVec.ofNat 32 (u32At b 0))
    | 6 => d1.regW R.mgtFmPorts (BitVec.ofNat 32 (u32At b 0))
    | _ => d1.release

/-- Accepted changes whose boundary has come (R71 step 2); proposals and a claim whose time has passed close. -/
def Die.deadboltBoundary (d : Die) : Die :=
  (d.dbl.props.filter fun (p : Proposal) => match p.commit with
    | some b => decide (b ≤ d.transom)
    | none => false).foldl Die.applyProp d.expireProps

end Sys2Proof.Machine
end

