-- ==== Sys2Proof/Machine/Manage.lean ====
section
/-! DEFINITION. Machine/Manage.lean: identity, capacity, notices, command rings, event enables, the Ohmoux commands of the main die,
unknown opcodes (R394–R400, R463), and GO written to a commit register (R105, R108). -/

namespace Sys2Proof.Machine

/-- Every role (R400: A). -/
def anyRole : List Role := [.f, .k, .s, .t]

/-! ## Identity and capacity -/

/-- GEN_ID (R573). -/
def genId : Nat := 0x9616 * 2 ^ 16 + 0xa0 * 2 ^ 8 + Config.grade.toNat * 2 ^ 4

/-- GEN_FW_VER: the VERSION of the image in use, 0 before step 5 (R573). -/
def Die.fwVer (d : Die) : Nat := if d.boot.step < 5 then 0 else d.imageVersion d.boot.image % 2 ^ 32

def execGetIdentity (h : Hdr) (s : State) : Host.Outcome State Fault Refusal :=
  onCmd s fun d => d.command h 0x0100 anyRole 0 fun d =>
    d.ok h 0x0100 [(2, 0x9616), (1, 0xa0), (1, Config.grade.toNat), (8, Config.uid.toNat), (4, d.fwVer), (1, d.boot.image)]

/-- Free data bays of a set. -/
def Die.freeIn (d : Die) (n : Nat) : Nat :=
  let i := d.setInfo n; let taken := d.bayTaken
  if !i.valid then 0 else ((range' i.base i.data).filter fun b => !taken.contains b).length

def execGetCapacity (h : Hdr) (s : State) : Host.Outcome State Fault Refusal :=
  onCmd s fun d => d.command h 0x0101 [.f, .k] 0 fun d =>
    let sets := (List.range 16).filter fun n => (d.setInfo n).valid
    let list := sets.flatMap fun n => [(2, (d.setInfo n).base), (2, (d.setInfo n).total), (1, (d.setChannels n).length)]
    let free := sets.foldl (fun a n => a + d.freeIn n) 0
    d.ok h 0x0101 ([(4, d.boot.gib), (2, d.boot.trainedMask), (2, sets.length)] ++ list ++ [(2, free), (2, d.pmap.stores.length)])

/-! ## Notices (R399) -/

/-- A notice as a packet of 16 B (R387): OPCODE 0, its number, its code, REPLY, PLEN 0, its DETAIL. -/
def Notice.pay (n : Notice) : List PayVal := [(2, 0), (2, n.arg0), (2, n.code), (2, 1), (4, 0), (4, n.arg1)]

/-- How many 16 B notices a transport's largest payload holds. -/
def noticeRoom (v : Via) : Nat := (payMax v - 2) / 16

def execGetNotices (h : Hdr) (max : Nat) (s : State) : Host.Outcome State Fault Refusal :=
  onCmd s fun d => d.command h 0x0102 [.f] 2 fun d =>
    let k := min max (noticeRoom h.via)
    let lost : List Notice := match d.mgt.notices with
      | n :: _ => if d.lostOn 2 = 0 then [] else [{ n with code := St.noticeLost, arg1 := d.lostOn 2 }]
      | [] => []
    let out := (lost ++ d.mgt.notices).take k
    let taken := if k = 0 then 0 else k - lost.length
    let d1 := if k ≠ 0 ∧ lost ≠ [] then d.setLost 2 0 else d
    { d1 with mgt := { d1.mgt with notices := d1.mgt.notices.drop taken } }.ok h 0x0102 ((2, out.length) :: out.flatMap Notice.pay)

/-- The ring route needs a ring of role F (R399). -/
def execSetNoticeRoute (h : Hdr) (mask eid ring : Nat) (s : State) : Host.Outcome State Fault Refusal :=
  onCmd s fun d => d.command h 0x0103 [.f, .k] 3 fun d =>
    if 7 < mask then d.fail h 0x0103 St.badParam 16
    else if mask.testBit 1 ∧ 7 < ring then d.fail h 0x0103 St.badParam 18
    else if mask.testBit 1 ∧ (!(d.ring ring).valid ∨ (d.ring ring).role ≠ 0 ∨ !d.fmPort (d.ring ring).port) then
      d.fail h 0x0103 St.notFound 18
    else { d with mgt := { d.mgt with routeMask := mask, routeEid := eid, routeRing := ring } }.ok h 0x0103 []

/-! ## Rings (R397) -/

/-- The first parameter of RING_SETUP out of range: its byte offset. -/
def badRing (ring role offset log2 vector : Nat) : Option Nat :=
  if 7 < ring then some 16
  else if 1 < role then some 17
  else if log2 = 0 then none
  else if offset % 4096 ≠ 0 ∨ 2 ^ 30 < offset + 2 ^ log2 * 1024 then some 22
  else if log2 < 4 ∨ 10 < log2 then some 26
  else if 64 ≤ vector then some 27
  else none

def execRingSetup (h : Hdr) (ring role ten bay offset log2 vector : Nat) (s : State) : Host.Outcome State Fault Refusal :=
  onCmd s fun d => d.command h 0x0104 [.f] 12 fun d =>
    match badRing ring role offset log2 vector with
    | some o => d.fail h 0x0104 St.badParam o
    | none =>
      if log2 = 0 then (d.setRing ring Ring.init).ok h 0x0104 []
      else if 1023 < ten ∨ (d.ten ten).st = .free then d.fail h 0x0104 St.notFound 18
      else if role = 0 ∧ !d.fmPort (d.tenPort ten) then d.fail h 0x0104 St.notPermitted 0
      else if d.segLen ten ≤ bay then d.fail h 0x0104 St.notFound 20
      else if !d.plainEntry (d.segBase ten + bay) then d.fail h 0x0104 St.bayModeInvalid (d.segBase ten + bay)
      else
        let x : Ring :=
          { valid := true, role := role, ten := ten, bay := bay, offset := offset, log2 := log2, vector := vector,
            port := d.tenPort ten, tail := 0, head := 0, fetched := 0, asked := false, got := [], subs := [] }
        (d.setRing ring x).ok h 0x0104 []

/-- A host access reaches a gated block: MEM_WAKE (R478, R569). -/
def domainOfOffset (o : Nat) : Nat :=
  if 0x200000 ≤ o ∧ o < 0x300000 then 25 + (o - 0x200000) / 0x10000
  else if 0x400000 ≤ o ∧ o < 0x500000 then 25 + (o - 0x400000) / 0x10000
  else if 0x500000 ≤ o ∧ o < 0x540000 then 23 + (o - 0x500000) / 0x20000
  else if 0x600000 ≤ o ∧ o < 0x610000 then 25 + (o - 0x600000) / 0x1000
  else if 0x610000 ≤ o ∧ o < 0x612000 then 23 + (o - 0x610000) / 0x1000
  else if 0x700000 ≤ o ∧ o < 0x710000 then 21
  else if 0x780000 ≤ o ∧ o < 0x790000 then 22
  else if 0xb80000 ≤ o ∧ o < 0xb90000 then 5
  else if 0xc00000 ≤ o ∧ o < 0xc10000 then 6
  else 0

def Die.regWake (d : Die) (o : Nat) : Die := if d.domainOn (domainOfOffset o) then d.active else d.active.memWake

/-- A write to MGT_RINGk_TAIL (R397, R402): from the ring's port only. -/
def execRingTailWrite (src : Src) (k tail : Nat) (s : State) : Host.Outcome State Fault Refusal :=
  onWindow s src fun d =>
    let d := d.active
    if 8 ≤ k then d
    else
      let x := d.ring k
      if src.master < 6 ∧ (!x.valid ∨ x.port ≠ src.port) then d.rejectWrite src (R.mgtRingTail k)
      else (d.setRing k { x with tail := if x.valid then tail % 2 ^ x.log2 else tail % 1024 }).ringAsk k

/-! ## The Ohmoux commands of the main die (R463) -/

/-- The status registers as the last status frame gave them; their reset values before the first. -/
def Die.ohmQuery (d : Die) : List PayVal :=
  match d.ohmSeen with
  | some f => f.query (Config.iout d.draws)
  | none => (4, 0) :: (4, 0x64080403) :: List.replicate 6 (4, 0)

def execOhmQuery (h : Hdr) (s : State) : Host.Outcome State Fault Refusal :=
  onCmd s fun d => d.command h 0x0803 [.f, .k] 0 fun d =>
    { d with draws := d.draws + 1 }.ok h 0x0803 d.ohmQuery

/-- The main die runs only while Ohmoux conducts, so OHM_CLEAR through it always fails (R463). -/
def execOhmClear (h : Hdr) (s : State) : Host.Outcome State Fault Refusal :=
  onCmd s fun d => d.command h 0x0804 [.k] 0 fun d => d.fail h 0x0804 St.ohmNotLatched 0

/-! ## EVENT_ENABLE -/

/-- The EVENT_EN register of the block at a window offset. -/
def eventEnOf (base : Nat) : Option Nat :=
  let inst (lo stride n off : Nat) : Option Nat :=
    if lo ≤ base ∧ (base - lo) % stride = 0 ∧ (base - lo) / stride < n then some (base + off) else none
  let one := [(0x80000, 0x14), (0x90000, 0x24), (0xa0000, 0x24), (0x300000, 0x24), (0x580000, 0x24), (0x61f000, 0x24),
    (0x700000, 0x24), (0x780000, 0x24), (0x800000, 0x24), (0x900000, 0x14), (0xa00000, 0x24), (0xa80000, 0x14), (0xb00000, 0x24),
    (0xb80000, 0x14), (0xc00000, 0x24), (0xd00000, 0x14), (0xe00000, 0x14)]
  ((one.find? fun (x : Nat × Nat) => decide (x.1 = base)).map fun x => base + x.2) <|> inst 0x10000 0x10000 6 0x24 <|>
    inst 0x100000 0x10000 8 0x4 <|> inst 0x200000 0x10000 16 0x14 <|> inst 0x400000 0x10000 20 0x14 <|> inst 0x600000 0x1000 18 0x14

/-- Bits of a register that are not RSV. -/
def regMask (o : Nat) : Nat :=
  match regRow o with
  | some r => r.mask
  | none => 0

def execEventEnable (h : Hdr) (base value : Nat) (s : State) : Host.Outcome State Fault Refusal :=
  onCmd s fun d => d.command h 0x0903 [.f] 8 fun d =>
    match eventEnOf base with
    | none => d.fail h 0x0903 St.notFound 16
    | some o =>
      if value &&& regMask o ≠ value then d.fail h 0x0903 St.badParam 20
      else ((d.regWake o).regW o (BitVec.ofNat 32 value)).ok h 0x0903 []

/-! ## Unknown opcodes -/

/-- The opcodes of R400. -/
def opcodes : List Nat :=
  range' 0x0100 5 ++ range' 0x0200 11 ++ range' 0x0300 8 ++ range' 0x0400 7 ++ range' 0x0500 3 ++ range' 0x0600 7 ++ range' 0x0700 4 ++
  range' 0x0800 5 ++ range' 0x0900 5 ++ range' 0x0a00 5 ++ range' 0x0b00 7 ++ range' 0x0c00 3 ++ range' 0x0d00 6

/-- Every other opcode fails with BAD_OPCODE (R400). -/
def execUnknownOpcode (h : Hdr) (opcode : Nat) (s : State) : Host.Outcome State Fault Refusal :=
  onLive s fun d =>
    if opcodes.contains opcode then d
    else match d.active.take h opcode with
      | none => d
      | some d0 =>
        if d0.isRepeat h opcode then d0.repeatReply h opcode
        else
          let d1 := d0.keepLast (endpOf h.via) { seq := h.seq, opcode := opcode, reply := none }
          d1.fail h opcode (if !d1.boot.done then St.notReady else St.badOpcode) 0

/-! ## GO -/

/-- May this source write normal-window registers that host software may not (R402, R426)? -/
def Die.mayWrite (d : Die) (src : Src) : Bool :=
  if src.jtag then d.dbg.ni && !Config.jtagLock else decide (src.master = 13)

/-- 1 written to GO (R105): no effect while GO reads 1 (R108); dropped from a host port (R402). -/
def execCommitGo (src : Src) (g : Group) (s : State) : Host.Outcome State Fault Refusal :=
  onWindow s src fun d =>
    let o := Group.commitReg g
    let d := d.regWake o
    if src.jtag ∧ !d.mayWrite src then d
    else if !d.mayWrite src then d.rejectWrite src o
    else d.writeGo g

end Sys2Proof.Machine
end

