-- ==== Sys2Proof/Machine/FaultCmds.lean ====
section
/-! DEFINITION. Machine/FaultCmds.lean: the fault commands (R501, R511, R519, R520) and the events of the fault collector, the
self-test unit, the spares and the Ohmoux link (R459, R462, R499–R518). -/

namespace Sys2Proof.Machine

/-! ## Units and codes -/

/-- A reporting unit of R496. -/
def unitOk (u : Nat) : Bool :=
  decide (u < 0xc ∨ (0x10 ≤ u ∧ u < 0x27) ∨ (0x28 ≤ u ∧ u < 0x71) ∨ (0x78 ≤ u ∧ u < 0x8d) ∨ (0x90 ≤ u ∧ u < 0xa3) ∨ u = 0xa4 ∨
    u = 0xa5 ∨ (0xa8 ≤ u ∧ u < 0xaf) ∨ (0xb0 ≤ u ∧ u < 0xba) ∨ (0xc0 ≤ u ∧ u < 0xf9))

/-- The codes R593 records against a unit, with those every unit raises (R519). -/
def codesOf (u : Nat) : List Nat :=
  let own :=
    if u < 6 then [0x26]
    else if u = 0x24 then [0x20]
    else if u = 0x28 then [0x10, 0x11, 0x12, 0x13]
    else if 0x29 ≤ u ∧ u < 0x30 then [0x10, 0x11, 0x13]
    else if 0x30 ≤ u ∧ u < 0x40 then [0x22, 0x44]
    else if 0x40 ≤ u ∧ u < 0x60 then [0x01, 0x02, 0x03, 0x05, 0x25, 0x40, 0x41, 0x42, 0x43]
    else if u = 0x60 then [0x22, 0x50]
    else if 0x61 ≤ u ∧ u < 0x71 then [0x01, 0x02, 0x03, 0x05, 0x50]
    else if 0x78 ≤ u ∧ u < 0x8c then [0x04, 0x32]
    else if u = 0x8c then [0x05, 0x06, 0x07, 0x08, 0x09, 0x52]
    else if 0x90 ≤ u ∧ u < 0xa2 then [0x0a, 0x0b, 0x32]
    else if u = 0xa2 then [0x23]
    else if 0xa8 ≤ u ∧ u < 0xac then [0x32, 0x66]
    else if u = 0xac then [0x51]
    else if u = 0xb0 then [0x63, 0x64]
    else if u = 0xb1 then [0x21, 0x52]
    else if u = 0xb2 then [0x52, 0x65]
    else if u = 0xb3 then [0x52]
    else if u = 0xb5 then [0x55, 0x60, 0x61, 0x62]
    else if u = 0xb7 then [0x67]
    else if 0xc0 ≤ u ∧ u < 0xc8 then [0x54]
    else if 0xc8 ≤ u ∧ u < 0xd0 then [0x24]
    else []
  own ++ [0x30, 0x31, 0x33, 0x34, 0x35, 0x56]

/-- The class of a code (R499); DEC_ERR and ROOT_FAIL as R519 fixes them for injection. -/
def classOf (code : Nat) : Nat :=
  if [0x09, 0x50, 0x51, 0x52, 0x53, 0x54, 0x55, 0x56].contains code then 2
  else if [0x03, 0x04, 0x06, 0x0a, 0x11, 0x12, 0x21, 0x22, 0x25, 0x26, 0x30, 0x31, 0x33, 0x34, 0x35, 0x40, 0x42, 0x44, 0x64, 0x66].contains code then 1
  else 0

/-- Codes FLT_INJECT never injects (R519). -/
def notInjected (code : Nat) : Bool := [0x52, 0x53, 0x54, 0x55, 0x60, 0x61, 0x62].contains code

/-! ## FLT_GET, FLT_CLEAR, FLT_INJECT -/

/-- The records of a unit as FLT_GET returns them: its latch, then its history queue (R501). -/
def Die.recordsOf (d : Die) (u : Nat) : List Rec :=
  (match d.flt.lat.find? u with
    | some r => [r]
    | none => []) ++
  match historyQueue u with
  | some q => match d.flt.hq.find? q with
    | some x => x.recs
    | none => []
  | none => []

/-- A record as 32 B of payload. -/
def Rec.pay (r : Rec) : List PayVal := (r.words true).map fun w => (4, w.toNat)

def execFltGet (h : Hdr) (unit max : Nat) (s : State) : Host.Outcome State Fault Refusal :=
  onCmd s fun d => d.command h 0x0900 [.f, .k] 4 fun d =>
    if unit ≠ 0xffff ∧ !unitOk unit then d.fail h 0x0900 St.notFound 16
    else
      let us := if unit = 0xffff then (List.range 0xf9).filter unitOk else [unit]
      let rs := (us.flatMap d.recordsOf).take (min max ((payMax h.via - 2) / 32))
      d.ok h 0x0900 ((2, rs.length) :: rs.flatMap Rec.pay)

/-- Clear a unit's latch and history queue (R501). -/
def Die.fltClear (d : Die) (u : Nat) : Die :=
  let hq := match historyQueue u with
    | some q => d.flt.hq.erase q
    | none => d.flt.hq
  { d with flt := { d.flt with lat := d.flt.lat.erase u, hq := hq } }

def execFltClear (h : Hdr) (unit : Nat) (s : State) : Host.Outcome State Fault Refusal :=
  onCmd s fun d => d.command h 0x0901 [.f, .k] 2 fun d =>
    if unit = 0xffff then { d with flt := { d.flt with lat := [], hq := [] } }.ok h 0x0901 []
    else if !unitOk unit then d.fail h 0x0901 St.notFound 16
    else (d.fltClear unit).ok h 0x0901 []

/-- What an injected event does beside its record's course, as the real one does (R519): a lost directory entry takes every domain down
(R185), a failed self-test unit is disabled (R505). -/
def Die.injectedToo (d : Die) (kind : Nat) : Die :=
  if kind = 0x11 then d.allDomainsDown else if kind = 0x67 then d.disableStu else d

def execFltInject (h : Hdr) (unit kind : Nat) (s : State) : Host.Outcome State Fault Refusal :=
  onCmd s fun d => d.command h 0x0902 [.f] 4 fun d =>
    if !d.dbg.ni then d.fail h 0x0902 St.injectDisabled 0
    else if !unitOk unit then d.fail h 0x0902 St.badParam 16
    else if notInjected kind ∨ !(codesOf unit).contains kind then d.fail h 0x0902 St.badParam 18
    else (((d.count R.fltInjCount 1).record unit kind (classOf kind) 0xff 0xffff 0 0 true).injectedToo kind).ok h 0x0902 []

/-- The 1 T window of an injected fatal event closes (R520): doorstop, unless a real event coincided. -/
def execInjectWindowClose (s : State) : Host.Outcome State Fault Refusal :=
  onLive s fun d =>
    let left := d.flt.injOpen.filter fun (x : Nat × Nat) => decide (d.time < x.2)
    let d1 := { d with flt := { d.flt with injOpen := left } }
    match d.flt.injWait with
    | some r =>
      if left.any fun (x : Nat × Nat) => decide (x.1 = r.unit) then d1
      else { d1 with flt := { d1.flt with injWait := none } }.doorstop r.unit r.code (some r)
    | none => d1

/-! ## Detections -/

/-- Detection `code` at unit `u`: an interruption it opens begins `back` reference cycles earlier (R509). -/
def Die.detect (d : Die) (u code back : Nat) : Die :=
  if !unitOk u then d
  else
    let d1 := d.record u code 1 0xff 0xffff 0 0
    let early (i : Intr) : Intr := if i.unit = u ∧ i.reread.isNone then { i with start := d.time - back } else i
    { d1 with flt := { d1.flt with intrs := d1.flt.intrs.map early } }

/-- WD_US in reference cycles. -/
def Die.watchdog (d : Die) : Nat := 100 * fld (d.act R.fltCfg) 31 24

def execWatchdogHang (unit : Nat) (s : State) : Host.Outcome State Fault Refusal :=
  onLive s fun d => d.detect unit 0x31 d.watchdog

def execIfTimeout (unit : Nat) (s : State) : Host.Outcome State Fault Refusal :=
  onLive s fun d =>
    let d1 := if 0x10 ≤ unit ∧ unit < 0x24 then d.event R.xbrEvent 0 else d
    d1.detect unit 0x34 d1.watchdog

/-- Does a unit detect this error by itself (R499, R593)? The walker's are those of its cache, of L3 and of the root array (R237). -/
def detects (u code : Nat) : Bool :=
  unitOk u &&
  ([0x30, 0x33, 0x35].contains code || ([0x10, 0x11, 0x50, 0x51, 0x52, 0x64, 0x66, 0x67].contains code && (codesOf u).contains code) ||
    (decide (u = unitItr) && [0x05, 0x06, 0x08].contains code))

/-- An entry of the counter cache, of a level below 3, or of L3 is uncorrectable (R237): a clean cache entry is fetched again when it is
wanted; the range of a dirty one, or of an L3 entry, is counter-lost. -/
def Die.nodeEntryError (d : Die) (level dga : Nat) : Die :=
  let idx := nodeIdx level dga; let key := nodeKey level idx
  if level = 3 then ({ d with itr := { d.itr with l3 := d.itr.l3.erase idx } }.addLost 3 (firstPage 3 idx) dga).resumeArrived
  else match d.itr.cc.find? key with
    | none => d
    | some e =>
      let d1 := { d with itr := { d.itr with cc := d.itr.cc.erase key } }
      if e.dirty then (d1.addLost level (firstPage level idx) dga).resumeArrived else d1.nodeFault unitItr dga

/-- Copies of the root array hold an uncorrectable entry (R237, R238, R244): one is rewritten from the other; both are fatal. -/
def Die.rootError (d : Die) (a b : Bool) (dga : Nat) : Die :=
  if !a && !b then d
  else
    let d1 := { d with itr := { d.itr with rootABad := d.itr.rootABad || a, rootBBad := d.itr.rootBBad || b } }
    (d1.itrNote dga 8 8 R.itrNodeFail).record unitItr 0x08 (if a && b then 2 else 0) 0xff 0xffff dga 8

/-- The walker's own errors (log entry 144): for a node's entry `addr` is the DGA of the access and `syndrome` the level; for the root
array bits 0 and 1 of `syndrome` name the copies. -/
def Die.walkerError (d : Die) (e : UnitErr) : Die :=
  if e.code = 0x08 then d.rootError (e.syndrome.testBit 0) (e.syndrome.testBit 1) e.addr else d.nodeEntryError (e.syndrome % 4) e.addr

/-- A unit detects an error (R499, R593). Where the table gives ADDR and SYNDROME, those; for an on-die directory entry `addr`
names its set (R185); a keep register that fails is marked bad and reads 0 (R508); a failed self-test unit is disabled (R505). -/
def Die.unitError (d : Die) (e : UnitErr) : Die :=
  if !detects e.unit e.code then d
  else if e.code = 0x05 ∨ e.code = 0x06 ∨ e.code = 0x08 then d.walkerError e
  else if e.code = 0x10 then (d.event (R.chaEvent (e.unit - 0x28)) 6).record e.unit 0x10 0 0xff 0xffff 0 0
  else if e.code = 0x11 then
    let seq := d.flt.seq % 65536
    let d1 := ((d.event (R.chaEvent (e.unit - 0x28)) 7).recordOnly e.unit 0x11 1 0xff 0xffff 0 0 false).allDomainsDown
    let loc := testOfLoc ((e.unit - 0x28) * 65536 + e.addr % 8192)
    if d1.flt.stuDisabled then d1.engineLasting e.unit loc else d1.addTest 3 e.unit loc seq false
  else if e.code = 0x64 then
    let k := e.syndrome % 1024
    ({ d with kps := { d.kps with bad := (k :: d.kps.bad).eraseDups } }.event R.kpsEvent 2).record unitKps 0x64 1 0xff 0xffff 0 k
  else if e.code = 0x67 then (d.record e.unit 0x67 0 0xff 0xffff 0 0).disableStu
  else
    let own := decide (e.code = 0x30 ∨ e.code = 0x33 ∨ e.code = 0x35 ∨ e.code = 0x66)
    let d1 := if (e.code = 0x33 ∨ e.code = 0x35) ∧ 0x10 ≤ e.unit ∧ e.unit < 0x24 then d.event R.xbrEvent 0 else d
    d1.record e.unit e.code (classOf e.code) 0xff 0xffff (if own then e.addr else 0) (if own then e.syndrome % 2 ^ 32 else 0)

def execUnitErrorDetected (e : UnitErr) (s : State) : Host.Outcome State Fault Refusal := onLive s fun d => d.unitError e

/-- R506: no record is written. -/
def execFltSelfParity (s : State) : Host.Outcome State Fault Refusal :=
  onLive s fun d => { d with flt := { d.flt with selfParity := true } }.doorstop 0xb6 0x53 none

/-- The write buffers have drained in doorstop: DRAM in self-refresh (R517), not after ENTRY_LOSS (R518). -/
def execDoorstopDrainEnd (s : State) : Host.Outcome State Fault Refusal :=
  onLive s fun d =>
    if d.flt.doorstop ∧ d.flt.causeCode ≠ 0x55 ∧ d.lane.isEmpty ∧ d.wq.isEmpty then { d with flt := { d.flt with drained := true } } else d

/-! ## Interruptions and shadows (R509, R516) -/

/-- A unit's interruption ends; its reaction's shadow lasts 2 T more. -/
def Die.resume (d : Die) (u : Nat) : Die :=
  let close (x : Shadow) : Shadow := if x.unit = u ∧ x.ends.isNone then { x with ends := some (d.time + 100) } else x
  { d with flt := { d.flt with intrs := d.flt.intrs.filter (fun (i : Intr) => decide (i.unit ≠ u) || i.reread.isSome), shadows := d.flt.shadows.map close } }

/-- An interruption ends no later than 500 µs after its detection (R509). -/
def Die.endOldIntrs (d : Die) : Die :=
  let old := d.flt.intrs.filter fun (i : Intr) => decide (i.found + 50000 ≤ d.time)
  let d1 := { d with flt := { d.flt with intrs := d.flt.intrs.filter fun (i : Intr) => decide (d.time < i.found + 50000) } }
  (old.filter fun (i : Intr) => i.reread.isNone).foldl (fun (d : Die) (i : Intr) => d.resume i.unit) d1

def execInterruptionEnd (unit : Nat) (s : State) : Host.Outcome State Fault Refusal := onLive s fun d => d.resume unit

def execShadowEnd (unit : Nat) (s : State) : Host.Outcome State Fault Refusal :=
  onLive s fun d =>
    let open_ (x : Shadow) : Bool := decide (x.unit ≠ unit) || match x.ends with
      | some t => decide (d.time < t)
      | none => true
    { d with flt := { d.flt with shadows := d.flt.shadows.filter open_ } }

/-! ## Row tests (R511) -/

/-- A DRAM event to the tenancy of a row's lines (R504). -/
def Die.dramEvent (d : Die) (dga code : Nat) : Die :=
  match d.ownerOf dga with
  | some (t, _) => d.hostEvent (d.tenPort t) (.dram code)
  | none => d

/-- A record of the row remedies against a DIMM, with its host event. -/
def Die.rowRecord (d : Die) (ch slot code cls dga : Nat) : Die :=
  (d.record (unitDimm ch slot) code cls 0xff 0xffff dga 0).dramEvent dga code

/-- Schedule a hard repair for the next start: the lowest keep register of K64 to K127 whose VALID is 0 (R561). -/
def Die.scheduleRepair (d : Die) (ch slot row : Nat) : Die :=
  match (range' 64 64).find? fun k => !bit (d.keep k) 31 with
  | some k => d.keepWrite k (BitVec.ofNat 32 (2 ^ 31 + ch % 16 * 2 ^ 27 + slot % 2 * 2 ^ 26 + row % 2 ^ 26))
  | none => d

/-- A granule lies in a DIMM of a channel, and in a row of it. -/
def Die.onDimm (d : Die) (ch slot dga : Nat) : Bool := decide (d.chanOf dga = ch) && decide (Config.slotOf dga % 2 = slot)
def Die.inRow (d : Die) (ch slot row dga : Nat) : Bool := d.onDimm ch slot dga && decide (Config.rowOf dga = row)

/-- Fill in a row's granules (R198). -/
def Die.fillRow (d : Die) (ch slot row : Nat) : Die :=
  { d with dram := d.dram.map fun (e : Nat × Granule) => if d.inRow ch slot row (e.1 * 64) then (e.1, fillGranule) else e }

/-- Fill in the granules that a restore or a copy could not correct (R198, R505, R511). -/
def Die.fillLost (d : Die) (lost : List Nat) (mine : Nat → Bool) : Die :=
  (lost.filter mine).foldl (fun (d : Die) g => d.setGranule g fillGranule) d

/-- A row fails: the first remedy available (R511). -/
def Die.rowFails (d : Die) (ch slot row : Nat) (repairable : Bool) : Die :=
  let a := Config.rowFirst ch slot row
  let d1 := d.rowRecord ch slot 0x40 1 a
  let x := d1.chan ch
  if x.excluded then d1
  else if repairable then
    (((d1.count (R.mchSoftRepairs ch) 1).event (R.mchEvent ch) 0).rowRecord ch slot 0x41 0 a).scheduleRepair ch slot row
  else if x.spare = 1 then d1.setChan ch { x with spare := 2, spareSlot := slot, spareRow := row }
  else if x.retired.length < 256 then
    let d2 := (d1.setChan ch { x with retired := x.retired ++ [(slot, row)] }).fillRow ch slot row
    (d2.event (R.mchEvent ch) 1).rowRecord ch slot 0x42 1 a
  else (d1.interrupt (unitMch ch)).excludeChan ch

/-- Take a test out of the queue and start the next. -/
def Die.endTest (d : Die) (x : Test) : Die :=
  { d with flt := { d.flt with tests := d.flt.tests.erase x } }.startTests

/-- A row test ends (R505, R511): `lost` names the granules its restore could not correct. -/
def execRowTestDone (ch slot row : Nat) (passed : Bool) (r : RowRepair) (s : State) : Host.Outcome State Fault Refusal :=
  onLive s fun d =>
    match d.flt.tests.find? fun (x : Test) => x.running && decide (x.kind = 2) && decide (x.unit = unitDimm ch slot) && decide (x.row = row) with
    | none => d
    | some x =>
      let lasting := !passed || x.forced
      let d1 := ((((d.endTest x).fillLost r.lost (d.inRow ch slot row)).count R.stuRowTests 1).stuEnd 2 x.unit x.seq (if passed then 1 else 2)).markTested x.unit x.seq lasting
      if lasting then d1.rowFails ch slot row r.repairable else d1

/-- A rank-sparing copy ends (R511): `lost` names the granules that could not be corrected. -/
def execRankSpareDone (c : SpareDone) (s : State) : Host.Outcome State Fault Refusal :=
  onLive s fun d =>
    let ch := c.ch
    let x := d.chan ch
    if x.spare ≠ 2 then d
    else (((d.fillLost c.lost (d.onDimm ch x.spareSlot)).setChan ch { x with spare := 3 }).event (R.mchEvent ch) 2).rowRecord ch x.spareSlot 0x43 0
        (Config.rowFirst ch x.spareSlot x.spareRow)

/-! ## Engine tests (R505, R508, R515) -/

/-- The end of the engine test of a unit in quarantine (R515): one that passes takes the current epoch and joins the spares of its
group; a core stays fenced (R508). -/
def Die.quarantineEnd (d : Die) (u : Nat) (passed : Bool) : Die :=
  let q := d.flt.quarantine.filter (· ≠ u)
  if !passed then { d with flt := { d.flt with quarantine := q } }
  else match epochIndex u with
    | none => { d with flt := { d.flt with quarantine := q } }
    | some i =>
      let own := d.flt.own.set 0 i (d.unitEpoch u)
      if 0xa8 ≤ u then { d with flt := { d.flt with quarantine := q, own := own } }
      else { d with flt := { d.flt with quarantine := q, own := own, dead := d.flt.dead.filter (· ≠ u), spares := d.flt.spares ++ [u] } }

def execEngineTestDone (unit : Nat) (passed : Bool) (s : State) : Host.Outcome State Fault Refusal :=
  onLive s fun d =>
    match d.flt.tests.find? fun (x : Test) => x.running && decide (x.kind = 3) && decide (x.unit = unit) with
    | none => d
    | some x =>
      let q := d.flt.quarantine.contains unit
      let lasting := !passed || (x.forced && !q)
      let d1 := (((d.endTest x).count R.stuEngineTests 1).stuEnd 3 unit x.seq (if passed then 1 else 2)).markTested unit x.seq lasting
      if q then d1.quarantineEnd unit passed
      else if lasting then d1.engineLasting unit x.row
      else if x.row = testOfReset then d1.resume unit
      else d1

/-- The granule a waiting line test reads again, with the request and the failure of its first read. -/
def Die.lineTestOf (d : Die) (x : Test) : Option (Txn × Nat × Nat) :=
  match d.txn? x.row with
  | some t => (t.retry.find? fun (r : Nat × Nat) => decide (r.1 / 64 % 65536 = x.seq)).map fun r => (t, r.1, r.2)
  | none => none

/-- A test that has waited 1 ms, or finds the queue of 64 full, is skipped; its target is taken to have a lasting fault (R505). -/
def execTestSkip (seq : Nat) (s : State) : Host.Outcome State Fault Refusal :=
  onLive s fun d =>
    let waiting := d.flt.tests.filter fun (x : Test) => !x.running
    match waiting.find? fun (x : Test) => decide (x.seq = seq) with
    | none => d
    | some x =>
      let late := decide (x.queued + 100000 ≤ d.time)
      let full := decide (64 < waiting.length) && decide (waiting.getLast? = some x)
      if !late ∧ !full then d
      else
        let d1 := (d.endTest x).stuEnd x.kind x.unit x.seq 3
        if x.kind = 1 then
          match d1.lineTestOf x with
          | some (t, g, code) =>
            let t1 : Txn := { t with retry := t.retry.filter fun (r : Nat × Nat) => decide (r.1 ≠ g) }
            ((d1.closeReread (.granule t.id g)).secondFail t1 g code).addGot t1 g (.fail code)
          | none => d1
        else
          let d2 := d1.markTested x.unit x.seq true
          if x.kind = 2 then d2.rowFails ((x.unit - 0x40) / 2) ((x.unit - 0x40) % 2) x.row false
          else if d2.flt.quarantine.contains x.unit then d2.quarantineEnd x.unit false
          else d2.engineLasting x.unit x.row

/-! ## Spares and epochs (R513–R515) -/

/-- The tenancy and TA a buffered store's poisoned line is reported for (R504). -/
def Die.lostStore (d : Die) (e : LaneEnt) : Die :=
  let d1 := d.poisonGranule e.dga e.kind e.kidx e.bay { group := e.group, due := e.deadline, louvre := e.louvre, con := e.con }
  match d.ownerOf e.dla with
  | some (t, ta) => d1.mediaEvent t ta
  | none => d1

/-- A spare takes over (R513, R514): entries that fail the copy are lost and poisoned; the unit replaced is one epoch behind. -/
def execSubstitutionDone (unit : Nat) (lost : List Nat) (s : State) : Host.Outcome State Fault Refusal :=
  onLive s fun d =>
    match d.flt.subst.find? fun (x : Nat × Nat × Nat) => decide (x.1 = unit) with
    | none => d
    | some (u, sp, c) =>
      let cry := decide (u < 0x8c)
      let x := d.chan c
      let d1 := d.setChan c (if cry then { x with lane := sp - 0x78 } else { x with codec := sp - 0x90 })
      let gone := d1.lane.filter fun e => cry && decide (e.ch = c) && lost.contains e.seq
      let d2 := gone.foldl Die.lostStore { d1 with lane := d1.lane.filter fun e => !(cry && decide (e.ch = c) && lost.contains e.seq) }
      let f := d2.flt
      let ep := match epochIndex u with
        | some i => f.epoch.set 0 i ((Tbl.get 0 f.epoch i + 1) % 16)
        | none => f.epoch
      let f1 : Flt := { f with subst := f.subst.filter (fun (y : Nat × Nat × Nat) => decide (y.1 ≠ u)), epoch := ep, dead := u :: f.dead,
                               quarantine := f.quarantine ++ [u] }
      (({ d2 with flt := f1 }.resume u).laneRoom c)

/-- An output with a stale epoch is discarded, its sender quarantined (R515). -/
def execStaleOutput (unit epoch : Nat) (s : State) : Host.Outcome State Fault Refusal :=
  onLive s fun d =>
    if (epochIndex unit).isNone ∨ epoch % 16 = d.unitEpoch unit then d
    else
      let q := if d.flt.quarantine.contains unit then d.flt.quarantine else d.flt.quarantine ++ [unit]
      let again (x : Test) : Test := if x.kind = 3 ∧ x.unit = unit then { x with queued := d.time } else x
      let d1 := { d with flt := { d.flt with quarantine := q, tests := d.flt.tests.map again } }
      ((d1.count R.fltStaleEpoch 1).event R.fltEvent 5).record unit 0x32 0 0xff 0xffff 0 (epoch % 16)

/-- A quarantined unit has been silent for 10 µs: its engine test (R515). -/
def execQuarantineTestStart (unit : Nat) (s : State) : Host.Outcome State Fault Refusal :=
  onLive s fun d =>
    let under := d.flt.tests.any fun (x : Test) => decide (x.kind = 3) && decide (x.unit = unit)
    if !d.flt.quarantine.contains unit ∨ under ∨ d.flt.stuDisabled then d else d.addTest 3 unit testAfter 0 false

/-! ## Channel readmission (R511) -/

def execChReadmit (h : Hdr) (ch : Nat) (s : State) : Host.Outcome State Fault Refusal :=
  onCmd s fun d => d.longCommand h 0x0904 [.f] 1 fun d =>
    let x := d.chan ch
    if 15 < ch ∨ !x.excluded ∨ x.atStart then d.fail h 0x0904 St.badParam 16
    else if x.readmitCmd.isSome ∨ x.readmit then d.fail h 0x0904 St.busy 0
    else (d.setChan ch { x with readmitCmd := some h }).interim h 0x0904

/-- The retrain and the tests end: a channel that passes is readmitted at the next boundary; the reply is SUCCESS either way. -/
def execChannelReadmitDone (ch : Nat) (passed : Bool) (s : State) : Host.Outcome State Fault Refusal :=
  onLive s fun d =>
    let x := d.chan ch
    match x.readmitCmd with
    | none => d
    | some h =>
      if x.readmit then d
      else if passed then d.setChan ch { x with readmit := true }
      else (d.setChan ch { x with readmitCmd := none }).ok h 0x0904 []

/-- Readmissions at a boundary (R102, R511): DIMM_CRIT may be recorded again. -/
def Die.readmitBoundary (d : Die) : Die :=
  (List.range 16).foldl (fun (d : Die) c =>
    let x := d.chan c
    if !x.readmit then d
    else
      let d1 := d.setChan c { x with excluded := false, selfRefresh := false, readmit := false, readmitCmd := none }
      let d2 := [2 * c, 2 * c + 1].foldl (fun (d : Die) n => d.setDimm n { (d.dimm n) with critDone := false, crit := 0 }) d1
      match x.readmitCmd with
      | some h => d2.ok h 0x0904 []
      | none => d2) d

/-! ## The Ohmoux link (R462, R518) -/

/-- What a status frame's events do: OHM_EVENT, and OHM_FEED records for a feed lost or a reverse turn-off. -/
def Die.ohmFrame (d : Die) (f : Frame) : Die :=
  let d1 := { d with ohmSeen := some f }
  let d2 := ((range' 1 5).filter f.events.testBit).foldl (fun (d : Die) b =>
    let d1 := d.event R.ohmEvent b
    if b < 5 then d1.record unitOhm 0x61 0 0xff 0xffff 0 0 else d1) d1
  if f.st ≠ .good ∨ f.events ≠ 0 then d2.wake 7 else d2

def execOhmStatusFrame (s : State) : Host.Outcome State Fault Refusal :=
  match s.link with
  | [] => .next s
  | f :: rest => onDie { s with link := rest } fun d => if d.boot.hold then d else d.ohmFrame f

def execOhmLinkLost (s : State) : Host.Outcome State Fault Refusal :=
  onLive s fun d => (d.event R.ohmEvent 0).record unitOhm 0x60 0 0xff 0xffff 0 0

/-- ENTRY_LOSS arrives: Ohmoux is shutting down in order (R459, R518). -/
def execEntryLoss (s : State) : Host.Outcome State Fault Refusal :=
  onLive s fun d => if s.ohm.leaving then d.record unitOhm 0x55 2 0xff 0xffff 0 0 else d

end Sys2Proof.Machine
end

