-- ==== Sys2Proof/Machine/Ports.lean ====
section
/-! DEFINITION. Machine/Ports.lean: PERST#, link training, retraining and loss, configuration requests, the FCX request and Mem_Enable,
IDE failures (R33–R49, R64, R69), and the values of the port registers. -/

namespace Sys2Proof.Machine

/-! ## Link status -/

/-- Committed configuration of a port. -/
def Die.portCfg (d : Die) (p : Nat) : Reg := d.act (R.hptPortCfg p)

/-- DEGRADED (R35): below the reference width or speed, or unable to carry CXL.mem. The link fields are those it trained under. -/
def Port.degraded (x : Port) : Bool :=
  let want8 := bit x.cfg 12 || x.forceX8
  let refSpeed := if x.flit = 1 then min (fld x.cfg 15 13) 4 else fld x.cfg 15 13
  x.linkUp && ((!want8 && x.x8) || decide (x.speed < refSpeed) || decide (x.rate = 0))

/-- FCX mode in force: it stands until the link goes down, whatever becomes of Mem_Enable (R33, R49). -/
def Port.fcxOn (x : Port) : Bool := x.fcxActive

/-- HPTn_LINK_STATUS (R69). -/
def Port.linkStatus (x : Port) : Reg :=
  BitVec.ofNat 32 (b2n x.linkUp * 2 ^ 31 + b2n x.memServes * 2 ^ 30 + x.flit % 4 * 2 ^ 28 + b2n x.fcxOn * 2 ^ 27 + x.speed % 8 * 2 ^ 24 +
    b2n x.x8 * 2 ^ 23 + x.ideMem % 4 * 2 ^ 21 + b2n x.ideIo * 2 ^ 20 + b2n x.degraded * 2 ^ 19 + min x.retrains 255 * 2 ^ 11 +
    x.rate % 1024)

/-- HPTn_FCXCAP, HPTn_FCXCTL, HPTn_FCXSTS (R50). -/
def fcxCap : Reg := BitVec.ofNat 32 (0x3ff * 2 ^ 16 + 2 ^ 4 + 1)
def Port.fcxCtl (x : Port) : Reg := BitVec.ofNat 32 (b2n x.fcxReq)
def Port.fcxSts (x : Port) : Reg := BitVec.ofNat 32 (x.refuse % 16 * 2 ^ 4 + b2n x.granted)

/-- Write a port back, with the DEGRADED event where it rises. -/
def Die.relink (d : Die) (p : Nat) (x : Port) : Die :=
  let d1 := d.setPort p x
  if x.degraded && !(d.port p).degraded then d1.event (R.hptEvent p) 3 else d1

/-! ## PERST# (R39, R42) -/

/-- A pin's effect outside the reset and the recovery hold of the main die; the level itself is always taken. -/
def pinChange (s : State) (p : Nat) (perst : Bool) (f : Die → Die) : Host.Outcome State Fault Refusal :=
  let d := s.die.setPort p { (s.die.port p) with perst := perst }
  .next { s with die := if s.ohm.released && !d.boot.hold then f d else d }

/-- HPn_PERST_N asserted; less than 1 µs is noise (R42). It is a wake source (R482). -/
def execPerstAssert (port ns : Nat) (s : State) : Host.Outcome State Fault Refusal :=
  if 6 ≤ port ∨ ns < 1000 ∨ (s.die.port port).perst then .next s
  else pinChange s port true fun d => ((d.linkDown port).event (R.hptEvent port) 0).wake port

def execPerstDeassert (port : Nat) (s : State) : Host.Outcome State Fault Refusal :=
  if 6 ≤ port ∨ !(s.die.port port).perst then .next s else pinChange s port false fun d => d.train13 port

/-! ## The link (R34–R37) -/

/-- Speed and width as the port's fields limit them (R34, R35, R554); 68B flits run at 32 GT/s at most (R44). -/
def Port.limit (x : Port) (l : LinkInfo) : LinkInfo :=
  let flit := l.flit % 4
  let s := min l.speed (fld x.cfg 15 13)
  { speed := if flit = 1 then min s 4 else s, x8 := l.x8 || bit x.cfg 12 || x.forceX8, flit := flit }

/-- The link is up: its rate is reported at the next boundary (R37), LD_COUNT_M1 takes effect (R69), Memory_Active stands once step 14
has completed (R42). -/
def Die.linkUp (d : Die) (p : Nat) (l : LinkInfo) : Die :=
  let x := d.port p; let k := x.limit l
  let y : Port :=
    { x with linkUp := true, training := false, speed := k.speed, x8 := k.x8, flit := k.flit, retrains := 0,
             ldCount := fld (d.portCfg p) 19 16 + 1, memActive := decide (15 ≤ d.boot.step) }
  d.relink p { y with report := some y.rate }

def execLinkTrainingDone (port : Nat) (link : Option LinkInfo) (s : State) : Host.Outcome State Fault Refusal :=
  onLive s fun d =>
    let x := d.port port
    if 6 ≤ port ∨ !x.training then d
    else match link with
      | some l => (d.linkUp port l).active
      | none => (d.setPort port { x with training := false }).event (R.hptEvent port) 7

def execLinkDown (port : Nat) (s : State) : Host.Outcome State Fault Refusal :=
  onLive s fun d => if 6 ≤ port ∨ !(d.port port).linkUp then d else d.linkDown port

/-- A retrain or a width change: a rate that changes is reported at the next boundary (R37). A retrain is a link training, so the
committed link fields take effect (R69): the port trains under them, and a port no longer enabled goes down. DEDUCED: R69 does not
say whether a retrain counts as a training (log entry 118). -/
def execLinkRetrain (port : Nat) (link : LinkInfo) (s : State) : Host.Outcome State Fault Refusal :=
  onLive s fun d =>
    let x : Port := { (d.port port) with cfg := d.portCfg port }
    if 6 ≤ port ∨ !x.linkUp then d
    else if !bit x.cfg 0 then d.linkDown port
    else
      let k := x.limit { link with flit := x.flit }
      let y : Port := { x with speed := k.speed, x8 := k.x8, retrains := min (x.retrains + 1) 255 }
      (d.relink port (if y.rate = x.rate then y else { y with report := some y.rate })).event (R.hptEvent port) 2

/-- An IDE integrity check fails (R64): a fatal error on this port only, which loses its link (R148); its requests in flight are
treated as on PERST#. -/
def execIdeIntegrityFail (port : Nat) (s : State) : Host.Outcome State Fault Refusal :=
  onLive s fun d =>
    let x := d.port port
    if 6 ≤ port ∨ !x.linkUp ∨ (x.ideMem = 0 ∧ !x.ideIo) then d
    else
      let d1 := ((d.event (R.hptEvent port) 6).emit (.aerFatal port)).linkDown port
      d1.record (unitHpt port) 0x26 1 0xff 0xffff 0 0

/-! ## Configuration space (R33, R42, R48, R49) -/

/-- A function answers for this LD number: LD 0 of an SLD or FCX port; on an MLD port its tenant LDs, and 31 for the FM-owned LD
(R33, R44, R45). -/
def Die.hasFunction (d : Die) (p ld : Nat) : Bool :=
  decide (p < 6) && (d.port p).linkUp && (if d.mldPort p then decide (ld < (d.port p).ldCount ∨ ld = fmLd) else decide (ld = 0))

/-- A configuration access to an LD of a port: nothing where no function answers; retry status until step 14 completes. -/
def Die.config (d : Die) (p ld : Nat) (f : Die → Die) : Die :=
  if !d.hasFunction p ld then d
  else if d.boot.step < 15 ∧ !d.boot.done then d.emit (.cfgRetry p ld)
  else f d.active

/-- ASPM L1 is allowed on a port with no contract credit to issue and no coherence-domain membership (R43). -/
def Die.mayL1 (d : Die) (p : Nat) : Bool :=
  !(d.trs.credit.any fun (e : Nat × Credit) => decide (d.tenPort e.1 = p) && decide (e.2.rdAllot ≠ 0 ∨ e.2.wrAllot ≠ 0)) &&
  !((List.range 64).any fun n => d.domValid n && d.domMember n p)

/-- MSI-X vectors of a function (R43). -/
def msixVectors : Nat := 64

/-- What the configuration space of a function holds (R42, R43, R45). The longest time CXL's Memory Active timeout field encodes is
256 s, PRESUMED from CXL 3.1 (log entry 119). -/
def Die.cfgAns (d : Die) (p ld : Nat) : CfgAns :=
  { memActive := (d.port p).memActive, memEnable := (d.port p).memEn.testBit ld, memActiveTimeout := 256, vectors := msixVectors,
    aspmL1 := d.mayL1 p, bar0 := if d.mldPort p && decide (ld ≠ fmLd) then 2 ^ 16 else 2 ^ 24,
    doe := [.cmaSpdm, .securedSpdm, .tableAccess] }

def execConfigRequest (port ld : Nat) (s : State) : Host.Outcome State Fault Refusal :=
  onLive s fun d => d.config port ld fun d => d.emit (.cfgOk port ld (d.cfgAns port ld))

/-- The first condition of R48 that fails, by its code. -/
def Die.fcxRefusal (d : Die) (p : Nat) : Option Nat :=
  let x := d.port p; let cfg := d.portCfg p
  if d.mldPort p then some 4 else if !bit cfg 9 then some 1 else if x.flit < 2 then some 2 else if x.memEn ≠ 0 then some 3 else none

/-- A write of FCXCTL.REQUEST (R48, R49). After Mem_Enable is set, and while FCX mode is in force, neither the field nor the grant
changes. DEDUCED: the four conditions of R48 are all that a grant needs, so a port whose host has cleared Mem_Enable again is granted
FCX although the SLD mode fixed before stands until link-down (R33); no Mem_Enable then starts FCX (log entry 120). -/
def Die.fcxRequest (d : Die) (p : Nat) (request : Bool) : Die :=
  let x := d.port p
  let set := decide (x.memEn ≠ 0) || decide (x.mode = some .fcx)
  if !request then (if set then d else d.setPort p { x with fcxReq := false, granted := false })
  else match d.fcxRefusal p with
    | some c =>
      let y : Port := if set then { x with refuse := c } else { x with fcxReq := true, granted := false, refuse := c }
      (d.setPort p y).event (R.hptEvent p) 5
    | none => if set then d else d.setPort p { x with fcxReq := true, granted := true, refuse := 0 }

def execFcxRequest (port ld : Nat) (request : Bool) (s : State) : Host.Outcome State Fault Refusal :=
  onLive s fun d => d.config port ld fun d => d.fcxRequest port request

/-- A write of Mem_Enable: the first setting fixes the mode (R33, R49); CXL.mem enabled again ends a port reset's interruption
(R509). The FM-owned LD has no memory to enable. -/
def Die.memEnable (d : Die) (p ld : Nat) (value : Bool) : Die :=
  let x := d.port p
  if ld = fmLd then d else
  let en := if value then x.memEn ||| 2 ^ ld else if x.memEn.testBit ld then x.memEn - 2 ^ ld else x.memEn
  let mode := if !value then x.mode else match x.mode with
    | some m => some m
    | none => some (if x.granted then .fcx else if d.mldPort p then .mld else .sld)
  let y : Port := { x with memEn := en, mode := mode }
  let d1 := d.setPort p y
  if y.memServes then ((d1.resume (unitHpt p)).resume (unitPhy p)).resume (0x10 + p) else d1

def execMemEnable (port ld : Nat) (value : Bool) (s : State) : Host.Outcome State Fault Refusal :=
  onLive s fun d => d.config port ld fun d => d.memEnable port ld value

end Sys2Proof.Machine
end

