-- ==== Sys2Proof/Machine/Sensors.lean ====
section
/-! DEFINITION. Machine/Sensors.lean: DIMM telemetry readings and what they set: throttle level, extended refresh, DIMM_CRIT
(R134, R135, R138, R511, R512, R544). -/

namespace Sys2Proof.Machine

/-- The level one reading gives, with every temperature threshold lowered by `low` (R134, R135). -/
def Die.levelOf (d : Die) (r : DimmReading) (low : Nat) : Nat :=
  let th := d.act R.lvrTherm
  let limit := fld (d.act R.lvrPmic) 9 0
  let t : Int := if r.negative then -1 else Int.ofNat r.temp
  let atLeast (m : Nat) : Bool := decide (Int.ofNat m - Int.ofNat low ≤ t)
  if atLeast (fld th 23 16) then 3
  else if atLeast (fld th 15 8) || r.highTemp then 2
  else if atLeast (fld th 7 0) || (decide (limit ≠ 0) && decide (limit < r.power)) then 1
  else 0

/-- The level a channel's readings ask for, after the readings of its DIMMs `ns` (R134, R135). -/
def Die.levelAfter (d : Die) (c : Nat) : Nat :=
  let x := d.chan c
  let ds := [d.dimm (2 * c), d.dimm (2 * c + 1)]
  let rise := ds.foldl (fun a (y : Dimm) => max a y.level) 0
  let fall := ds.foldl (fun a (y : Dimm) => max a (max y.hyst1 y.hyst2)) 0
  if x.level < rise then rise
  else if x.level < x.levelNext then x.levelNext
  else min x.level fall

/-- A failed read keeps the value; the third in a row counts as level 3 and as extended refresh (R134, R138, R544). -/
def Die.readFailed (d : Die) (c n : Nat) : Die :=
  let y := d.dimm n
  let k := y.fails + 1
  let lost := decide (3 ≤ k)
  let z : Dimm := { y with readFail := true, fails := k, level := if lost then 3 else y.level,
                           hyst2 := if lost then 3 else y.hyst2, hyst1 := if lost then 3 else y.hyst1 }
  let d1 := d.setDimm n z
  if k = 3 then (d1.event R.lvrEvent 3).record (0xc8 + c / 2) 0x24 0 0xff 0xffff 0 n else d1

/-- A successful read. -/
def Die.readGood (d : Die) (n : Nat) (r : DimmReading) : Die :=
  let y := d.dimm n
  let hot := !r.negative && decide (fld (d.act R.lvrCfg) 15 8 ≤ r.temp)
  let z : Dimm :=
    { y with present := r.present, temp := if !r.present then 255 else if r.negative then 0 else min r.temp 254, power := r.power % 1024,
             readFail := false, highTemp := r.highTemp, fails := 0, level := d.levelOf r 0, hyst2 := y.hyst1,
             hyst1 := d.levelOf r (fld (d.act R.lvrTherm) 27 24), crit := if hot then y.crit + 1 else 0,
             hot85 := !r.negative && decide (85 < r.temp) }
  { d with pmu := { d.pmu with dimmAt := d.pmu.dimmAt.set 0 n d.time } }.setDimm n z

/-- DIMM_CRIT once, until the channel's readmission or the next start (R504, R512). -/
def Die.dimmCrit (d : Die) (c n : Nat) : Die :=
  let y := d.dimm n
  if y.critDone then d
  else
    let d1 := (d.setDimm n { y with critDone := true }).record (unitDimm c (n % 2)) 0x25 1 0xff 0xffff 0 0
    match d1.setOfChan c with
    | some k => (d1.tensInSet k).foldl (fun (d : Die) t => d.hostEvent (d.tenPort t) (.module 0x25 c)) d1
    | none => d1

/-- A reading of one DIMM (R134). A DIMM of a started channel that no longer answers excludes the channel (R511). -/
def execDimmReading (ch slot : Nat) (r : DimmReading) (s : State) : Host.Outcome State Fault Refusal :=
  onLive s fun d =>
    if 16 ≤ ch ∨ 2 ≤ slot then d
    else
      let n := 2 * ch + slot
      let d1 := if r.ok then d.readGood n r else d.readFailed ch n
      let d2 := d1.setChan ch { (d1.chan ch) with levelNext := d1.levelAfter ch }
      if r.ok ∧ (2 ≤ (d2.dimm n).crit ∨ r.critical) then d2.dimmCrit ch n
      else if r.ok ∧ !r.present ∧ slot < (d2.chan ch).dimms ∧ (d2.chan ch).trained then (d2.interrupt (unitMch ch)).excludeChan ch
      else d2

/-- An SPD hub's in-band interrupt (R134, R482): a wake source; the reading it starts is the row DIMM_READING. -/
def execSpdInterrupt (ch slot : Nat) (s : State) : Host.Outcome State Fault Refusal :=
  onDie s fun d => if d.boot.hold ∨ 16 ≤ ch ∨ 2 ≤ slot then d else d.wake 11

/-- Throttle levels at a boundary (R135). -/
def Die.throttleBoundary (d : Die) : Die :=
  (List.range 16).foldl (fun (d : Die) c =>
    let x := d.chan c
    if x.level = x.levelNext then d
    else
      let d1 := d.setChan c { x with level := x.levelNext }
      if x.level < x.levelNext then d1.event R.lvrEvent 2 else d1) d

end Sys2Proof.Machine
end

