-- ==== Sys2Proof/Machine/Sleep.lean ====
section
/-! DEFINITION. Machine/Sleep.lean: the entry to SL3 and the exit from it (R223, R437, R480, R481, R486, R491). -/

namespace Sys2Proof.Machine

/-! ## The walker prepares (R223) -/

/-- Write back every dirty node of a level whose home is in service. -/
def Die.flushLevel (d : Die) (l : Nat) : Die :=
  let keys := (d.itr.cc.filter fun (e : Nat × CcEnt) => e.2.dirty && decide (keyLevel e.1 = l)).map Prod.fst
  keys.foldl (fun (d : Die) k => if d.homeOut k then d else d.writeBack k) d

/-- Every level from the leaves up; the second pass takes the nodes an interior overflow has marked dirty again (R236). -/
def Die.flushTree (d : Die) : Die := [0, 0, 1, 1, 2, 2].foldl Die.flushLevel d

/-- L3 nodes of the installed capacity: one for each data bay (R204). -/
def Die.l3Nodes (d : Die) : List Nat :=
  ((List.range 16).filter fun n => (d.setInfo n).valid).flatMap fun n => range' (d.setInfo n).base (d.setInfo n).data

/-- Raise a root node's minor for one L3 child (R223 step 3). -/
def Die.raiseRoot (d : Die) (n3 : Nat) : Die :=
  match raiseMinor (d.itr.l4node (n3 / 64)) (n3 % 64) with
  | some (p, _) => { d with itr := { (d.itr.mark 4 p.major) with l4 := d.itr.l4.set Node.zero (n3 / 64) p } }
  | none => d.majorEnd 4 (n3 / 64)

/-- Write one L3 node to the save area under its new version (R223 step 4). -/
def Die.saveL3 (d : Die) (n3 : Nat) : Die :=
  let p := d.itr.l4node (n3 / 64); let n := d.itr.l3node n3
  let s : Stored := { node := n, mac := nodeMac (d.itr.tk.getD 0) 3 n3 p.major (p.minor (n3 % 64)) n }
  { d with itr := { d.itr with l3save := d.itr.l3save.set Stored.blank n3 s } }

def Die.walkerPrepare (d : Die) : Die :=
  let d1 := d.flushTree
  let ns := d1.l3Nodes
  ns.foldl Die.saveL3 (ns.foldl Die.raiseRoot d1)

/-! ## The entry (R480) -/

/-- Every normal-halted core resumes (R437). -/
def Die.resumeNormal (d : Die) : Die :=
  (List.range 4).foldl (fun (d : Die) k => let c := d.core k; if c.secure then d else d.setCore k { c with halted := false }) d

/-- What step 2 waits for: requests, the waits of R479, drains, flushes and recalls (R265, R370, R480). -/
def Die.quietForSl3 (d : Die) : Bool :=
  d.idle && d.quietForSleep && d.itr.pend.isEmpty &&
  (d.keys.rets.all fun (r : Retire) => decide (r.phase ≠ .stopped) && (decide (r.phase ≠ .flushing) || decide (r.parts = []))) &&
  d.tens.bayOps.all fun (o : BayOp) => decide (o.phase ≠ .recall ∧ o.phase ≠ .fence ∧ o.phase ≠ .drain)

/-- The on-die caches are emptied (step 4): dirty directory entries go to HBM; a node that could not be written back is lost
(R511). -/
def Die.emptyCaches (d : Die) : Die :=
  let left := d.itr.cc.filter fun (e : Nat × CcEnt) => e.2.dirty
  let d1 := left.foldl (fun (d : Die) (e : Nat × CcEnt) => d.addLost (keyLevel e.1) (firstPage (keyLevel e.1) (keyIdx e.1)) (nodeBase (keyLevel e.1) (keyIdx e.1))) d
  let dir := (d1.home.dir.filter fun (e : Nat × DirEnt) => e.2.dirty || e.2.inHbm).map fun (e : Nat × DirEnt) =>
    (e.1, { e.2 with onDie := false, dirty := false, inHbm := true })
  { d1 with itr := { d1.itr with cc := [], fetches := [] }, home := { d1.home with dir := dir },
            pmap := { d1.pmap with cached := [], fetch := [] } }

/-- One step of the entry. Step 3's re-encryptions are the row REENCRYPT_GRANULE; while they run the step waits. At step 6 the die
loses L3; a level source then present wakes it at once (R485). -/
def Die.sl3Step (d : Die) (n : Nat) : Die :=
  let at_ (d : Die) (st : PwrSt) : Die := { d with pwr := { d.pwr with st := st } }
  match n with
  | 1 => if (List.range 6).any fun p => (d.port p).linkUp then d.resumeNormal else at_ d.resumeNormal (.sl3Entry 1)
  | 2 =>
    let d1 := (d.abandonMoves fun _ => true).dropMoverOps
    if d1.quietForSl3 then at_ d1 (.sl3Entry 2) else d1
  | 3 => at_ d.walkerPrepare (.sl3Entry 3)
  | 4 => at_ d.emptyCaches (.sl3Entry 4)
  | 5 => at_ d (.sl3Entry 5)
  | _ => { d.entryEnds .sl3 .sl3Exit with itr := { d.itr with l3 := [] } }

def execSl3Entry (step : Nat) (s : State) : Host.Outcome State Fault Refusal :=
  onLive s fun d =>
    match d.pwr.st with
    | .sl3Entry n => if step = n + 1 ∧ step ≤ 6 then d.sl3Step step else d
    | _ => d

/-! ## The exit (R481) -/

/-- A saved image verifies under its root node (R208, R223). -/
def Die.imageOk (d : Die) (n3 : Nat) : Bool :=
  d.itr.macOk 3 n3 (d.itr.l4node (n3 / 64)) ((d.itr.l3save.find? n3).getD Stored.blank)

/-- The saved L3 nodes come back to the die. -/
def Die.loadL3 (d : Die) : Die :=
  { d with itr := { d.itr with l3 := d.itr.l3save.foldl (fun (t : Tbl Node) (e : Nat × Stored) => t.set Node.zero e.1 e.2.node) [] } }

/-- A saved image that failed its first read (R237): verified on the re-read, or its 1 GiB counter-lost. -/
def Die.badImage (d : Die) (n3 : Nat) (again : Bool) : Die :=
  let dga := nodeBase 3 n3
  if again ∧ !d.flt.stuDisabled then (d.count R.stuLineTests 1).nodeFail (d.dimmUnit (d.saveAddr n3)) dga
  else
    let d1 := if d.flt.stuDisabled then d else d.count R.stuLineTests 1
    d1.addLost 3 (firstPage 3 n3) dga

/-- The exit ends (R481, R486, R491, R493): L3 verified, the request completed, R71 owed once, a gap record due. -/
def execSl3ExitDone (badImages : List (Nat × Bool)) (s : State) : Host.Outcome State Fault Refusal :=
  onLive s fun d =>
    if d.pwr.st ≠ .sl3Exit then d
    else
      let saved := d.l3Nodes
      let bad := (saved.filter fun n3 => !d.imageOk n3).map fun n3 => (n3, false)
      let noisy := badImages.filter fun (x : Nat × Bool) => saved.contains x.1 && d.imageOk x.1
      let d1 := (bad ++ noisy).foldl (fun (d : Die) (x : Nat × Bool) => d.badImage x.1 x.2) d.loadL3
      let d2 := { d1 with pwr := { d1.pwr with st := .run }, pmu := { d1.pmu with gapDue := true } }.recordWake d1.pwr.present
      ((d2.endRequest St.success).event R.pwrEvent 2).drainDeferred

end Sys2Proof.Machine
end

