-- ==== Sys2Proof/Machine/Telemetry.lean ====
section
/-! DEFINITION. Machine/Telemetry.lean: the performance counters' commands, the dumper and the telemetry ring, the tenant window,
DIMM telemetry (R524–R546). -/

namespace Sys2Proof.Machine

/-! ## Selecting and reading counters -/

def execPmuSelect (h : Hdr) (ctr event chain : Nat) (s : State) : Host.Outcome State Fault Refusal :=
  onCmd s fun d => d.command h 0x0a01 [.f] 7 fun d =>
    let v := BitVec.ofNat 32 event
    if 511 < ctr then d.fail h 0x0a01 St.badParam 16
    else if fld v 15 12 ≠ 0 ∨ !selOk v then d.fail h 0x0a01 St.badParam 18
    else if 1 < chain ∨ (chain = 1 ∧ ctr % 2 = 1) then d.fail h 0x0a01 St.badParam 22
    else
      let o := R.pmuChain (ctr / 64); let b := ctr / 2 % 32
      (d.regWake o).commitFor .pmu (.pmuSelect h ctr event chain)
        [(R.pmuSel ctr, event), (o, (setFld (d.future o) b b chain).toNat)]

def execTelWindow (h : Hdr) (ten allow : Nat) (s : State) : Host.Outcome State Fault Refusal :=
  onCmd s fun d => d.command h 0x0a02 [.f] 3 fun d => d.withTen h 0x0a02 ten
    (if 1 < allow then d.fail h 0x0a02 St.badParam 18
     else
       let o := R.pmuWindow (ten / 32); let b := ten % 32
       (d.regWake o).commitFor .pmu (.telWindow h ten allow) [(o, (setFld (d.future o) b b allow).toNat)])

/-- Counter `k` is open to tenancy `t` (R542). -/
def Die.openTo (d : Die) (t k : Nat) : Bool :=
  let mine (i : Nat) : Bool := decide (selTen (d.act (R.pmuSel i)) = some t)
  bit (d.act (R.pmuWindow (t / 32))) (t % 32) && (mine k || (decide (k % 2 = 1) && d.pmuChained k && mine (k - 1)))

/-- A counter's value. -/
def Die.pmuVal (d : Die) (k : Nat) : Nat := Tbl.get 0 d.pmu.ctr k

def execPmuRead (h : Hdr) (first count : Nat) (s : State) : Host.Outcome State Fault Refusal :=
  onCmd s fun d => d.command h 0x0a03 [.f, .t] 4 fun d =>
    let out := decide (256 < count ∨ 512 < first + count)
    if d.asTenant h 0x0a03 ∧ (out ∨ !(range' first count).all (d.openTo (hdrTen h))) then d.fail h 0x0a03 St.notPermitted 0
    else if 511 < first then d.fail h 0x0a03 St.badParam 16
    else if out then d.fail h 0x0a03 St.badParam 18
    else (d.regWake R.pmuCommit).ok h 0x0a03 ((range' first count).map fun k => (8, d.pmuVal k))

/-- The counter an MLD tenant reads at offset 0xD000 + 8k of its window (R543). -/
def Die.tenantCounter (d : Die) (t k : Nat) : Nat := if d.openTo t k then d.pmuVal k else 0

/-- A counter wraps: `n` occurrences of its event carry it past 2^48 − 1 (R524, R527). A counter that is off does not count. -/
def execCounterWrap (k n : Nat) (s : State) : Host.Outcome State Fault Refusal :=
  onLive s fun d =>
    let high := d.pmuChained k && decide (k % 2 = 1)
    if 511 < k ∨ !d.counting ∨ high ∨ fld (d.act (R.pmuSel k)) 11 0 = 0 ∨ d.pmuVal k + n < 2 ^ 48 then d else d.pmuAdd k n

/-! ## DIMM telemetry (R544) -/

/-- PMU_DIMMn. -/
def Dimm.word (x : Dimm) : Nat :=
  x.power % 1024 * 2 ^ 22 + b2n x.present * 2 ^ 10 + b2n x.readFail * 2 ^ 9 + b2n x.highTemp * 2 ^ 8 + x.temp % 256

/-- DIMM_QUERY: for each of the channel's two DIMM slots, TEMP and the register (R544). -/
def execDimmQuery (h : Hdr) (ch : Nat) (s : State) : Host.Outcome State Fault Refusal :=
  onCmd s fun d => d.command h 0x0a04 [.f, .k] 1 fun d =>
    if 15 < ch then d.fail h 0x0a04 St.badParam 16
    else (d.regWake R.pmuCommit).ok h 0x0a04 ([2 * ch, 2 * ch + 1].flatMap fun n => [(1, (d.dimm n).temp), (4, (d.dimm n).word)])

/-! ## The telemetry ring (R535–R541) -/

def Die.telOn (d : Die) : Bool := bit (d.act R.pmuTelCfg) 31
def Die.telPeriod (d : Die) : Nat := fld (d.act R.pmuTelCfg) 20 16
def Die.telEntry (d : Die) : Nat := fld (d.act R.pmuTelCfg) 13 0

def execTelCfg (h : Hdr) (entry period : Nat) (s : State) : Host.Outcome State Fault Refusal :=
  onCmd s fun d => d.command h 0x0a00 [.f] 3 fun d =>
    if 16383 < entry ∨ (period ≠ 0 ∧ !d.plainEntry entry) then d.fail h 0x0a00 St.badParam 16
    else if period ≠ 0 ∧ (period < 10 ∨ 24 < period) then d.fail h 0x0a00 St.badParam 18
    else (d.regWake R.pmuCommit).commitFor .pmu (.telCfg h entry period)
      [(R.pmuTelCfg, (if period = 0 then 0 else 2 ^ 31) + period * 2 ^ 16 + entry)]

/-- DLA of the telemetry ring's slot `n`. -/
def Die.telSlot (d : Die) (n : Nat) : Nat := (d.bt d.telEntry).dlaBay * 2 ^ 30 + n * 8192

/-- The ring header as the dumper reads it, as master 11 under the bay's default key: `none` where it cannot be read. -/
def Die.telHeader (d : Die) : Option (List Nat) :=
  let a := d.telSlot 0
  match (d.readWhole a (d.defKeyOf (bayOf a)) (bayOf a) 0 11 0xffff 0 (Charge.own (d.masterLouvre 11 none)) []).1 with
  | .data l => some (leBytes 64 l.toNat)
  | _ => none

/-- CONS, written by host software; a header that cannot be read leaves the ring full. -/
def Die.telCons (d : Die) : Option Nat := d.telHeader.map fun b => ofLe ((b.drop 4).take 4)

/-- The slot after PROD: 131,071 wraps to 1. -/
def Die.nextProd (d : Die) : Nat := if d.pmu.prod = 131071 then 1 else d.pmu.prod + 1

/-- The next PROD would equal CONS (R539). -/
def Die.telFull (d : Die) : Bool :=
  match d.telCons with
  | some c => decide (d.nextProd = c)
  | none => true

/-- Write the ring header: whole with CONS = 1 where TEL_CFG names a bay (R535), else PROD and DROPS alone, since CONS is host software's
(R536, R538). -/
def Die.writeHeader (d : Die) (first : Bool) : Die :=
  let mask : BitVec 64 := if first then BitVec.allOnes 64 else 0xf00f
  (d.innerWrite 11 0 d.telEntry (d.telSlot 0) (lineOf
    (leBytes 4 d.pmu.prod ++ leBytes 4 1 ++ leBytes 4 131071 ++ leBytes 4 (min d.pmu.drops 0xffffffff) ++ List.replicate 48 0)) mask).2

/-- The 64 B header of a record (R541). -/
def Die.recHeader (d : Die) (gap : Bool) (transom time : Nat) : List Nat :=
  let sleep (t : Nat) : List Nat := leBytes 8 (if gap then t else 0)
  [if gap then 2 else 1, b2n d.pmu.resetSeen + 2 * b2n d.pwr.hot, d.pwr.level, d.telPeriod] ++ leBytes 4 (d.pmu.rseq + 1) ++
    leBytes 8 transom ++ leBytes 8 time ++ sleep d.pwr.sleepStart ++ sleep d.pwr.sleepEnd ++ leBytes 2 (min d.pmu.lost 0xffff) ++
    List.replicate 22 0

/-- The body of a DUMP record: counters, slot counters, DIMMs. -/
def Die.recBody (d : Die) (time : Nat) : List Nat :=
  ((List.range 512).flatMap fun k => leBytes 8 (d.pmuVal k)) ++ ((List.range 64).flatMap fun i => leBytes 8 (Tbl.get 0 d.pmu.slots i)) ++
  (List.range 32).flatMap fun n =>
    leBytes 4 (d.dimm n).word ++ leBytes 4 (min ((time - Tbl.get 0 d.pmu.dimmAt n) / 100) 0xffffffff)

/-- A snapshot lost (R539). -/
def Die.telLost (d : Die) : Die := { d with pmu := { d.pmu with lost := d.pmu.lost + 1 } }

/-- Skipped: the previous record is still being written, the telemetry bay is not LIVE, or doorstop. -/
def Die.telSkip (d : Die) : Die := (d.telLost.count R.pmuDumpSkip 1).event R.pmuEvent 4

/-- Dropped: DROPS and PMU_DUMP_DROP rise. -/
def Die.telDrop (d : Die) : Die :=
  let d1 := { d.telLost with pmu := { d.telLost.pmu with drops := min (d.pmu.drops + 1) 0xffffffff } }
  (d1.count R.pmuDumpDrop 1).event R.pmuEvent 3

/-- Start a record of the boundary `transom` (R538–R541): its lines are issued as master 11 under the telemetry bay's default key. -/
def Die.startRecord (d : Die) (gap : Bool) (transom : Nat) : Die :=
  if d.pmu.dump.isSome ∨ !d.plainEntry d.telEntry ∨ d.flt.doorstop then d.telSkip
  else if d.telFull then d.telDrop
  else
    let time := transom * 50
    let bytes := d.recHeader gap transom time ++ if gap then [] else d.recBody time
    let r : DumpRec := { slot := d.pmu.prod, gap := gap, failed := false }
    let x := { d with pmu := { d.pmu with dump := some r } }.storeBytes 11 1 d.telEntry (d.pmu.prod * 8192) bytes
    x.2.dumpLine 1 x.1

/-- The GAP record due after a sleep, at the first boundary after it (R540). -/
def Die.gapBoundary (d : Die) (transom : Nat) : Die :=
  if !d.pmu.gapDue then d
  else
    let d1 := { d with pmu := { d.pmu with gapDue := false } }
    if d1.telOn then d1.startRecord true transom else d1

/-- The dumper takes the snapshot of the coming boundary, before step 1 of R71 (R537): every 2^P transoms, not in SL2 or SL3. -/
def execDumpSnapshot (s : State) : Host.Outcome State Fault Refusal :=
  onLive s fun d =>
    let n := d.transom + 1
    let asleep : Bool := match d.pwr.st with
      | .run | .sl1 _ | .sl2Entry => false
      | .sl3Entry k => decide (2 ≤ k)
      | _ => true
    if !d.telOn ∨ asleep ∨ n % 2 ^ d.telPeriod ≠ 0 ∨ d.pmu.snapped = n then d
    else
      let d1 := (d.active).gapBoundary n
      { d1 with pmu := { d1.pmu with snapped := n } }.startRecord false n

/-- The lines of slot `slot`'s record have all completed: PROD advances in the header; a write denied or poisoned ends the record as dropped (R538,
R539). -/
def execDumpRecordDone (slot : Nat) (s : State) : Host.Outcome State Fault Refusal :=
  onLive s fun d =>
    match d.pmu.dump with
    | none => d
    | some r =>
      let d1 := { d with pmu := { d.pmu with dump := none } }
      if r.slot ≠ slot ∨ d.txns.any fun (t : Txn) => decide (t.master = 11) && decide (t.tag = 1) then d
      else if r.failed then d1.telDrop
      else
        let d2 := { d1 with pmu := { d1.pmu with prod := d1.nextProd, rseq := (d1.pmu.rseq + 1) % 2 ^ 32, lost := 0, resetSeen := false } }
        let d3 := (d2.writeHeader false).event R.pmuEvent 2
        if r.gap then d3.event R.pmuEvent 5 else d3

/-- After a telemetry command's commit: TEL_CFG's ring header (R535), then the reply (R400). -/
def Die.afterPmu (d : Die) (c : Instr) : Die :=
  match c with
  | .telCfg h _ period =>
    let d1 := if period = 0 then d
      else { d with pmu := { d.pmu with prod := 1, drops := 0, rseq := 0, lost := 0 } }.writeHeader true
    d1.ok h 0x0a00 []
  | .pmuSelect h _ _ _ => d.ok h 0x0a01 []
  | .telWindow h _ _ => d.ok h 0x0a02 []
  | _ => d

end Sys2Proof.Machine
end

