-- ==== Sys2Proof/Machine/Views.lean ====
section
/-! DEFINITION. Machine/Views.lean: what a read of every register of the management window gives (R5, R565–R575), register writes
by access type (R5, R402, R412, R413, R566–R568), latching reads (R112, R494, R530, R573), and JTAG accesses (R426). -/

namespace Sys2Proof.Machine

/-! ## Values of the read-only registers -/

/-- Instance number of offset `o` in `n` registers `stride` apart from `lo`. -/
def instOf (o lo stride n : Nat) : Option Nat :=
  if lo ≤ o ∧ (o - lo) % stride = 0 ∧ (o - lo) / stride < n then some ((o - lo) / stride) else none

/-- The first register value that applies. -/
def firstSome : List (Option Nat) → Option Nat
  | [] => none
  | some v :: _ => some v
  | none :: t => firstSome t

/-- A value at one offset. -/
def at_ (o lo v : Nat) : Option Nat := if o = lo then some v else none

/-- A list of Bools as bits, the first bit 0. -/
def bitsOf (l : List Bool) : Nat := (l.zip (List.range l.length)).foldl (fun a (e : Bool × Nat) => a + b2n e.1 * 2 ^ e.2) 0

/-- Word `w` of an unset 64-bit or shorter value. -/
def word (v w : Nat) : Nat := v / 2 ^ (32 * w) % 2 ^ 32

/-- GEN (R573). GEN_TIME_HI holds its latch in the register file. -/
def Die.genView (d : Die) (o : Nat) : Option Nat :=
  let image := if d.boot.step < 4 then 0 else d.boot.image
  firstSome [at_ o 0x0 genId, at_ o 0x8 (word Config.uid.toNat 0), at_ o 0xc (word Config.uid.toNat 1), at_ o 0x10 d.fwVer,
    at_ o 0x14 (d.boot.step % 16 * 2 ^ 28 + image % 2 * 2 ^ 27 + b2n d.boot.alt * 2 ^ 26 + b2n d.boot.hold * 2 ^ 25),
    at_ o 0x18 (d.boot.gib % 2 ^ 14 * 2 ^ 16 + d.boot.trainedMask % 2 ^ 16),
    at_ o 0x1c (b2n Config.jtagLock * 2 + b2n Config.pubkeyValid), at_ o 0x20 (word d.time 0)]

/-- HPTn (R68, R69, R50). -/
def Die.hptView (d : Die) (o : Nat) : Option Nat :=
  let p := (o - 0x10000) / 0x10000
  let x := d.port p
  firstSome [at_ o (R.hptLinkStatus p) x.linkStatus.toNat, at_ o (R.hptFcxcap p) fcxCap.toNat, at_ o (R.hptFcxctl p) x.fcxCtl.toNat,
    at_ o (R.hptFcxsts p) x.fcxSts.toNat]

/-- XBR_STAT (R574): every agent and home port serves while the fabric runs, from start-up step 1. -/
def Die.xbrView (d : Die) (o : Nat) : Option Nat :=
  at_ o R.xbrStat (if d.boot.started && decide (1 ≤ d.boot.step) then 0xfff * 2 ^ 12 + 0xff else 0)

/-- TRS (R112, R113). -/
def Die.trsView (d : Die) (o : Nat) : Option Nat :=
  firstSome [at_ o R.trsCountLo (word d.transom 0), at_ o R.trsReval d.reval.toNat,
    (instOf o (R.trsChLoad 0) 4 16).map fun c => (d.chLoad c).toNat, (instOf o (R.trsPortLoad 0) 4 6).map fun p => (d.portLoad p).toNat]

/-- LVR_CH_THROTTLEc (R140). -/
def Die.chThrottle (d : Die) (c : Nat) : Nat :=
  let ds := [d.dimm (2 * c), d.dimm (2 * c + 1)].filter fun (y : Dimm) => y.present
  let t := ds.foldl (fun a (y : Dimm) => max a (if y.temp = 255 then 0 else y.temp)) 0
  let limit := fld (d.act R.lvrPmic) 9 0
  (d.chan c).level % 4 * 2 ^ 16 + b2n (ds.any fun y => decide (3 ≤ y.fails)) * 2 ^ 15 + b2n (ds.any fun y => y.highTemp) * 2 ^ 14 +
    b2n (decide (limit ≠ 0) && ds.any fun y => decide (limit < y.power)) * 2 ^ 13 +
    b2n (decide (ds ≠ []) && decide (fld (d.act R.lvrTherm) 7 0 ≤ t)) * 2 ^ 12 + t % 256

/-- LVR (R139, R140). -/
def Die.lvrView (d : Die) (o : Nat) : Option Nat :=
  firstSome [(instOf o (R.lvrChThrottle 0) 4 16).map d.chThrottle,
    (instOf o (R.lvrState 0) 16 256).map fun v =>
      let x := d.louvre v
      x.prio % 8 * 2 ^ 29 + x.step % 8 * 2 ^ 26 + x.e % 2 ^ 24,
    (instOf o (R.lvrOcc 0) 16 256).map fun v =>
      b2n (d.atLimit v) * 2 ^ 9 + (List.range 16).foldl (fun a c => max a (d.occ c v)) 0 % 2 ^ 9]

/-- CHAn, and CHA0's domain table (R193, R194). -/
def Die.chaView (d : Die) (o : Nat) : Option Nat :=
  let h := (o - 0x100000) / 0x10000
  let busy := (d.home.busy.filter fun (b : Busy) => decide (homeOf b.dla = h)).length
  let spare := min 64 (d.home.waysOut.filter fun x => decide (x / 2 ^ 16 = h)).length
  firstSome [at_ o (R.chaDirStat h) (busy % 2 ^ 13 * 2 ^ 16 + spare),
    at_ o (R.chaWaitStat h) (Tbl.get 0 d.home.waitPeak h % 2 ^ 13 * 2 ^ 16 + d.waiting h % 2 ^ 13),
    (instOf o (R.cha0DomStat 0) 16 64).map fun n =>
      let x := d.domStat n
      x.1 % 4 * 2 ^ 30 + x.2.1 % 8 * 2 ^ 27 + x.2.2 % 8 * 2 ^ 24]

/-- MCHn_STAT (R575). -/
def Die.mchStat (d : Die) (c : Nat) : Nat :=
  let x := d.chan c
  let speed := if !x.trained then 0 else if x.fast then 2 else 1
  b2n x.trained * 2 ^ 31 + b2n x.excluded * 2 ^ 30 + x.dimms % 4 * 2 ^ 28 + speed * 2 ^ 26 + b2n (d.extRefresh c) * 2 ^ 25 +
    b2n x.cons * 2 ^ 24 + x.spare % 4 * 2 ^ 22 + x.retired.length % 2 ^ 9

def Die.mchView (d : Die) (o : Nat) : Option Nat := (instOf o (R.mchStat 0) 0x10000 16).map d.mchStat

/-- HBC_FLUSH_STAT (R354): sets left for the last retirement to join. -/
def Die.hbcView (d : Die) (o : Nat) : Option Nat :=
  at_ o R.hbcFlushStat (b2n d.hbc.walk.isSome * 2 ^ 31 + d.keys.rets.foldl (fun a (r : Retire) => max a r.setsLeft) 0 % 2 ^ 23)

/-- CRYn_STAT, PCXn_STAT (R275, R322): a unit serves a trained channel in service, or stands in for one. -/
def Die.serveStat (d : Die) (unit : Chan → Nat) (n : Nat) : Nat :=
  match (List.range 16).find? fun c => decide (unit (d.chan c) = n) && (d.chan c).trained && !(d.chan c).excluded with
  | some c => 2 ^ 31 + c * 2 ^ 24
  | none => 0

def Die.cryView (d : Die) (o : Nat) : Option Nat := (instOf o (R.cryStat 0) 0x10000 20).map (d.serveStat Chan.lane)
def Die.pcxView (d : Die) (o : Nat) : Option Nat := (instOf o (R.pcxStat 0) 0x1000 18).map (d.serveStat Chan.codec)

/-- ITR (R242, R243). -/
def Die.itrView (d : Die) (o : Nat) : Option Nat :=
  let i := d.itr
  let dirty := (i.cc.filter fun (e : Nat × CcEnt) => e.2.dirty).length
  let pinned := (i.blocks.filter fun (b : Nat × Block) => b.2.pinned).length
  let used := (i.blocks.filter fun (b : Nat × Block) => b.2.bay.isSome).length
  firstSome [at_ o R.itrCcStat (b2n i.ready * 2 ^ 31 + dirty % 2 ^ 17), at_ o R.itrPendStat (i.pend.length % 128),
    at_ o R.itrPinStat (pinned % 128 * 2 ^ 8 + (126 - used)),
    (instOf o (R.itrLostLo 0) 8 64).map fun n => (i.lost[n]?).elim 0 fun (x : Lost) => x.page % 2 ^ 31,
    (instOf o (R.itrLostHi 0) 8 64).map fun n => (i.lost[n]?).elim 0 fun (x : Lost) => 2 ^ 31 + x.level % 4,
    (instOf o (R.itrBlock 0) 4 126).map fun n =>
      match i.blocks.find? n with
      | some b => b2n b.bay.isSome * 2 ^ 31 + b2n (b.filling || b.writing) * 2 ^ 30 + b.pins.length % 2 ^ 11 * 2 ^ 16 + b.bay.getD 0 % 2 ^ 13
      | none => 0]

/-- The shared page-map block (R323, R324). -/
def Die.pcxsView (d : Die) (o : Nat) : Option Nat :=
  let mapped := ((d.usedEntries.map fun e => (d.bt e).dlaBay).filter mappedBay).eraseDups.length
  let s := fld (d.regR R.pcxStoreSel) 11 0
  firstSome [at_ o R.pcxMapStat (mapped % 2 ^ 13 * 2 ^ 16 + d.pmap.stores.length % 2 ^ 13),
    at_ o R.pcxStoreInfo ((d.pmap.stores.find? s).elim 0 fun (x : Store) => 2 ^ 31 + x.bay % 2 ^ 13),
    at_ o R.pcxStoreFree ((d.pmap.stores.find? s).elim 0 fun (_ : Store) => d.freeSlabs s % 2 ^ 22)]

/-- CJE_QSTATq (R326). -/
def Die.cjeView (d : Die) (o : Nat) : Option Nat :=
  (instOf o (R.cjeQstat 0) 32 64).map fun q => (d.qStat q).toNat

/-- TIR_STAT (R356). -/
def Die.tirView (d : Die) (o : Nat) : Option Nat :=
  at_ o R.tirStat ((d.tir.scans.head?).elim 0 (fun (s : Scan) => 2 ^ 31 + s.bay % 2 ^ 14 * 2 ^ 16) + d.tir.moves.length % 128)

/-- TEN (R385, R386). -/
def Die.tenView (d : Die) (o : Nat) : Option Nat :=
  firstSome [at_ o R.tenLogBuf (d.tens.logs.length % 2 ^ 12), (instOf o (R.tenStat 0) 16 1024).map fun t => (d.tenStatReg t).toNat,
    (instOf o (R.tenBtLo 0) 8 16384).map fun e => (d.bt e).lo.toNat, (instOf o (R.tenBtHi 0) 8 16384).map fun e => (d.bt e).hi.toNat]

/-- MGT (R407). -/
def Die.mgtView (d : Die) (o : Nat) : Option Nat :=
  firstSome [at_ o R.mgtStat (b2n (decide (15 ≤ d.boot.step)) * 2 ^ 31 + b2n d.dbl.owned * 2 ^ 30 + d.mgt.notices.length % 2 ^ 9),
    (instOf o (R.mgtRingCfg 0) 16 8).map fun k =>
      let x := d.ring k
      b2n x.valid * 2 ^ 31 + x.role % 2 * 2 ^ 30 + x.log2 % 16 * 2 ^ 26 + x.port % 8 * 2 ^ 23 + x.ten % 1024 * 2 ^ 13,
    (instOf o (R.mgtRingTail 0) 16 8).map fun k => (d.ring k).tail % 1024,
    (instOf o (R.mgtRingHead 0) 16 8).map fun k => (d.ring k).head % 1024]

/-- PWR (R494). The HI registers other than PWR_WAKE_TIME_HI hold their latches in the register file. -/
def Die.pwrView (d : Die) (o : Nat) : Option Nat :=
  firstSome [at_ o R.pwrStat d.pwrStat.toNat, at_ o R.pwrReq d.pwrReq.toNat, at_ o R.pwrWakeMask (d.pwr.wakeMask % 2 ^ 16),
    at_ o R.pwrWakeCause (d.pwr.wakeCause % 2 ^ 16), at_ o R.pwrLastWake (d.pwr.lastWake % 256),
    at_ o R.pwrTemp (if d.pwr.sensors = [] then 0 else tempByte d.hottest), at_ o R.pwrDomStat0 (d.domStatReg 0 32).toNat,
    at_ o R.pwrDomStat1 (d.domStatReg 32 9).toNat, at_ o R.pwrSleepStartLo (word d.pwr.sleepStart 0),
    at_ o R.pwrSleepEndLo (word d.pwr.sleepEnd 0), (instOf o (R.pwrResLo 0) 8 7).map fun k => word (Tbl.get 0 d.pwr.res k) 0]

/-- OHM, as the last status frame gave it (R462, R464); OHM_TELEM0.IOUT is a free value. -/
def Die.ohmView (d : Die) (o : Nat) : Option Nat :=
  match d.ohmSeen with
  | none => none
  | some f =>
    firstSome [at_ o R.ohmStat f.stat.toNat, at_ o R.ohmCfg f.cfg.toNat, at_ o R.ohmTelem0 (f.telem0 (Config.iout d.draws)).toNat,
      at_ o R.ohmTelem1 f.telem1.toNat, (instOf o (R.ohmRecord 0) 4 4).map fun i => (f.recordReg i).toNat]

/-- Word `w` of a record. -/
def Rec.word (r : Rec) (w : Nat) : Nat := ((r.words true).getD w 0).toNat

/-- Entry `i` of a history queue (R501). -/
def Hq.entry (q : Hq) (i : Nat) : Option Rec :=
  let n := q.recs.length
  q.recs[(i + 64 - (q.next + 32 - n)) % 32]?

/-- FLT (R521). -/
def Die.fltView (d : Die) (o : Nat) : Option Nat :=
  let f := d.flt
  firstSome [at_ o R.fltStat (b2n f.doorstop * 2 ^ 31 + b2n f.selfParity * 2 ^ 30 + f.causeUnit % 2 ^ 9 * 2 ^ 16 + f.causeCode % 2 ^ 16),
    at_ o R.fltSeq (f.seq % 2 ^ 32),
    (instOf o (R.fltEpoch 0) 4 6).map fun k =>
      (List.range 8).foldl (fun a i => a + Tbl.get 0 f.epoch (8 * k + i) % 16 * 16 ^ i) 0,
    (instOf o (R.fltHqPtr 0) 4 12).map fun q =>
      let x := (f.hq.find? q).getD Hq.init
      x.drops % 2 ^ 16 * 2 ^ 16 + x.next % 32 * 2 ^ 8 + x.recs.length % 64,
    (instOf o 0xb10000 4 1992).map fun n => (f.lat.find? (n / 8)).elim 0 fun (r : Rec) => r.word (n % 8),
    (instOf o 0xb20000 4 3072).map fun n =>
      (((f.hq.find? (n / 256)).getD Hq.init).entry (n / 8 % 32)).elim 0 fun (r : Rec) => r.word (n % 8)]

/-- STU (R523). -/
def Die.stuView (d : Die) (o : Nat) : Option Nat :=
  let f := d.flt
  let (kind, res, unit, seq) := f.stuLast
  let queued := (f.tests.filter fun (t : Test) => !t.running).length
  firstSome [at_ o R.stuStat (b2n f.stuDisabled * 2 ^ 31 + queued % 128 * 2 ^ 16 + d.testsRunning 3 0 % 4 * 2 ^ 8 + d.testsRunning 1 0 % 32),
    at_ o R.stuLast (kind % 4 * 2 ^ 30 + res % 4 * 2 ^ 28 + unit % 512 * 2 ^ 16 + seq % 2 ^ 16)]

/-- PMU (R545, R546). PMU_CTRk_HI holds its latch in the register file. -/
def Die.pmuView (d : Die) (o : Nat) : Option Nat :=
  let p := d.pmu
  firstSome [at_ o R.pmuStat (b2n p.dump.isSome * 2 ^ 31 + b2n d.telFull * 2 ^ 30 + p.rseq % 2 ^ 16),
    (instOf o (R.pmuOvf 0) 4 16).map fun j => bitsOf ((List.range 32).map fun i => p.ovf.contains (32 * j + i)),
    (instOf o (R.pmuDimm 0) 4 32).map fun n => (d.dimm n).word, (instOf o (R.pmuCtrLo 0) 8 512).map fun k => word (d.pmuVal k) 0,
    (instOf o 0xc03000 8 64).map fun i => word (Tbl.get 0 p.slots i) 0, (instOf o 0xc03004 8 64).map fun i => word (Tbl.get 0 p.slots i) 1]

/-- KPS (R564); the keep registers are read by `Die.readReg`. -/
def Die.kpsView (d : Die) (o : Nat) : Option Nat :=
  let k := d.kps
  let worn := (k.wear.filter fun (e : Nat × Nat) => decide (wearMax ≤ e.2)).length
  firstSome [at_ o R.kpsStat (b2n k.ready * 2 ^ 31 + b2n (decide (k.queue ≠ [])) * 2 ^ 30 + worn % 2 ^ 11 * 2 ^ 11 + k.bad.length % 2 ^ 11),
    at_ o R.kpsLast (k.lastRes % 4 * 2 ^ 30 + k.lastIdx % 2 ^ 10),
    (instOf o (R.kpsWear 0) 4 1024).map fun n => b2n (k.bad.contains n) * 2 ^ 31 + Tbl.get 0 k.wear n % 2 ^ 20]

/-- KHT (R276). -/
def Die.khtView (d : Die) (o : Nat) : Option Nat :=
  let rets := d.keys.rets
  firstSome [at_ o R.khtStat d.khtStat.toNat, at_ o R.khtLoadseq (d.keys.loadSeq % 2 ^ 32),
    (instOf o (R.khtRetA 0) 8 8).map fun r => (rets[r]?).elim 0 fun (x : Retire) => (d.retA x).toNat,
    (instOf o (R.khtRetB 0) 8 8).map fun r => (rets[r]?).elim 0 fun (x : Retire) => x.b.toNat,
    (instOf o (R.khtSlotLo 0) 8 4096).map fun k => (d.slotLo k).toNat, (instOf o (R.khtSlotHi 0) 8 4096).map fun k => (d.slotHi k).toNat]

/-- The ITR root block (R244). -/
def Die.rootView (d : Die) (o : Nat) : Option Nat :=
  let i := d.itr
  firstSome [at_ o R.itrRootStat (b2n i.rootBBad * 4 + b2n i.rootABad * 2 + b2n i.tk.isSome),
    (instOf o R.itrHwm1Lo 8 3).map fun l => word (Tbl.get 0 i.hwm (l + 1)) 0, (instOf o R.itrHwm1Hi 8 3).map fun l => word (Tbl.get 0 i.hwm (l + 1)) 1]

/-- The value of a register that is computed from the block's state. -/
def Die.computed (d : Die) (o : Nat) : Option Nat :=
  if o < 0x10000 then d.genView o
  else if o < 0x70000 then d.hptView o
  else if o < 0x90000 then d.xbrView o
  else if o < 0xa0000 then d.trsView o
  else if o < 0xb0000 then d.lvrView o
  else if o < 0x180000 then d.chaView o
  else if o < 0x300000 then d.mchView o
  else if o < 0x310000 then d.hbcView o
  else if o < 0x540000 then d.cryView o
  else if o < 0x590000 then d.itrView o
  else if o < 0x612000 then d.pcxView o
  else if o < 0x620000 then d.pcxsView o
  else if o < 0x710000 then d.cjeView o
  else if o < 0x790000 then d.tirView o
  else if o < 0x840000 then d.tenView o
  else if o < 0x910000 then d.mgtView o
  else if o < 0xa10000 then d.pwrView o
  else if o < 0xa90000 then d.ohmView o
  else if o < 0xb30000 then d.fltView o
  else if o < 0xb90000 then d.stuView o
  else if o < 0xc10000 then d.pmuView o
  else if o < 0xd20000 then at_ o R.dbgStat d.dbgStat.toNat
  else if o < 0xe10000 then d.kpsView o
  else if o < 0xf10000 then d.khtView o
  else if o < 0xf11000 then at_ o R.dblStat d.dblStat.toNat
  else if 0xf30000 ≤ o ∧ o < 0xf31000 then d.rootView o
  else none

/-! ## Reads -/

/-- The secure window (R412). -/
def inSecureWindow (o : Nat) : Bool := decide (0xf00000 ≤ o ∧ o < 0x1000000)

/-- The keep register at an offset. -/
def keepAt (o : Nat) : Option Nat := instOf o (R.kpsKeep 0) 4 1024

/-- A secure keep register (R560). -/
def Die.secureKeep (d : Die) (o : Nat) : Bool := (keepAt o).any fun k => decide (d.keepSecBase ≤ k)

/-- What a read of the register at `o` gives (R5): RSV bits and offsets without a register 0 (R567, R571), the deadbolt secrets 0
(R414). The primary mailbox is as CXL 3.1 defines and the trace buffer holds a core's trace: free values. -/
def Die.view (d : Die) (o : Nat) : Nat :=
  if (0x901000 ≤ o ∧ o < 0x902020) ∨ (0xd10000 ≤ o ∧ o < 0xd20000) then word (Config.standardPayload d.draws) 0
  else match keepAt o with
    | some k => if 1000 ≤ k then 0 else (d.keep k).toNat
    | none =>
      match d.computed o with
      | some v => v
      | none => if (regRow o).isSome || (mirrorOf o).isSome then (d.regR o).toNat else 0

/-- LO offset of a pair. -/
def pairLo : LatchPair → Nat
  | .trsCount => R.trsCountLo
  | .genTime => R.genTimeLo
  | .pwrWakeTime => R.pwrWakeTimeLo
  | .pwrSleepStart => R.pwrSleepStartLo
  | .pwrSleepEnd => R.pwrSleepEndLo
  | .pwrRes k => R.pwrResLo k
  | .pmuCtr k => R.pmuCtrLo k

/-- LO offset and value of a pair; none where the window has no such pair. -/
def Die.latchPair (d : Die) (p : LatchPair) : Option (Nat × Nat) :=
  match p with
  | .trsCount => some (pairLo p, d.transom)
  | .genTime => some (pairLo p, d.time)
  | .pwrWakeTime => some (pairLo p, d.wakeTime)
  | .pwrSleepStart => some (pairLo p, d.pwr.sleepStart)
  | .pwrSleepEnd => some (pairLo p, d.pwr.sleepEnd)
  | .pwrRes k => if k < 7 then some (pairLo p, Tbl.get 0 d.pwr.res k) else none
  | .pmuCtr k => if k < 512 then some (pairLo p, d.pmuVal k) else none

/-- The pair whose LO register stands at `o`. -/
def pairAt (o : Nat) : Option LatchPair :=
  if o = R.trsCountLo then some .trsCount
  else if o = R.genTimeLo then some .genTime
  else if o = R.pwrWakeTimeLo then some .pwrWakeTime
  else if o = R.pwrSleepStartLo then some .pwrSleepStart
  else if o = R.pwrSleepEndLo then some .pwrSleepEnd
  else match instOf o (R.pwrResLo 0) 8 7, instOf o (R.pmuCtrLo 0) 8 512 with
    | some k, _ => some (.pwrRes k)
    | none, some k => some (.pmuCtr k)
    | none, none => none

/-- A read of a LO register latches its HI register, which keeps the value until the next such read (R112, R494, R530, R573); a HI
register that is RW keeps the value written to it. -/
def Die.latchHi (d : Die) (p : LatchPair) : Die :=
  match d.latchPair p with
  | some (lo, v) => if p = .pwrWakeTime then d else d.regW (lo + 4) (BitVec.ofNat 32 (word v 1))
  | none => d

/-- A 4 B read by a source in the given world: a normal-world read of the secure window or of a secure keep register gives 0 and is
logged (R412, R560); a read of a LO register latches its HI register. -/
def Die.readReg (d : Die) (src : Src) (secure : Bool) (o : Nat) : Nat × Die :=
  if !secure && (inSecureWindow o || d.secureKeep o) then (0, d.windowDeny src o false)
  else
    let d1 := match pairAt o with
      | some p => d.latchHi p
      | none => d
    (d.view o, { d1 with draws := d1.draws + 1 })

/-! ## Writes -/

/-- The world a source's access carries (R410): host ports, mover, job engine and dumper are normal. -/
def srcSecure (s : Src) : Bool := s.secure && decide (s.master = 10 ∨ 12 ≤ s.master)

/-- The staged group of an RWS register. -/
def groupOfReg (o : Nat) : Option Group :=
  let all : List Group := [.trs, .lvr, .dom, .itr, .pcx, .cje, .tir, .hbc, .ten, .pwr, .flt, .pmu] ++ (List.range 6).map Group.hpt
  all.find? fun g => decide ((Group.span g).1 ≤ o) && decide (o < (Group.span g).1 + (Group.span g).2)

/-- The group whose commit register stands at `o`. -/
def groupOfCommit (o : Nat) : Option Group := (groupOfReg o).filter fun g => decide (Group.commitReg g = o)

/-- A write to a commit register (R105, R108, R111): WR_DROP is cleared by a 1, GO set by a 1. -/
def Die.writeCommit (d : Die) (g : Group) (v : Nat) : Die :=
  let o := Group.commitReg g
  let d1 := if v.testBit 30 then d.regW o (setFld (d.regR o) 30 30 0) else d
  if v.testBit 31 then d1.writeGo g else d1

/-- A write to an RWS register lands in the staged copy; while GO reads 1 it is dropped and WR_DROP sets (R104, R108). -/
def Die.writeStaged (d : Die) (o : Nat) (v : Reg) : Die :=
  match groupOfReg o with
  | none => d.regW o v
  | some g => if d.going g then d.regW (Group.commitReg g) (setFld (d.regR (Group.commitReg g)) 30 30 1) else d.regW o v

/-- A W1C write; clearing FLT_EVENT.UC releases SB_ALERT1_N (R502). -/
def Die.writeW1c (d : Die) (o v : Nat) : Die :=
  let old := (d.regR o).toNat
  let d1 := d.regW o (BitVec.ofNat 32 (old - (old &&& v)))
  if o = R.fltEvent ∧ (old &&& v).testBit 2 then d1.emit (.alert 1 false) else d1

/-- Firmware's write to a keep register joins the writes waiting (R557); a secure one from the normal world is dropped and logged,
and what the deadbolt engine alone writes is dropped from every core (R559, R560). -/
def Die.writeKeep (d : Die) (src : Src) (secure : Bool) (o k : Nat) (v : Nat) : Die :=
  if d.keepSecBase ≤ k ∧ !secure then (d.windowDeny src o true).event R.kpsEvent 0
  else if 994 ≤ k then d.event R.kpsEvent 0
  else { d with kps := { d.kps with queue := d.kps.queue ++ [{ k := k, v := BitVec.ofNat 32 v, hdr := none }] } }

/-- A region register of the MUL block (R439). -/
def isRegionReg (o : Nat) : Bool := decide (R.mulBase 0 ≤ o ∧ o < R.mulBase (17 * 64))

/-- A write with the rights of master 13 acts by access type (R5, R402). Until start-up step 15, secure firmware writes the region
registers itself (R419). -/
def Die.writeBy (d : Die) (src : Src) (secure : Bool) (r : RegRow) (o v : Nat) : Die :=
  let m := v &&& r.mask
  match r.acc with
  | .rw => match instOf o (R.mgtRingTail 0) 16 8 with
    | some k => (d.setRing k { (d.ring k) with tail := if (d.ring k).valid then m % 2 ^ (d.ring k).log2 else m }).ringAsk k
    | none => d.regW o (BitVec.ofNat 32 m)
  | .w1c => d.writeW1c o m
  | .rws => d.writeStaged o (BitVec.ofNat 32 m)
  | .commit => match groupOfCommit o with
    | some g => d.writeCommit g v
    | none => d
  | .rwk => match keepAt o with
    | some k => d.writeKeep src secure o k v
    | none => d
  | .rwd =>
    if secure ∧ !src.jtag ∧ isRegionReg o ∧ d.boot.step < 15 ∧ !d.boot.done then d.regW o (BitVec.ofNat 32 m) else d.rejectWrite src o
  | .ro | .cnt => d

/-- A write from a host port (R402). -/
def Die.writeHost (d : Die) (src : Src) (r : RegRow) (o v : Nat) : Die :=
  let m := v &&& r.mask
  let secureKeep := d.secureKeep o
  if secureKeep then (d.windowDeny src o true).event R.kpsEvent 0
  else match r.acc with
    | .ro | .cnt => d
    | .w1c => d.writeW1c o m
    | _ =>
      if o = R.pcxStoreSel then d.regW o (BitVec.ofNat 32 m)
      else match instOf o (R.cjeDb 0) 32 64, instOf o (R.mgtRingTail 0) 16 8 with
        | some q, _ =>
          if (d.jobTen q).all fun t => decide (d.tenPort t = src.port) then d.regW o (BitVec.ofNat 32 m) else d.rejectWrite src o
        | _, some k =>
          let x := d.ring k
          if x.valid ∧ x.port = src.port then (d.setRing k { x with tail := m % 2 ^ x.log2 }).ringAsk k else d.rejectWrite src o
        | _, _ => d.rejectWrite src o

/-- A 4 B write at an aligned offset, by a source in the given world. -/
def Die.write4 (d : Die) (src : Src) (secure : Bool) (o v : Nat) : Die :=
  if inSecureWindow o && !secure then d.windowDeny src o true
  else match regRow o with
    | none => d
    | some r => if src.master < 6 ∧ !src.jtag then d.writeHost src r o v else d.writeBy src secure r o v

/-- A write of any size (R566). -/
def Die.writeReg (d : Die) (src : Src) (secure : Bool) (o size v : Nat) : Die :=
  if size = 4 ∧ o % 4 = 0 then d.write4 src secure o (v % 2 ^ 32)
  else if size = 8 ∧ o % 8 = 0 then (d.write4 src secure o (word v 0)).write4 src secure (o + 4) (word v 1)
  else if inSecureWindow o && !secure then d.windowDeny src o true
  else d.rejectWrite src o

/-! ## The commands -/

/-- A write in a tenant LD's window (R572): a doorbell, by 4 bytes or by the lower half of 8; counters drop it (R543), and what CXL 3.1
defines there holds no state of the model. -/
def Die.ldWrite (d : Die) (src : Src) (offset size value : Nat) : Die :=
  if 0xe000 ≤ offset ∧ offset < 0xe200 ∧ offset % 8 = 0 ∧ (size = 4 ∨ size = 8) then d.ldDoorbell src ((offset - 0xe000) / 8) value
  else d.active

/-- A read in a tenant LD's window (R572): an open counter, a doorbell of its tenancy's queues, what CXL 3.1 defines (a free value), else 0
(R567). -/
def Die.ldRead (d : Die) (src : Src) (offset : Nat) : Die :=
  let d := d.active
  let give (d : Die) (v : Nat) : Die := d.emit (.regData src offset v)
  let k := offset % 0x1000 / 8
  if 0xd000 ≤ offset ∧ offset < 0xe000 then
    give (d.regWake (R.pmuSel 0)) (if (d.ldTenancy src).any fun t => d.openTo t k then d.pmuVal k else 0)
  else if 0xe000 ≤ offset ∧ offset < 0xe200 then
    give d (if (d.ldTenancy src).isSome ∧ d.jobTen k = d.ldTenancy src then d.qTail k else 0)
  else if offset < 0x1080 ∨ (0x2000 ≤ offset ∧ offset < 0x3020) then give d.payload.2 (d.payload.1 % 2 ^ 32)
  else if offset < 2 ^ 16 then give d 0
  else d

/-- A write to a register of the management window that has no row of its own (R5, R402, R566, R567). -/
def execRegisterWrite (src : Src) (offset size value : Nat) (s : State) : Host.Outcome State Fault Refusal :=
  onWindow s src (ld := fun d => d.ldWrite src offset size value) fun d =>
    if 0x1000000 ≤ offset then d
    else if src.jtag ∧ !d.mayWrite src then d
    else (d.regWake offset).writeReg src (srcSecure src) offset size value

/-- An access to the secure window (R412, R413, R571). -/
def execSecureWindowAccess (src : Src) (offset : Nat) (write : Bool) (value : Nat) (s : State) : Host.Outcome State Fault Refusal :=
  let f (d : Die) : Die :=
    if !inSecureWindow offset ∨ offset % 4 ≠ 0 then d
    else if write then d.active.write4 src (srcSecure src) offset (value % 2 ^ 32)
    else
      let r := d.active.readReg src (srcSecure src) offset
      r.2.emit (.regData src offset r.1)
  onWindow s src f (ld := fun d => if write then d.active else d.ldRead src offset)

/-- Where a tenant LD reads: counter `k` in its own place, any other offset as it stands (R543, R572). -/
def ldPlace : LatchPair → Nat
  | .pmuCtr k => if k < 512 then 0xd000 + 8 * k else 2 ^ 16
  | p => pairLo p

/-- A read of a LO register by a row of its own, which latches its HI register. -/
def execLatchingRead (src : Src) (p : LatchPair) (s : State) : Host.Outcome State Fault Refusal :=
  onWindow s src (ld := fun d => d.ldRead src (ldPlace p)) fun d =>
    match d.latchPair p with
    | none => d
    | some (lo, v) => ((d.regWake lo).emit (.regData src lo (word v 0))).latchHi p

/-- JTAG as a source: the rights of master 13 (R426). -/
def jtagSrc (secure : Bool) : Src := { master := 13, port := 0, secure := secure, jtag := true }

/-- A JTAG access to the window (R426): reads of the normal window under NP, writes under NI; reads of the secure window under SP,
writes under SI. An access for a halted secure-world core under SI is secure (R410). Nothing where JTAG is locked (R573). -/
def Die.jtagAccess (d : Die) (offset : Nat) (secureHalted write : Bool) (value : Nat) : Die :=
  let sec := secureHalted && d.dbg.si
  let src := jtagSrc sec
  let win := inSecureWindow offset
  let may := !Config.jtagLock && decide (offset % 4 = 0) && decide (offset < 0x1000000) &&
    (if win then (if write then d.dbg.si else d.sp) else if write then d.dbg.ni else d.np)
  if Config.jtagLock ∨ offset % 4 ≠ 0 ∨ 0x1000000 ≤ offset then (if write then d else d.emit (.dbgWord 0))
  else if !may then
    let d1 := if win then d.windowDeny src offset write else d
    if write then d1 else d1.emit (.dbgWord 0)
  else if write then (d.regWake offset).write4 src (win || sec) offset (value % 2 ^ 32)
  else
    let r := (d.regWake offset).readReg src (win || sec) offset
    r.2.emit (.dbgWord r.1)

/-- The GEN identity registers, which boundary scan reads in the recovery hold (R550, R573). -/
def genIdentity (offset : Nat) : Bool := [0x0, 0x4, 0x8, 0xc, 0x1c].contains offset

def execJtagAccess (offset : Nat) (secureHalted write : Bool) (value : Nat) (s : State) : Host.Outcome State Fault Refusal :=
  onDie s fun d =>
    if d.boot.hold then (if !write ∧ genIdentity offset then d.emit (.dbgWord (d.view offset)) else d)
    else if d.live then d.jtagAccess offset secureHalted write value
    else d

end Sys2Proof.Machine
end

