-- ==== Sys2Proof/Machine/Boundary.lean ====
section
/-! DEFINITION. Machine/Boundary.lean: the transom boundary (R71) and all that takes effect with it: staged commits (R105–R110),
deadbolt changes, caps, contracts and credit, levels, louvres (R131–R133), and the operations that move at boundaries. -/

namespace Sys2Proof.Machine

/-! ## Staged commits (R71 step 1) -/

/-- A commit made or rejected at this boundary: GO stands, long enough (R105), and its block's domain is powered (R110). -/
def Die.commitReady (d : Die) (c : CommitReq) : Bool :=
  d.firstOfGroup c && d.going c.group && decide (c.at_ + goLead d.pwr.level ≤ d.time) && !d.gated c.group

/-- Header and opcode of the commands that end with a commit. -/
def commitHdr : Instr → Option (Hdr × Nat)
  | .portSet h _ _ => some (h, 0x0208)
  | .lvrSet h _ _ _ => some (h, 0x0209)
  | .lvrGlobal h _ _ _ _ _ => some (h, 0x020a)
  | .tierSet h _ _ => some (h, 0x0306)
  | .memCfg h _ => some (h, 0x0307)
  | .bayAdd h _ => some (h, 0x0300)
  | .baySet h _ _ _ _ _ => some (h, 0x0302)
  | .conDefaults h _ => some (h, 0x0406)
  | .tenCreate h _ _ _ _ => some (h, 0x0200)
  | .tenSet h _ _ _ => some (h, 0x0201)
  | .tenLog h _ _ _ => some (h, 0x0205)
  | .tenResize h _ _ => some (h, 0x0204)
  | .domCreate h _ _ _ => some (h, 0x0600)
  | .domJoin h _ _ _ => some (h, 0x0601)
  | .domLeave h _ _ => some (h, 0x0602)
  | .domDestroy h _ _ => some (h, 0x0603)
  | .domRebuild h _ _ => some (h, 0x0604)
  | .domAddBay h _ _ _ _ => some (h, 0x0605)
  | .qSetup h _ _ _ _ _ => some (h, 0x0700)
  | .qDisable h _ => some (h, 0x0702)
  | .telCfg h _ _ => some (h, 0x0a00)
  | .pmuSelect h _ _ _ => some (h, 0x0a01)
  | .telWindow h _ _ => some (h, 0x0a02)
  | _ => none

/-- What a made commit of a command sets going, and its reply. -/
def Die.afterCommit (d : Die) (i : Instr) (old : Die) : Die :=
  let d1 := ((((d.afterTen i old).afterBay i).afterDom i old).afterQueue i).afterPmu i
  match i with
  | .memCfg h _ => d1.ok h 0x0307 []
  | .conDefaults h _ => d1.ok h 0x0406 []
  | _ => d1

/-- What a command had already done is undone where its commit is rejected: by further commits, where registers are concerned. -/
def Die.undoCommand (d : Die) (i : Instr) : Die :=
  match i with
  | .bayAdd _ p => { d with tens := { d.tens with adds := d.tens.adds.erase p.ten } }
  | .tenResize _ t _ =>
    let copied (e : Nat) : Bool := (d.entryOwner e).isNone && (d.tenEntries t).any fun x => decide ((d.bt x).dlaBay = (d.bt e).dlaBay)
    (d.emptyEntries (d.tens.bt.keys.filter copied)).dropTenOp t
  | .domJoin _ n t _ => d.unjoin n t
  | .domLeave _ n _ | .domDestroy _ n _ => if (d.domStat n).1 = 3 then d.setDomStat n (1, 0, 7) else d
  | .domAddBay _ _ owner bay list =>
    let e := d.segBase owner + bay; let b := d.bt e
    let others := (d.entriesOfBay b.dlaBay).filter fun x => list.any fun (y : Nat × Nat) => decide ((d.bt x).ten = y.1)
    (d.emptyEntries others).askCommits
      [{ group := .ten, at_ := d.time, cmd := none, writes := btuWrites e { b with inDom := false, dom := 0 }, source := some e }]
  | _ => d

/-- Take a commit off the list; its command's other commits remember a rejection. -/
def Die.endCommit (d : Die) (c : CommitReq) (bad : Option Nat) : Die :=
  let rest := (d.mgt.commits.erase c).map fun (x : CommitReq) =>
    if c.cmd.isSome ∧ x.cmd = c.cmd ∧ x.bad.isNone then { x with bad := bad } else x
  { d with mgt := { d.mgt with commits := rest } }

/-- One commit at a boundary; `old` is the state before the boundary's commits. -/
def Die.doCommit (old d : Die) (c : CommitReq) : Die :=
  match d.mgt.commits.find? fun (x : CommitReq) => decide (x.group = c.group) with
  | none => d
  | some c =>
    let r := d.runCommit c.group
    let bad := match r.1 with
      | some (reg, b) => c.bad <|> some (rejectDetail c.group (reg - (Group.span c.group).1) b)
      | none => c.bad
    let d1 := r.2.endCommit c bad
    match c.cmd with
    | none => d1
    | some i =>
      if d1.mgt.commits.any fun (x : CommitReq) => decide (x.cmd = some i) then d1
      else match bad with
        | none => d1.afterCommit i old
        | some w => match commitHdr i with
          | some (h, op) => (d1.undoCommand i).fail h op St.commitReject w
          | none => d1

/-- Step 1. A louvre whose TARGET a commit changed starts measuring anew (R131). -/
def Die.commitBoundary (d : Die) : Die :=
  let d1 := (d.mgt.commits.filter d.commitReady).foldl (Die.doCommit d) d
  (List.range 256).foldl (fun (x : Die) v =>
    if fld (x.act (R.lvrTarget v)) 15 0 ≠ fld (d.act (R.lvrTarget v)) 15 0 then x.setLouvre v { (x.louvre v) with e := 0 } else x) d1

/-! ## Louvres (R131–R133) -/

/-- e after a transom with `n` reads of `sum` ns in all. -/
def nextE (e sum n : Nat) : Nat := if n = 0 then e else min ((15 * e + sum / n) / 16) 16777215

/-- STEP of R132. -/
def stepOf (e target : Nat) : Nat :=
  if target = 0 then 0 else ([4, 5, 6, 7, 8, 10, 12].filter fun k => decide (k * target ≤ 8 * e)).length

/-- Take the transom's samples into e. -/
def Die.measureBoundary (d : Die) : Die :=
  { d with lv := d.lv.map fun (x : Nat × Lv) => (x.1, ({ x.2 with e := nextE x.2.e x.2.sum x.2.n, sum := 0, n := 0 } : Lv)) }

/-- STEP and effective priority for the transom that begins. -/
def Die.louvreBoundary (d : Die) : Die :=
  (List.range 256).foldl (fun (d : Die) v =>
    let x := d.louvre v
    let t := d.act (R.lvrTarget v)
    let s := stepOf x.e (fld t 15 0 * 10)
    d.setLouvre v { x with step := s, prio := max (fld t 18 16) s }) d

/-! ## The boundary -/

/-- Best-effort slots are counted per transom (R136). -/
def Die.freshSlots (d : Die) : Die :=
  (List.range 16).foldl (fun (d : Die) c => if (d.chan c).beUsed = 0 then d else d.setChan c { (d.chan c) with beUsed := 0 }) d

/-- Port caps at the level in force (R469): they change with the level. -/
def Die.levelCaps (d : Die) : Die :=
  let caps := (List.range 6).foldl (fun (t : Tbl Nat) p => Tbl.set 0 t p (d.portCapAt d.pwr.level p)) d.trs.capPort
  { d with trs := { d.trs with capPort := caps } }

/-- A contract is ACTIVE or awaits its transom: the boundary restarts SL1's clock (R477). -/
def Die.contractClock (d : Die) : Die :=
  if d.contracts.any fun (c : Contract) => decide (c.st = .active ∨ c.st = .awaiting) then d.active else d

/-- The actions of a boundary in the order of R71; then the commits whose turn has come begin. -/
def Die.boundary (d : Die) : Die :=
  let d0 := d.contractClock.tally 0x2 1 [scDev]
  let d1 := d0.measureBoundary.commitBoundary.deadboltBoundary
  let d2 := d1.domBoundary.endTenOps.beginTenOps.bayBoundary.readmitBoundary
  let d3 := d2.applyCaps.applyContracts.endOverdue.applyCredit.endOldIntrs
  let d4 := d3.powerBoundary.levelCaps.louvreBoundary.throttleBoundary.freshSlots
  let d5 := d4.debugBoundary.swapMaps.retireBoundary
  (d5.gapBoundary d5.transom).drainDeferred.startCommits.retsGo

/-- Fabric cycles per reference cycle at a level (R465). -/
def fabricPerRef (level : Nat) : Nat := [20, 16, 12, 8].getD level 8

/-- `n` reference cycles pass, none of them reaching a boundary but the last. The boundaries passed in SL3 take no action (R491). -/
def Die.ticks (d : Die) (n : Nat) : Die :=
  let d1 := if d.live then d.tally 0x1 (n * fabricPerRef d.pwr.level) [scDev] else d
  let d2 := Die.advance n d1
  if d2.time % 50 = 0 ∧ d2.live ∧ d2.boot.started then d2.boundary else d2

/-- The 50th reference edge since the last boundary (R30, R70). -/
def execTransomBoundary (s : State) : Host.Outcome State Fault Refusal :=
  onDie s fun d => d.ticks (50 - d.time % 50)

end Sys2Proof.Machine
end

