-- ==== Sys2Proof/Machine/Device.lean ====
section
/-! DEFINITION. Machine/Device.lean: the CXL memory device commands (R44, R273, R427), the SPDM responder (R65, R66) and IDE key
management (R62). Message contents the spec leaves to the standards are free values. -/

namespace Sys2Proof.Machine

/-! ## CXL mailbox commands -/

/-- CXL mailbox return codes, as the CXL specification numbers them. -/
def cxlSuccess : Nat := 0
def cxlBackground : Nat := 1
def cxlUnsupported : Nat := 3
def cxlInternal : Nat := 4
def cxlBusy : Nat := 6
def cxlBadAddress : Nat := 0xf

/-- A mailbox of LD `ld` answers: the link is up, the LD exists, start-up has ended. -/
def Die.hasMailbox (d : Die) (p ld : Nat) : Bool := d.hasFunction p ld && d.boot.done

/-- A CXL command with its answer. -/
def onMailbox (s : State) (p ld : Nat) (f : Die → Die) : Host.Outcome State Fault Refusal :=
  onLive s fun d => if d.hasMailbox p ld then f d.active else d

/-- An answer whose content the CXL specification gives: values the device states, then a free value of 64 bytes. -/
def Die.cxlAnswer (d : Die) (p ld op : Nat) (known : List PayVal) : Die :=
  let r := d.payload
  r.2.emit (.cxl p ld op cxlSuccess 0 (known ++ [(64, r.1)]))

def execIdentify (port ld : Nat) (s : State) : Host.Outcome State Fault Refusal :=
  onMailbox s port ld fun d => d.cxlAnswer port ld 0x4000 []

def execGetHealthInfo (port ld : Nat) (s : State) : Host.Outcome State Fault Refusal :=
  onMailbox s port ld fun d => d.cxlAnswer port ld 0x4200 []

/-- The host's timestamp in ns, advanced by the time base; 0 before it is set. -/
def Die.cxlTime (d : Die) (k : Nat) : Nat :=
  match d.cxl.stamp.find? k with
  | some (v, t) => (v + 10 * (d.time - t)) % 2 ^ 64
  | none => 0

def execGetTimestamp (port ld : Nat) (s : State) : Host.Outcome State Fault Refusal :=
  onMailbox s port ld fun d => d.emit (.cxl port ld 0x0300 cxlSuccess 0 [(8, d.cxlTime (port * 32 + ld))])

def execSetTimestamp (port ld value : Nat) (s : State) : Host.Outcome State Fault Refusal :=
  onMailbox s port ld fun d =>
    { d with cxl := { d.cxl with stamp := d.cxl.stamp.insert (port * 32 + ld) (value, d.time) } }.emit
      (.cxl port ld 0x0301 cxlSuccess 0 [])

/-! ## Poison -/

/-- The tenancy of an LD. -/
def Die.ldTen (d : Die) (p ld : Nat) : Option Nat :=
  d.tenList.find? fun t => d.tenFound t && decide (d.tenPort t = p) && (decide (d.tenLd t = ld) || decide (d.tenLd t = 31))

/-- The LIVE entry of an LD's address: tenancy, entry, DLA. -/
def Die.ldLine (d : Die) (p ld ta : Nat) : Option (Nat × Nat × Nat) :=
  match d.ldTen p ld with
  | none => none
  | some t => match d.entryOf t ta with
    | none => none
    | some e => if (d.bt e).st = .live then some (t, e, (d.bt e).dlaBay * 2 ^ 30 + ta % 2 ^ 30 / 64 * 64) else none

/-- The lines injected in a range, and a free value for the rest of the list. -/
def execGetPoisonList (port ld ta lines : Nat) (s : State) : Host.Outcome State Fault Refusal :=
  onMailbox s port ld fun d =>
    let mine := match d.ldTen port ld with
      | some t => d.cxl.poison.filter fun (x : Nat × Nat) => decide (x.1 = t) && decide (ta ≤ x.2) && decide (x.2 < ta + 64 * lines)
      | none => []
    d.cxlAnswer port ld 0x4300 (payList 8 (mine.map Prod.snd))

/-- Poison one line in memory: its granule, or its pane stored raw with every granule poisoned (R235, R295). `none`: the line has no
granule to poison. -/
def Die.poisonLine (d : Die) (e dla : Nat) : Option Die :=
  let l := d.locate dla; let k := (d.remap (bayOf dla) (d.bt e).defKey).1
  if l.lost then none
  else match l.dgas with
    | [] => none
    | [g] => if l.len = 8 then some ((d.poisonGranule g l.want k (bayOf dla) (Charge.own (d.tenLouvre (d.bt e).ten))).logPoison dla)
             else some ((d.pageOp (pageOf dla) (.poison (dla / 512 % 8) k)).logPoison dla)
    | _ => some ((d.pageOp (pageOf dla) (.poison (dla / 512 % 8) k)).logPoison dla)

/-- Inject Poison needs the normal invasive enable (R427). -/
def execInjectPoison (port ld ta : Nat) (s : State) : Host.Outcome State Fault Refusal :=
  onMailbox s port ld fun d =>
    let end_ (d : Die) (rc vendor : Nat) : Die := d.emit (.cxl port ld 0x4301 rc vendor [])
    if !d.dbg.ni then end_ d cxlInternal St.injectDisabled
    else if d.flt.doorstop then end_ d cxlInternal St.doorstopActive
    else match d.ldLine port ld ta with
      | none => end_ d cxlBadAddress 0
      | some (t, e, dla) =>
        match d.poisonLine e dla with
        | none => end_ d cxlBadAddress 0
        | some d1 =>
          let x := (t, ta / 64 * 64)
          end_ { d1 with cxl := { d1.cxl with poison := if d1.cxl.poison.contains x then d1.cxl.poison else x :: d1.cxl.poison } } cxlSuccess 0

/-- Clear Poison stores the line given. -/
def execClearPoison (port ld ta : Nat) (data : Line) (s : State) : Host.Outcome State Fault Refusal :=
  onMailbox s port ld fun d =>
    let end_ (d : Die) (rc vendor : Nat) : Die := d.emit (.cxl port ld 0x4302 rc vendor [])
    if d.flt.doorstop then end_ d cxlInternal St.doorstopActive
    else match d.ldLine port ld ta with
      | none => end_ d cxlBadAddress 0
      | some (t, e, dla) =>
        let x := (t, ta / 64 * 64)
        let d1 := (d.logPage t (ta / 4096)).homeStore dla data (d.remap (bayOf dla) (d.bt e).defKey).1 port
        end_ { d1 with cxl := { d1.cxl with poison := d1.cxl.poison.filter fun (y : Nat × Nat) => decide (y ≠ x) } } cxlSuccess 0

/-! ## Sanitize and Secure Erase (R273) -/

/-- The spare pool, lowest index first. -/
def Die.sparePool (d : Die) : List Nat :=
  let allowed := d.keys.allowed.flatMap fun (x : Nat × List Nat) => x.2
  let listed := d.tens.bays.flatMap fun (x : Nat × BayRec) => x.2.keyList
  let defs := d.usedEntries.map fun e => (d.bt e).defKey
  let jobs := ((List.range 64).filter fun q => (d.job q).st ≠ 0).map fun q => fld (d.act (R.cjeQkey q)) 11 0
  let used := allowed ++ listed ++ defs ++ jobs ++ d.retiring
  (List.range 4096).filter fun k => d.live? k && !used.contains k

/-- The entries of an LD's tenancy, one for each bay. -/
def Die.ldBays (d : Die) (t : Nat) : List Nat :=
  let es := (d.segEntries t).filter fun e => decide ((d.bt e).st ≠ .empty)
  es.filter fun e => (es.find? fun x => decide ((d.bt x).dlaBay = (d.bt e).dlaBay)) = some e

/-- Retire every index of a tenancy in erase mode, giving each bay a new default from the spare pool. -/
def Die.sanitizeTen (d : Die) (p ld op t : Nat) : Die :=
  let end_ (d : Die) (rc vendor : Nat) : Die := d.emit (.cxl p ld op rc vendor [])
  let bays := d.ldBays t; let pool := d.sparePool
  let subjects := (((d.keys.allowed.find? t).getD [] ++ bays.map fun e => (d.bt e).defKey).eraseDups).filter d.live?
  let listFor (a : Nat) : List (Nat × Nat) := (bays.zip pool).filter fun (x : Nat × Nat) => decide ((d.bt x.1).defKey = a)
  if pool.length < bays.length then end_ d cxlInternal St.keyNotLive
  else match subjects.find? d.retiring.contains with
    | some _ => end_ d cxlInternal St.keyBusy
    | none =>
      if subjects.any fun a => d.listMixed a true 0 (listFor a) then end_ d cxlInternal St.keyListMixed
      else if subjects = [] then end_ d cxlSuccess 0
      else
        let d1 := subjects.foldl (fun (d : Die) a => d.addRetire a true false 0 (listFor a) (some (p, ld, op))) d
        end_ { d1 with cxl := { d1.cxl with busy := d1.cxl.busy ++ [p * 32 + ld] } } cxlBackground 0

/-- The command, as its mailbox's one background command (R395). -/
def Die.sanitizeLd (d : Die) (p ld op : Nat) : Die :=
  let end_ (d : Die) (rc vendor : Nat) : Die := d.emit (.cxl p ld op rc vendor [])
  if d.flt.doorstop then end_ d cxlInternal St.doorstopActive
  else if d.mailboxBusy (if d.mldPort p then .ldMailbox p ld else .mailbox p) then end_ d cxlBusy 0
  else match d.ldTen p ld with
    | none => end_ d cxlSuccess 0
    | some t => d.sanitizeTen p ld op t

def execSanitize (port ld : Nat) (s : State) : Host.Outcome State Fault Refusal :=
  onMailbox s port ld fun d => d.sanitizeLd port ld 0x4400

def execSecureErase (port ld : Nat) (s : State) : Host.Outcome State Fault Refusal :=
  onMailbox s port ld fun d => d.sanitizeLd port ld 0x4401

/-! ## Multi-logical and multi-headed device commands -/

/-- The MLD commands come by the FM-owned LD of an MLD port; elsewhere they are Unsupported. -/
def Die.mldAnswer (d : Die) (p op : Nat) (known : List PayVal) : Die :=
  if d.mldPort p then d.cxlAnswer p fmLd op known else d.emit (.cxl p 31 op cxlUnsupported 0 [])

def execGetLdInfo (port : Nat) (s : State) : Host.Outcome State Fault Refusal :=
  onMailbox s port 0 fun d => d.mldAnswer port 0x5400 [(2, (d.port port).ldCount)]

def execGetLdAllocations (port : Nat) (s : State) : Host.Outcome State Fault Refusal :=
  onMailbox s port 0 fun d => d.mldAnswer port 0x5401 [(1, (d.port port).ldCount)]

/-- Allocation goes through tenancy commands (R44). -/
def execSetLdAllocations (port : Nat) (s : State) : Host.Outcome State Fault Refusal :=
  onMailbox s port 0 fun d => d.emit (.cxl port 31 0x5402 cxlUnsupported 0 [])

/-- Six heads (R44). -/
def execGetMhdInfo (port : Nat) (s : State) : Host.Outcome State Fault Refusal :=
  onMailbox s port 0 fun d => d.cxlAnswer port 31 0x5500 [(1, 6)]

/-! ## SPDM (R65) -/

/-- Response codes and error codes, as SPDM numbers them. -/
def spdmCertificate : Nat := 0x02
def spdmChallengeAuth : Nat := 0x03
def spdmMeasurements : Nat := 0x60
def spdmKeyExchangeRsp : Nat := 0x64
def spdmFinishRsp : Nat := 0x65
def spdmHeartbeatAck : Nat := 0x68
def spdmKeyUpdateAck : Nat := 0x69
def spdmError : Nat := 0x7f
def errInvalidRequest : Nat := 0x01
def errInvalidSession : Nat := 0x02
def errDecrypt : Nat := 0x06
def errUnsupported : Nat := 0x07
def errSessionLimit : Nat := 0x0a

/-- An arrival for a responder restarts the clocks (R477); on the sideband it is a wake source (R482). -/
def Die.spdmIn (d : Die) (ch : SpdmCh) : Die :=
  match ch with
  | .sideband => d.active.wake 6
  | .doe _ => d.active

/-- A responder answers on the sideband once start-up has ended, on a port's DOE mailbox when that function answers too. -/
def onSpdm (s : State) (ch : SpdmCh) (f : Die → Die) : Host.Outcome State Fault Refusal :=
  onLive s fun d => match ch with
    | .sideband => if d.boot.done then f (d.spdmIn ch) else d
    | .doe p => if d.hasMailbox p 0 then f (d.spdmIn ch) else d

/-- A response with content the standard gives. -/
def Die.spdmAnswer (d : Die) (ch : SpdmCh) (kind : Nat) : Die :=
  let r := d.payload
  r.2.emit (.spdm ch kind r.1)

def Die.spdmErr (d : Die) (ch : SpdmCh) (code : Nat) : Die := d.emit (.spdm ch spdmError code)

def Die.sessionsOf (d : Die) : SpdmCh → List Session
  | .doe p => (d.port p).sessions
  | .sideband => d.cxl.sessions

def Die.setSessions (d : Die) (ch : SpdmCh) (ss : List Session) : Die :=
  match ch with
  | .doe p => d.setPort p { (d.port p) with sessions := ss }
  | .sideband => { d with cxl := { d.cxl with sessions := ss } }

def execGetCertificate (ch : SpdmCh) (slot : Nat) (s : State) : Host.Outcome State Fault Refusal :=
  onSpdm s ch fun d => if 8 ≤ slot then d.spdmErr ch errInvalidRequest else d.spdmAnswer ch spdmCertificate

def execChallenge (ch : SpdmCh) (slot _nonce : Nat) (s : State) : Host.Outcome State Fault Refusal :=
  onSpdm s ch fun d => if 8 ≤ slot then d.spdmErr ch errInvalidRequest else d.spdmAnswer ch spdmChallengeAuth

def execGetMeasurements (ch : SpdmCh) (_nonce : Nat) (s : State) : Host.Outcome State Fault Refusal :=
  onSpdm s ch fun d => d.spdmAnswer ch spdmMeasurements

/-- At most two sessions on a channel. -/
def execKeyExchange (ch : SpdmCh) (mutualAuth : Bool) (s : State) : Host.Outcome State Fault Refusal :=
  onSpdm s ch fun d =>
    let ss := d.sessionsOf ch
    if 2 ≤ ss.length then d.spdmErr ch errSessionLimit
    else
      let n : Session := { id := d.cxl.nextSession, mutualAuth := mutualAuth, established := false, keys := 0 }
      ({ d with cxl := { d.cxl with nextSession := d.cxl.nextSession + 1 } }.setSessions ch (ss ++ [n])).spdmAnswer ch spdmKeyExchangeRsp

/-- FINISH establishes the session, or ends it where it does not verify. -/
def execFinish (ch : SpdmCh) (session : Nat) (verifies : Bool) (s : State) : Host.Outcome State Fault Refusal :=
  onSpdm s ch fun d =>
    let ss := d.sessionsOf ch
    match ss.find? fun (x : Session) => decide (x.id = session) && !x.established with
    | none => d.spdmErr ch errInvalidSession
    | some _ =>
      if verifies then
        (d.setSessions ch (ss.map fun (x : Session) => if x.id = session then { x with established := true } else x)).spdmAnswer ch
          spdmFinishRsp
      else (d.setSessions ch (ss.filter fun (x : Session) => decide (x.id ≠ session))).spdmErr ch errDecrypt

/-- An established session of a channel. -/
def Die.sessionUp (d : Die) (ch : SpdmCh) (session : Nat) : Bool :=
  (d.sessionsOf ch).any fun (x : Session) => decide (x.id = session) && x.established

def execKeyUpdate (ch : SpdmCh) (session : Nat) (s : State) : Host.Outcome State Fault Refusal :=
  onSpdm s ch fun d =>
    if !d.sessionUp ch session then d.spdmErr ch errInvalidSession
    else
      let ss := (d.sessionsOf ch).map fun (x : Session) => if x.id = session then { x with keys := x.keys + 1 } else x
      (d.setSessions ch ss).spdmAnswer ch spdmKeyUpdateAck

def execHeartbeat (ch : SpdmCh) (session : Nat) (s : State) : Host.Outcome State Fault Refusal :=
  onSpdm s ch fun d => if d.sessionUp ch session then d.spdmAnswer ch spdmHeartbeatAck else d.spdmErr ch errInvalidSession

/-- PSK_EXCHANGE is not supported. -/
def execPskExchange (ch : SpdmCh) (s : State) : Host.Outcome State Fault Refusal :=
  onSpdm s ch fun d => d.spdmErr ch errUnsupported

/-! ## IDE_KM (R62) -/

/-- Object IDs of the acknowledgements, as IDE_KM numbers them. -/
def kpAck : Nat := 3
def goStopAck : Nat := 6

/-- A key set programmed, made active, or a stream stopped. A stream starts only with keys in its key set. -/
def Port.ide (x : Port) : IdeMsg → Port
  | .key m k v => { x with ideKeys := (x.ideKeys.filter fun (e : Bool × Nat × Nat) => decide (e.1 ≠ m ∨ e.2.1 ≠ k % 2)) ++ [(m, k % 2, v)] }
  | .go m k c =>
    if !x.ideKeys.any fun (e : Bool × Nat × Nat) => decide (e.1 = m) && decide (e.2.1 = k % 2) then x
    else if m then { x with ideMem := if c then 2 else 1 } else { x with ideIo := true }
  | .stop m => if m then { x with ideMem := 0 } else { x with ideIo := false }

def ideAck : IdeMsg → Nat
  | .key _ _ _ => kpAck
  | _ => goStopAck

def execIdeKm (port session : Nat) (msg : IdeMsg) (s : State) : Host.Outcome State Fault Refusal :=
  onSpdm s (.doe port) fun d =>
    if !d.sessionUp (.doe port) session then d.spdmErr (.doe port) errInvalidSession
    else (d.setPort port ((d.port port).ide msg)).spdmAnswer (.doe port) (ideAck msg)

end Sys2Proof.Machine
end

