-- ==== Sys2Proof/Machine/Dispatch.lean ====
section
/-! DEFINITION. Machine/Dispatch.lean: one arm per command, each one call of its meaning. -/

namespace Sys2Proof.Machine

def exec (i : Instr) (s : State) : Host.Outcome State Fault Refusal :=
  match i with
  | .transomBoundary => Sys2Proof.Machine.execTransomBoundary s
  | .getIdentity h => Sys2Proof.Machine.execGetIdentity h s
  | .getCapacity h => Sys2Proof.Machine.execGetCapacity h s
  | .getNotices h max => Sys2Proof.Machine.execGetNotices h max s
  | .setNoticeRoute h mask eid ring => Sys2Proof.Machine.execSetNoticeRoute h mask eid ring s
  | .ringSetup h ring role ten bay offset log2 vector => Sys2Proof.Machine.execRingSetup h ring role ten bay offset log2 vector s
  | .tenCreate h ten port ld segLen => Sys2Proof.Machine.execTenCreate h ten port ld segLen s
  | .tenSet h ten cls louvre => Sys2Proof.Machine.execTenSet h ten cls louvre s
  | .tenReset h ten scrub => Sys2Proof.Machine.execTenReset h ten scrub s
  | .tenRemove h ten => Sys2Proof.Machine.execTenRemove h ten s
  | .tenResize h ten segLen => Sys2Proof.Machine.execTenResize h ten segLen s
  | .tenLog h ten en entry => Sys2Proof.Machine.execTenLog h ten en entry s
  | .tenHarvest h ten => Sys2Proof.Machine.execTenHarvest h ten s
  | .tenQuery h ten => Sys2Proof.Machine.execTenQuery h ten s
  | .portSet h port cfg => Sys2Proof.Machine.execPortSet h port cfg s
  | .lvrSet h louvre shape target => Sys2Proof.Machine.execLvrSet h louvre shape target s
  | .lvrGlobal h cfg therm pmic map0 map1 => Sys2Proof.Machine.execLvrGlobal h cfg therm pmic map0 map1 s
  | .bayAdd h p => Sys2Proof.Machine.execBayAdd h p s
  | .bayRemove h ten bay force waitMs => Sys2Proof.Machine.execBayRemove h ten bay force waitMs s
  | .baySet h ten bay cache policy quota => Sys2Proof.Machine.execBaySet h ten bay cache policy quota s
  | .bayQuery h ten bay => Sys2Proof.Machine.execBayQuery h ten bay s
  | .storeAdd h set => Sys2Proof.Machine.execStoreAdd h set s
  | .storeRelease h store => Sys2Proof.Machine.execStoreRelease h store s
  | .tierSet h policy value => Sys2Proof.Machine.execTierSet h policy value s
  | .memCfg h p => Sys2Proof.Machine.execMemCfg h p s
  | .conCreate h ten t => Sys2Proof.Machine.execConCreate h ten t s
  | .conChange h con t => Sys2Proof.Machine.execConChange h con t s
  | .conReadmit h con => Sys2Proof.Machine.execConReadmit h con s
  | .conDelete h con => Sys2Proof.Machine.execConDelete h con s
  | .conQuery h con => Sys2Proof.Machine.execConQuery h con s
  | .capQuery h => Sys2Proof.Machine.execCapQuery h s
  | .conDefaults h cfg => Sys2Proof.Machine.execConDefaults h cfg s
  | .keyAllow h ten list => Sys2Proof.Machine.execKeyAllow h ten list s
  | .keyRetire h a mode phys target list => Sys2Proof.Machine.execKeyRetire h a mode phys target list s
  | .keyQuery h k => Sys2Proof.Machine.execKeyQuery h k s
  | .domCreate h dom snpTo members => Sys2Proof.Machine.execDomCreate h dom snpTo members s
  | .domJoin h dom ten list => Sys2Proof.Machine.execDomJoin h dom ten list s
  | .domLeave h dom ten => Sys2Proof.Machine.execDomLeave h dom ten s
  | .domDestroy h dom ten => Sys2Proof.Machine.execDomDestroy h dom ten s
  | .domRebuild h dom members => Sys2Proof.Machine.execDomRebuild h dom members s
  | .domAddBay h dom owner bay list => Sys2Proof.Machine.execDomAddBay h dom owner bay list s
  | .domQuery h dom => Sys2Proof.Machine.execDomQuery h dom s
  | .qSetup h q cfg key sq cq => Sys2Proof.Machine.execQSetup h q cfg key sq cq s
  | .qRestart h q => Sys2Proof.Machine.execQRestart h q s
  | .qDisable h q => Sys2Proof.Machine.execQDisable h q s
  | .qQuery h q => Sys2Proof.Machine.execQQuery h q s
  | .pwrLevel h level => Sys2Proof.Machine.execPwrLevel h level s
  | .pwrSleep h state mask => Sys2Proof.Machine.execPwrSleep h state mask s
  | .pwrQuery h => Sys2Proof.Machine.execPwrQuery h s
  | .ohmQuery h => Sys2Proof.Machine.execOhmQuery h s
  | .ohmClear h => Sys2Proof.Machine.execOhmClear h s
  | .fltGet h unit max => Sys2Proof.Machine.execFltGet h unit max s
  | .fltClear h unit => Sys2Proof.Machine.execFltClear h unit s
  | .fltInject h unit kind => Sys2Proof.Machine.execFltInject h unit kind s
  | .eventEnable h base value => Sys2Proof.Machine.execEventEnable h base value s
  | .chReadmit h ch => Sys2Proof.Machine.execChReadmit h ch s
  | .telCfg h entry period => Sys2Proof.Machine.execTelCfg h entry period s
  | .pmuSelect h ctr event chain => Sys2Proof.Machine.execPmuSelect h ctr event chain s
  | .telWindow h ten allow => Sys2Proof.Machine.execTelWindow h ten allow s
  | .pmuRead h first count => Sys2Proof.Machine.execPmuRead h first count s
  | .dimmQuery h ch => Sys2Proof.Machine.execDimmQuery h ch s
  | .fwInfo h => Sys2Proof.Machine.execFwInfo h s
  | .fwWrite h image offset data => Sys2Proof.Machine.execFwWrite h image offset data s
  | .fwVerify h image => Sys2Proof.Machine.execFwVerify h image s
  | .fwSelect h image => Sys2Proof.Machine.execFwSelect h image s
  | .keepRead h first count => Sys2Proof.Machine.execKeepRead h first count s
  | .keepWrite h k value => Sys2Proof.Machine.execKeepWrite h k value s
  | .deviceRestart h => Sys2Proof.Machine.execDeviceRestart h s
  | .dbgNormal h invasive peephole => Sys2Proof.Machine.execDbgNormal h invasive peephole s
  | .dbgBind h ten => Sys2Proof.Machine.execDbgBind h ten s
  | .dbgQuery h => Sys2Proof.Machine.execDbgQuery h s
  | .dblClaim h secret stewardPort => Sys2Proof.Machine.execDblClaim h secret stewardPort s
  | .dblPropose h kind body => Sys2Proof.Machine.execDblPropose h kind body s
  | .dblGet h id => Sys2Proof.Machine.execDblGet h id s
  | .dblSign h id hmac => Sys2Proof.Machine.execDblSign h id hmac s
  | .dblWithdraw h id => Sys2Proof.Machine.execDblWithdraw h id s
  | .dblStatus h => Sys2Proof.Machine.execDblStatus h s
  | .unknownOpcode h opcode => Sys2Proof.Machine.execUnknownOpcode h opcode s
  | .identify port ld => Sys2Proof.Machine.execIdentify port ld s
  | .getHealthInfo port ld => Sys2Proof.Machine.execGetHealthInfo port ld s
  | .getTimestamp port ld => Sys2Proof.Machine.execGetTimestamp port ld s
  | .setTimestamp port ld value => Sys2Proof.Machine.execSetTimestamp port ld value s
  | .getPoisonList port ld ta lines => Sys2Proof.Machine.execGetPoisonList port ld ta lines s
  | .injectPoison port ld ta => Sys2Proof.Machine.execInjectPoison port ld ta s
  | .clearPoison port ld ta data => Sys2Proof.Machine.execClearPoison port ld ta data s
  | .sanitize port ld => Sys2Proof.Machine.execSanitize port ld s
  | .secureErase port ld => Sys2Proof.Machine.execSecureErase port ld s
  | .getLdInfo port => Sys2Proof.Machine.execGetLdInfo port s
  | .getLdAllocations port => Sys2Proof.Machine.execGetLdAllocations port s
  | .setLdAllocations port => Sys2Proof.Machine.execSetLdAllocations port s
  | .getMhdInfo port => Sys2Proof.Machine.execGetMhdInfo port s
  | .getCertificate ch slot => Sys2Proof.Machine.execGetCertificate ch slot s
  | .challenge ch slot nonce => Sys2Proof.Machine.execChallenge ch slot nonce s
  | .getMeasurements ch nonce => Sys2Proof.Machine.execGetMeasurements ch nonce s
  | .keyExchange ch mutualAuth => Sys2Proof.Machine.execKeyExchange ch mutualAuth s
  | .finish ch session verifies => Sys2Proof.Machine.execFinish ch session verifies s
  | .keyUpdate ch session => Sys2Proof.Machine.execKeyUpdate ch session s
  | .heartbeat ch session => Sys2Proof.Machine.execHeartbeat ch session s
  | .pskExchange ch => Sys2Proof.Machine.execPskExchange ch s
  | .ideKm port session msg => Sys2Proof.Machine.execIdeKm port session msg s
  | .commitGo src g => Sys2Proof.Machine.execCommitGo src g s
  | .fcxRequest port ld request => Sys2Proof.Machine.execFcxRequest port ld request s
  | .memEnable port ld value => Sys2Proof.Machine.execMemEnable port ld value s
  | .jobDoorbell src q tail => Sys2Proof.Machine.execJobDoorbell src q tail s
  | .ringTailWrite src k tail => Sys2Proof.Machine.execRingTailWrite src k tail s
  | .secureWindowAccess src offset write value => Sys2Proof.Machine.execSecureWindowAccess src offset write value s
  | .latchingRead src p => Sys2Proof.Machine.execLatchingRead src p s
  | .registerWrite src offset size value => Sys2Proof.Machine.execRegisterWrite src offset size value s
  | .memRd m => Sys2Proof.Machine.execMemRd m s
  | .memWr m data => Sys2Proof.Machine.execMemWr m data s
  | .memWrPartial m data mask => Sys2Proof.Machine.execMemWrPartial m data mask s
  | .rdShared m => Sys2Proof.Machine.execRdShared m s
  | .rdOwn m => Sys2Proof.Machine.execRdOwn m s
  | .rdOwnNoData m => Sys2Proof.Machine.execRdOwnNoData m s
  | .rdCur m => Sys2Proof.Machine.execRdCur m s
  | .wrBack m data => Sys2Proof.Machine.execWrBack m data s
  | .cleanEvict m => Sys2Proof.Machine.execCleanEvict m s
  | .compAck m => Sys2Proof.Machine.execCompAck m s
  | .waitlistStart dla => Sys2Proof.Machine.execWaitlistStart dla s
  | .snpData m data => Sys2Proof.Machine.execSnpData m data s
  | .biRsp m rsp dirty => Sys2Proof.Machine.execBiRsp m rsp dirty s
  | .memInv m => Sys2Proof.Machine.execMemInv m s
  | .biConflict m => Sys2Proof.Machine.execBiConflict m s
  | .biConflictAck m => Sys2Proof.Machine.execBiConflictAck m s
  | .snoopLate dla port => Sys2Proof.Machine.execSnoopLate dla port s
  | .memberTimeout dla port => Sys2Proof.Machine.execMemberTimeout dla port s
  | .directorySweepDone sweep => Sys2Proof.Machine.execDirectorySweepDone sweep s
  | .beQueueEntryTake txn => Sys2Proof.Machine.execBeQueueEntryTake txn s
  | .beCrossbarEntry txn => Sys2Proof.Machine.execBeCrossbarEntry txn s
  | .channelReplan ch overhead refresh blocked => Sys2Proof.Machine.execChannelReplan ch overhead refresh blocked s
  | .granuleReadReturn txn dga a => Sys2Proof.Machine.execGranuleReadReturn txn dga a s
  | .nodeFetchReturn level index a => Sys2Proof.Machine.execNodeFetchReturn level index a s
  | .dirtyWriteback => Sys2Proof.Machine.execDirtyWriteback s
  | .laneStore ch => Sys2Proof.Machine.execLaneStore ch s
  | .reencryptGranule page slot a => Sys2Proof.Machine.execReencryptGranule page slot a s
  | .leafFillDone block => Sys2Proof.Machine.execLeafFillDone block s
  | .unpinWritebackDone block => Sys2Proof.Machine.execUnpinWritebackDone block s
  | .revalSweepDone => Sys2Proof.Machine.execRevalSweepDone s
  | .paneOperation page dist => Sys2Proof.Machine.execPaneOperation page dist s
  | .holdReceived slice page => Sys2Proof.Machine.execHoldReceived slice page s
  | .holdAnswer slice page => Sys2Proof.Machine.execHoldAnswer slice page s
  | .releaseReceived slice page => Sys2Proof.Machine.execReleaseReceived slice page s
  | .scanStart bay => Sys2Proof.Machine.execScanStart bay s
  | .scanStep bay lines => Sys2Proof.Machine.execScanStep bay lines s
  | .moveCopy page dist => Sys2Proof.Machine.execMoveCopy page dist s
  | .moveCommit page => Sys2Proof.Machine.execMoveCommit page s
  | .rekeyOperation a dga arr => Sys2Proof.Machine.execRekeyOperation a dga arr s
  | .paneRekeyOperation a page pane dist => Sys2Proof.Machine.execPaneRekeyOperation a page pane dist s
  | .eraseLeafReset a bay => Sys2Proof.Machine.execEraseLeafReset a bay s
  | .physFill a bay => Sys2Proof.Machine.execPhysFill a bay s
  | .scrubPage bay page => Sys2Proof.Machine.execScrubPage bay page s
  | .retireDrainEnd a => Sys2Proof.Machine.execRetireDrainEnd a s
  | .flushPartDone a part => Sys2Proof.Machine.execFlushPartDone a part s
  | .cacheFlushWalkDone => Sys2Proof.Machine.execCacheFlushWalkDone s
  | .bayDrainEnd bay => Sys2Proof.Machine.execBayDrainEnd bay s
  | .hostExtentRelease port ta => Sys2Proof.Machine.execHostExtentRelease port ta s
  | .releaseWaitTimeout entry => Sys2Proof.Machine.execReleaseWaitTimeout entry s
  | .logBufferOr n => Sys2Proof.Machine.execLogBufferOr n s
  | .jobFetch q => Sys2Proof.Machine.execJobFetch q s
  | .jobComplete q => Sys2Proof.Machine.execJobComplete q s
  | .debugAccess ta write data => Sys2Proof.Machine.execDebugAccess ta write data s
  | .jtagAccess offset secureHalted write value => Sys2Proof.Machine.execJtagAccess offset secureHalted write value s
  | .debugHalt core => Sys2Proof.Machine.execDebugHalt core s
  | .gateEntry core offset returnAddr => Sys2Proof.Machine.execGateEntry core offset returnAddr s
  | .gateExit core offset => Sys2Proof.Machine.execGateExit core offset s
  | .claimTimeout => Sys2Proof.Machine.execClaimTimeout s
  | .keepWriteDone => Sys2Proof.Machine.execKeepWriteDone s
  | .perstAssert port ns => Sys2Proof.Machine.execPerstAssert port ns s
  | .perstDeassert port => Sys2Proof.Machine.execPerstDeassert port s
  | .linkDown port => Sys2Proof.Machine.execLinkDown port s
  | .linkTrainingDone port link => Sys2Proof.Machine.execLinkTrainingDone port link s
  | .linkRetrain port link => Sys2Proof.Machine.execLinkRetrain port link s
  | .ideIntegrityFail port => Sys2Proof.Machine.execIdeIntegrityFail port s
  | .dimmReading ch slot r => Sys2Proof.Machine.execDimmReading ch slot r s
  | .spdInterrupt ch slot => Sys2Proof.Machine.execSpdInterrupt ch slot s
  | .dieSensorReading sensor temp => Sys2Proof.Machine.execDieSensorReading sensor temp s
  | .vsettleDone => Sys2Proof.Machine.execVsettleDone s
  | .sl1ClockStop => Sys2Proof.Machine.execSl1ClockStop s
  | .sl2Entry => Sys2Proof.Machine.execSl2Entry s
  | .sl3Entry step => Sys2Proof.Machine.execSl3Entry step s
  | .wakeSource source => Sys2Proof.Machine.execWakeSource source s
  | .wakeTimer => Sys2Proof.Machine.execWakeTimer s
  | .sl2ExitDone => Sys2Proof.Machine.execSl2ExitDone s
  | .sl3ExitDone badImages => Sys2Proof.Machine.execSl3ExitDone badImages s
  | .dumpSnapshot => Sys2Proof.Machine.execDumpSnapshot s
  | .dumpRecordDone slot => Sys2Proof.Machine.execDumpRecordDone slot s
  | .counterWrap k n => Sys2Proof.Machine.execCounterWrap k n s
  | .lineTestDone txn dga a => Sys2Proof.Machine.execLineTestDone txn dga a s
  | .rowTestDone ch slot row passed repair => Sys2Proof.Machine.execRowTestDone ch slot row passed repair s
  | .rankSpareDone c => Sys2Proof.Machine.execRankSpareDone c s
  | .engineTestDone unit passed => Sys2Proof.Machine.execEngineTestDone unit passed s
  | .doorstopDrainEnd => Sys2Proof.Machine.execDoorstopDrainEnd s
  | .testSkip seq => Sys2Proof.Machine.execTestSkip seq s
  | .watchdogHang unit => Sys2Proof.Machine.execWatchdogHang unit s
  | .ifTimeout unit => Sys2Proof.Machine.execIfTimeout unit s
  | .substitutionDone unit lost => Sys2Proof.Machine.execSubstitutionDone unit lost s
  | .staleOutput unit epoch => Sys2Proof.Machine.execStaleOutput unit epoch s
  | .quarantineTestStart unit => Sys2Proof.Machine.execQuarantineTestStart unit s
  | .shadowEnd unit => Sys2Proof.Machine.execShadowEnd unit s
  | .interruptionEnd unit => Sys2Proof.Machine.execInterruptionEnd unit s
  | .channelReadmitDone ch passed => Sys2Proof.Machine.execChannelReadmitDone ch passed s
  | .fltSelfParity => Sys2Proof.Machine.execFltSelfParity s
  | .injectWindowClose => Sys2Proof.Machine.execInjectWindowClose s
  | .ohmStatusFrame => Sys2Proof.Machine.execOhmStatusFrame s
  | .ohmLinkLost => Sys2Proof.Machine.execOhmLinkLost s
  | .entryLoss => Sys2Proof.Machine.execEntryLoss s
  | .startupStepDone info => Sys2Proof.Machine.execStartupStepDone info s
  | .stepWatchdog => Sys2Proof.Machine.execStepWatchdog s
  | .vbusRise mv straps damaged => Sys2Proof.Machine.execVbusRise mv straps damaged s
  | .vbusFall mv => Sys2Proof.Machine.execVbusFall mv s
  | .vbusOvervoltage mv => Sys2Proof.Machine.execVbusOvervoltage mv s
  | .vbusOvResume mv => Sys2Proof.Machine.execVbusOvResume mv s
  | .presenceDebounced cdhMv => Sys2Proof.Machine.execPresenceDebounced cdhMv s
  | .prsntRise => Sys2Proof.Machine.execPrsntRise s
  | .orderlyShutdown => Sys2Proof.Machine.execOrderlyShutdown s
  | .entryGood voutMv => Sys2Proof.Machine.execEntryGood voutMv s
  | .seqEnable => Sys2Proof.Machine.execSeqEnable s
  | .mainDieRelease => Sys2Proof.Machine.execMainDieRelease s
  | .fastTrip => Sys2Proof.Machine.execFastTrip s
  | .soaTrip => Sys2Proof.Machine.execSoaTrip s
  | .rampTimeout => Sys2Proof.Machine.execRampTimeout s
  | .pgTimeout => Sys2Proof.Machine.execPgTimeout s
  | .pgLost k => Sys2Proof.Machine.execPgLost k s
  | .cooldownEnd cdhMv => Sys2Proof.Machine.execCooldownEnd cdhMv s
  | .goodRunClear => Sys2Proof.Machine.execGoodRunClear s
  | .presenceCycle => Sys2Proof.Machine.execPresenceCycle s
  | .fetShortDetect voutMv => Sys2Proof.Machine.execFetShortDetect voutMv s
  | .fetShortRecheck voutMv => Sys2Proof.Machine.execFetShortRecheck voutMv s
  | .oringReverse feedB => Sys2Proof.Machine.execOringReverse feedB s
  | .oringTurnOn feedB => Sys2Proof.Machine.execOringTurnOn feedB s
  | .feedLost feedB => Sys2Proof.Machine.execFeedLost feedB s
  | .statusFrameSend => Sys2Proof.Machine.execStatusFrameSend s
  | .standbyOhmClear seq => Sys2Proof.Machine.execStandbyOhmClear seq s
  | .standbyOhmQuery seq => Sys2Proof.Machine.execStandbyOhmQuery seq s
  | .configRequest port ld => Sys2Proof.Machine.execConfigRequest port ld s
  | .directorySweepStep sweep => Sys2Proof.Machine.execDirectorySweepStep sweep s
  | .cacheFlushWalkStep => Sys2Proof.Machine.execCacheFlushWalkStep s
  | .directoryFetchReturn dla e => Sys2Proof.Machine.execDirectoryFetchReturn dla e s
  | .pageMapFetchReturn slice page e => Sys2Proof.Machine.execPageMapFetchReturn slice page e s
  | .unitErrorDetected e => Sys2Proof.Machine.execUnitErrorDetected e s

end Sys2Proof.Machine
end

