-- ==== Sys2Proof/Machine/Tick.lean ====
section
/-! DEFINITION. Machine/Tick.lean: the passing of one reference cycle. -/

namespace Sys2Proof.Machine

/-- One reference cycle passes on a released main die, every 50th beginning a transom; while the die is in reset its time base
stands. -/
def tick (s : State) : State :=
  let s1 := { s with ohm := { s.ohm with tripNow := none } }
  if s.ohm.released then { s1 with die := s.die.ticks 1 } else s1

end Sys2Proof.Machine
end

