-- ==== Sys2Proof/Machine/Formats.lean ====
section
/-! DEFINITION. Machine/Formats.lean: the bit layouts of what the machine holds as fields: the FCX extensions and companion slots (R51–R55,
R152, R154), the directory entry (R151), page-map entries and their sideband (R281, R283), and the sidebands of DDR granules,
tree lines and cached lines (R195, R211, R342). -/

namespace Sys2Proof.Machine

/-! ## The FCX request extension (R52) -/

/-- The message's extension as the host sends it: reserved bits 0. -/
def extWord (e : Ext) : Nat :=
  e.gen * 2 ^ 48 + e.ttag * 2 ^ 38 + e.kidx * 2 ^ 26 + b2n e.ksel * 2 ^ 25 + e.dcode * 2 ^ 22 + b2n e.cc * 2 ^ 21 + e.coh * 2 ^ 17

/-- The extension a companion slot's bytes 0–7 spell: the device ignores the reserved bits. -/
def extOf (w : Nat) : Ext :=
  { gen := w / 2 ^ 48 % 2 ^ 16, ttag := w / 2 ^ 38 % 2 ^ 10, kidx := w / 2 ^ 26 % 2 ^ 12, ksel := w.testBit 25,
    dcode := w / 2 ^ 22 % 2 ^ 3, cc := w.testBit 21, coh := w / 2 ^ 17 % 2 ^ 4 }

/-! ## Completions, grants, snoops and responses (R53, R54, R154) -/

def CplExt.word (e : CplExt) : Nat := e.gen * 2 ^ 48 + e.ttag * 2 ^ 38 + b2n e.late * 2 ^ 37 + e.attr * 2 ^ 35

/-- A credit grant: GV, TTAG, RD_CC, WR_CC, TRANSOM. -/
def grantWord (ten rd wr transom : Nat) : Nat :=
  2 ^ 63 + ten * 2 ^ 53 + rd * 2 ^ 41 + wr * 2 ^ 29 + transom % 2 ^ 16 * 2 ^ 13

/-- SNP of a snoop. -/
def Snp.code : Snp → Nat
  | .shared => 1 | .inv => 2 | .cur => 3

/-- The BISnp opcode that carries a snoop (R154). -/
inductive SnpOp where
  | biSnpData | biSnpInv | biSnpCur
  deriving DecidableEq, Repr

def Snp.opcode : Snp → SnpOp
  | .shared => .biSnpData | .inv => .biSnpInv | .cur => .biSnpCur

def snpWord (gen ttag : Nat) (k : Snp) (f : Bool) : Nat := gen * 2 ^ 48 + ttag * 2 ^ 38 + k.code * 2 ^ 35 + b2n f * 2 ^ 34

/-- RSP codes. -/
def rspCode : Rsp → Nat
  | .rspI => 0 | .rspS => 1 | .rspIData => 2 | .rspSData => 3 | .rspOData => 4 | .rspCurData => 5 | .rspIWbPending => 6 | .reserved => 7
def rspOf (n : Nat) : Rsp := [Rsp.rspI, .rspS, .rspIData, .rspSData, .rspOData, .rspCurData, .rspIWbPending].getD n .reserved

def rspWord (gen ttag : Nat) (r : Rsp) (dirty : Bool) : Nat := gen * 2 ^ 48 + ttag * 2 ^ 38 + rspCode r * 2 ^ 35 + b2n dirty * 2 ^ 34
/-- GEN, TTAG, RSP and D of a response extension: RSP governs, the BIRsp opcode is ignored. -/
def rspExtOf (w : Nat) : Nat × Nat × Rsp × Bool := (w / 2 ^ 48 % 2 ^ 16, w / 2 ^ 38 % 2 ^ 10, rspOf (w / 2 ^ 35 % 8), w.testBit 34)

/-- A companion slot: bytes 0–7 and bytes 8–15. -/
structure Slot16 where
  low : Nat
  high : Nat
  deriving DecidableEq, Repr

/-- The companion slot of an M2S Req or RwD header (R51), and of an M2S BIRsp header (R154). -/
def reqSlot (e : Ext) : Slot16 := { low := extWord e, high := 0 }
def rspSlot (gen ttag : Nat) (r : Rsp) (dirty : Bool) : Slot16 := { low := rspWord gen ttag r dirty, high := 0 }

/-- The companion slot of an S2M header the device sends in FCX mode, with the credit grant it carries (R51, R54, R55). -/
def Out.slot (o : Out) (grant : Option Out) : Option Slot16 :=
  let high := match grant with
    | some (.grant _ ten rd wr transom _ _) => grantWord ten rd wr transom
    | _ => 0
  match o with
  | .drs _ _ _ _ _ (some e) _ => some { low := e.word, high := high }
  | .ndr _ _ _ _ (some e) _ => some { low := e.word, high := high }
  | .biSnp _ _ k f gen ttag true _ => some { low := snpWord gen ttag k f, high := 0 }
  | _ => none

/-- Where a header and its companion stand: flit and slot of a 256B flit of `n` slots, from the next free slot; a pair that would be cut
moves to the next flit whole (R51). -/
def placePair (n flit slot : Nat) : (Nat × Nat) × (Nat × Nat) :=
  if slot + 1 < n then ((flit, slot), (flit, slot + 1)) else ((flit + 1, 0), (flit + 1, 1))

/-! ## The directory entry (R151) -/

def DSt.code : DSt → Nat
  | .i => 0 | .s => 1 | .x => 2 | .o => 3

/-- The 8 B word of an entry for line `dla / 64`, with its check code. -/
def DirEnt.word (e : DirEnt) (line : Nat) : Nat :=
  let low := e.dom % 2 ^ 6 * 2 ^ 50 + e.d.owner % 2 ^ 3 * 2 ^ 47 + e.d.sharers % 2 ^ 6 * 2 ^ 41 + e.d.st.code * 2 ^ 38 + line % 2 ^ 38
  Config.secDed low % 2 ^ 8 * 2 ^ 56 + low

/-! ## The page map (R281, R283) -/

def PgSt.code : PgSt → Nat
  | .unmapped => 0 | .plain => 1 | .packed => 2 | .lost => 3
def PgSt.ofCode (n : Nat) : PgSt := [PgSt.unmapped, .plain, .packed].getD n .lost

/-- The 16 B entry of a page (R281). -/
def PgEnt.word (e : PgEnt) : Nat :=
  let panes := (List.range 8).foldl (fun a j => a + (e.len j % 2 ^ 4 * 2 ^ 6 + e.start j % 2 ^ 6) * 2 ^ (10 * j)) 0
  e.st.code * 2 ^ 126 + b2n e.move * 2 ^ 125 + e.acc % 2 ^ 8 * 2 ^ 117 + (e.run - 1) % 2 ^ 3 * 2 ^ 114 + e.base % 2 ^ 34 * 2 ^ 80 + panes

/-- The entry a page-map line's 16 B spell: what breaks a rule of R282 is LOST. -/
def PgEnt.ofWord (w : Nat) : PgEnt :=
  let st := PgSt.ofCode (w / 2 ^ 126 % 4)
  let e : PgEnt := { st := st, move := w.testBit 125, acc := w / 2 ^ 117 % 2 ^ 8, run := if st = .plain ∨ st = .packed then w / 2 ^ 114 % 8 + 1 else w / 2 ^ 114 % 8,
                     base := w / 2 ^ 80 % 2 ^ 34, panes := (List.range 8).map fun j => (w / 2 ^ (10 * j + 6) % 2 ^ 4, w / 2 ^ (10 * j) % 2 ^ 6) }
  if e.ok then e else { PgEnt.unmapped with st := .lost }

/-- The 64-bit sideband of page-map line `g` (R283): the occupancy of group `g` of its store bay. -/
def Die.groupSideband (d : Die) (g : Nat) : Nat :=
  let l := d.openList (g / 65536) (g % 8)
  let next : Nat := match (l.dropWhile fun i => decide (i ≠ g % 65536)).drop 1 with
    | n :: _ => n / 8
    | [] => 0x2000
  let low := b2n (l.contains (g % 65536)) * 2 ^ 51 + next * 2 ^ 32 + d.slabs g % 2 ^ 32
  let ents := (List.range 4).foldl (fun a i => a + (d.pgEnt (4 * g + i)).word * 2 ^ (128 * i)) 0
  Config.secDed (ents * 2 ^ 52 + low) % 2 ^ 12 * 2 ^ 52 + low

/-! ## Sidebands -/

/-- The 64-bit sideband of a way of the memory-side cache (R342): no check code. -/
def CacheWay.sideband (x : CacheWay) : Nat := x.tag % 2 ^ 48 * 2 ^ 16 + x.kic % 2 ^ 8 * 2 ^ 8 + 2 ^ 7 + x.ptag % 2 ^ 7

/-- The 128-bit sideband of a granule (R195). -/
def granuleSideband (g : Granule) : Nat :=
  let low := g.tag % 2 ^ 48 * 2 ^ 16 + g.kic % 2 ^ 8 * 2 ^ 8 + b2n g.poison * 2 ^ 7 + g.kind % 8 * 2 ^ 4 + b2n g.unwritten * 2 ^ 3
  Config.symbolEcc g.data low % 2 ^ 64 * 2 ^ 64 + low

/-- A node in DDR5 as a granule (R195, R196): a leaf node or an L3 save image, KIC 0, its MAC in TAG. -/
def Stored.granule (s : Stored) (image : Bool) : Granule :=
  { data := s.node.line, tag := s.mac, kic := 0, poison := false, kind := if image then 3 else 2, unwritten := false }

/-- The 64-bit sideband of a tree line in HBM (R211): `dirty` for a pinned leaf newer than its DDR copy. -/
def Stored.sideband (s : Stored) (dirty : Bool) : Nat :=
  let low := b2n dirty * 2 ^ 51 + s.mac % 2 ^ 48
  Config.secDed (s.node.line.toNat * 2 ^ 52 + low) % 2 ^ 12 * 2 ^ 52 + low

end Sys2Proof.Machine
end

