-- ==== Sys2Proof/Safety.lean ====
section
/-! DEFINITION. Safety.lean: the terms the statements use: a running block, an accepted packet command, the legal states of
the Ohmoux die, commands by the die they act on. -/

namespace Sys2Proof.Machine

/-- The main die is out of reset and neither in the recovery hold nor in SL3. -/
def State.runs (s : State) : Bool := s.ohm.released && s.die.live

/-- The die once a packet command is taken and passes every shared check (R387–R396): fetched or arrived, no repeat of its
endpoint's most recent command, kept as that endpoint's most recent, every check of `hdrCheck` passed. -/
def Die.accepts (d : Die) (h : Hdr) (op : Nat) (roles : List Role) (want : Nat) : Option Die :=
  match d.active.take h op with
  | none => none
  | some d0 =>
    if d0.isRepeat h op then none
    else
      let d1 := d0.keepLast (endpOf h.via) { seq := h.seq, opcode := op, reply := none }
      if (d1.hdrCheck h op roles want false).isSome then none else some d1

/-- The same for a long command: no other long command runs on its mailbox (R395). -/
def Die.acceptsLong (d : Die) (h : Hdr) (op : Nat) (roles : List Role) (want : Nat) : Option Die :=
  match d.accepts h op roles want with
  | some d1 => if d1.mailboxBusy h.via then none else some d1
  | none => none

/-- The block with a new main die: the queue, the Ohmoux die and the link as they were. -/
def State.withDie (s : State) (d : Die) : State := { s with die := d }

/-- A running block takes the packet command: `d` is the die that goes on to the command's own body. -/
def State.takes (s : State) (h : Hdr) (op : Nat) (roles : List Role) (want : Nat) (d : Die) : Prop :=
  s.runs = true ∧ s.die.accepts h op roles want = some d

/-- The same for a long command. -/
def State.takesLong (s : State) (h : Hdr) (op : Nat) (roles : List Role) (want : Nat) (d : Die) : Prop :=
  s.runs = true ∧ s.die.acceptsLong h op roles want = some d

/-- An access to the management window reaches its registers: it does not come through a tenant LD's BAR0 (R45). -/
def State.window (s : State) (src : Src) : Bool := s.runs && !s.die.ldBar src

/-- A mailbox command of the function of LD `ld` on port `p` reaches a running block: the function answers (R44). -/
def State.takesMailbox (s : State) (p ld : Nat) : Bool := s.runs && s.die.hasMailbox p ld

/-- An SPDM request reaches its responder: the sideband's once start-up has ended, a port's when its function answers (R62, R65). -/
def State.takesSpdm (s : State) : SpdmCh → Bool
  | .sideband => s.runs && s.die.boot.done
  | .doe p => s.runs && s.die.hasMailbox p 0

/-- A configuration request reaches the function of LD `ld` on port `p` after start-up (R38, R39). -/
def State.takesConfig (s : State) (p ld : Nat) : Bool :=
  s.runs && s.die.hasFunction p ld &&
  (decide (15 ≤ s.die.boot.step) || s.die.boot.done)

/-- A CXL.mem message, one with data where `data` says so, is served: its port serves memory and has a receive entry for it (R56), its
tenancy is known and of the current generation, its TA lies in the LIVE entry `e`, and the device is not in doorstop. -/
def State.serves (s : State) (m : M2S) (data : Bool) (d : Die) (ten e : Nat) : Prop :=
  s.runs = true ∧ s.die.portReady m.port = true ∧ s.die.rxRoom m.port data = true ∧ d = s.die.arrival m.port ∧ d.tenOf m = some ten ∧
  d.entryOf ten m.ta = some e ∧ (d.bt e).st = .live ∧ d.flt.doorstop = false

/-- The entry belongs to a domain in standard mode (R178). -/
def Die.stdEntry (d : Die) (e : Nat) : Bool := (d.bt e).inDom && !d.domFcx (d.bt e).dom

/-- A request counted, its credit spent, then handled as the request `op` (R90, R113, R153, R257). -/
def Die.request (d : Die) (m : M2S) (op : Op) (ten e : Nat) (data : Line) (mask : BitVec 64) : Die :=
  let r := (d.tally (if op.isWrite then 0x11 else 0x10) 1
    [scPort m.port, scLouvre (d.tenLouvre ten), scTen ten, scMaster m.port]).spend m.port ten (d.portFcx m.port) (!op.isWrite) m.ext
  r.2.hostRequest m op ten e r.1 data mask

/-- The transport is no command ring. -/
def offRing : Via → Bool
  | .ring _ => false
  | _ => true

/-- A legal state of the Ohmoux die: the gate is on in RAMP, SEQ and GOOD only; the entry is good in SEQ and GOOD only; the
main die is released in GOOD only; FLT_N is asserted in COOLDOWN, LATCHED and FET_SHORT only; KILL_N only in FET_SHORT; INIT is
the state without input; RETRIES has three bits; an orderly shutdown runs in GOOD only (R442, R453, R458–R460). -/
def Ohm.legal (o : Ohm) : Bool :=
  decide (o.gate = rampOn o.st) && decide (o.entry = seqOn o.st) && decide (o.released = decide (o.st = .good)) &&
  decide (o.fltN = decide (o.st = .cooldown ∨ o.st = .latched ∨ o.st = .fetShort)) && (!o.killN || decide (o.st = .fetShort)) &&
  decide (o.powered = decide (o.st ≠ .init)) && decide (o.record.retries ≤ 7) && (!o.leaving || decide (o.st = .good)) &&
  (seqOn o.st || (decide (o.seqEn = 0) && decide (o.pg = 0)))

/-- The block's supply invariant: Ohmoux is legal, and a main die in reset has not begun to start. -/
def State.supplyLegal (s : State) : Bool := s.ohm.legal && (s.ohm.released || !s.die.boot.started)

/-- The commands that are events of the Ohmoux die (13). -/
def ofOhmoux : Instr → Bool
  | .vbusRise _ _ _ | .vbusFall _ | .vbusOvervoltage _ | .vbusOvResume _ | .presenceDebounced _ | .prsntRise | .orderlyShutdown
  | .presenceCycle | .entryGood _ | .seqEnable | .mainDieRelease | .fastTrip | .soaTrip | .rampTimeout | .pgTimeout | .pgLost _
  | .cooldownEnd _ | .goodRunClear | .fetShortDetect _ | .fetShortRecheck _ | .oringReverse _ | .oringTurnOn _ | .feedLost _
  | .statusFrameSend | .standbyOhmClear _ | .standbyOhmQuery _ => true
  | _ => false

/-- A trip's cause, and the states, with their SEQ_EN and SEQ_PG, that list it (R447, R449, R460). -/
def tripRow : Instr → Option (Nat × (OhmSt → Nat → Nat → Bool))
  | .fastTrip => some (1, fun st _ _ => decide (st = .ramp ∨ st = .seq ∨ st = .good))
  | .soaTrip => some (2, fun st _ _ => decide (st = .ramp ∨ st = .seq ∨ st = .good))
  | .rampTimeout => some (3, fun st _ _ => decide (st = .ramp))
  | .pgTimeout => some (4, fun st en pg => decide (pg ≠ en ∧ (st = .seq ∨ st = .good)))
  | .pgLost k => some (5, fun st _ pg => decide (pg.testBit k = true ∧ (st = .seq ∨ st = .good)))
  | _ => none

/-- The events of the ports' PERST# pins: the pin's level is taken even while the main die is in reset. -/
def ofPerst : Instr → Bool
  | .perstAssert _ _ | .perstDeassert _ => true
  | _ => false

/-- The status frame arriving takes its frame off the link. -/
def ofLink : Instr → Bool
  | .ohmStatusFrame => true
  | _ => false

/-! ## Packet rows -/

/-- What the shared checks need of a packet command: its header, opcode, the roles that may send it, and the payload length its
parameters require (R388, R394). -/
structure Packet where
  hdr : Hdr
  op : Nat
  roles : List Role
  want : Nat
  deriving DecidableEq, Repr

/-- The packet commands of the table, but for the row of unknown opcodes. -/
def packetRow : Instr → Option Packet
  | .getIdentity h => some ⟨h, 0x0100, anyRole, 0⟩
  | .getCapacity h => some ⟨h, 0x0101, [.f, .k], 0⟩
  | .getNotices h _ => some ⟨h, 0x0102, [.f], 2⟩
  | .setNoticeRoute h _ _ _ => some ⟨h, 0x0103, [.f, .k], 3⟩
  | .ringSetup h _ _ _ _ _ _ _ => some ⟨h, 0x0104, [.f], 12⟩
  | .tenCreate h _ _ _ _ => some ⟨h, 0x0200, [.f], 6⟩
  | .tenSet h _ _ _ => some ⟨h, 0x0201, [.f], 4⟩
  | .tenReset h _ _ => some ⟨h, 0x0202, [.f], 3⟩
  | .tenRemove h _ => some ⟨h, 0x0203, [.f], 2⟩
  | .tenResize h _ _ => some ⟨h, 0x0204, [.f], 4⟩
  | .tenLog h _ _ _ => some ⟨h, 0x0205, [.f], 5⟩
  | .tenHarvest h _ => some ⟨h, 0x0206, [.f], 2⟩
  | .tenQuery h _ => some ⟨h, 0x0207, [.f, .t], 2⟩
  | .portSet h _ _ => some ⟨h, 0x0208, [.f], 5⟩
  | .lvrSet h _ _ _ => some ⟨h, 0x0209, [.f], 9⟩
  | .lvrGlobal h _ _ _ _ _ => some ⟨h, 0x020a, [.f], 20⟩
  | .bayAdd h _ => some ⟨h, 0x0300, [.f], 18⟩
  | .bayRemove h _ _ _ _ => some ⟨h, 0x0301, [.f], 9⟩
  | .baySet h _ _ _ _ _ => some ⟨h, 0x0302, [.f], 10⟩
  | .bayQuery h _ _ => some ⟨h, 0x0303, [.f, .t], 4⟩
  | .storeAdd h _ => some ⟨h, 0x0304, [.f], 1⟩
  | .storeRelease h _ => some ⟨h, 0x0305, [.f], 2⟩
  | .tierSet h _ _ => some ⟨h, 0x0306, [.f], 5⟩
  | .memCfg h _ => some ⟨h, 0x0307, [.f], 20⟩
  | .conCreate h _ t => some ⟨h, 0x0400, [.f], termsLen t⟩
  | .conChange h _ t => some ⟨h, 0x0401, [.f], termsLen t⟩
  | .conReadmit h _ => some ⟨h, 0x0402, [.f], 2⟩
  | .conDelete h _ => some ⟨h, 0x0403, [.f], 2⟩
  | .conQuery h _ => some ⟨h, 0x0404, [.f, .t], 2⟩
  | .capQuery h => some ⟨h, 0x0405, [.f, .k, .s], 0⟩
  | .conDefaults h _ => some ⟨h, 0x0406, [.f], 4⟩
  | .keyAllow h _ list => some ⟨h, 0x0500, [.f], 4 + 2 * list.length⟩
  | .keyRetire h _ _ _ _ list => some ⟨h, 0x0501, [.f], 8 + 4 * list.length⟩
  | .keyQuery h _ => some ⟨h, 0x0502, [.f, .k, .s], 2⟩
  | .domCreate h _ _ members => some ⟨h, 0x0600, [.f], 5 + 2 * members.length⟩
  | .domJoin h _ _ list => some ⟨h, 0x0601, [.f], 5 + 2 * list.length⟩
  | .domLeave h _ _ => some ⟨h, 0x0602, [.f], 3⟩
  | .domDestroy h _ _ => some ⟨h, 0x0603, [.f], 3⟩
  | .domRebuild h _ members => some ⟨h, 0x0604, [.f], 3 + 2 * members.length⟩
  | .domAddBay h _ _ _ list => some ⟨h, 0x0605, [.f], 7 + 4 * list.length⟩
  | .domQuery h _ => some ⟨h, 0x0606, [.f], 1⟩
  | .qSetup h _ _ _ _ _ => some ⟨h, 0x0700, [.f], 17⟩
  | .qRestart h _ => some ⟨h, 0x0701, [.f, .t], 1⟩
  | .qDisable h _ => some ⟨h, 0x0702, [.f], 1⟩
  | .qQuery h _ => some ⟨h, 0x0703, [.f, .t], 1⟩
  | .pwrLevel h _ => some ⟨h, 0x0800, [.f], 1⟩
  | .pwrSleep h _ _ => some ⟨h, 0x0801, [.f], 5⟩
  | .pwrQuery h => some ⟨h, 0x0802, [.f, .k], 0⟩
  | .ohmQuery h => some ⟨h, 0x0803, [.f, .k], 0⟩
  | .ohmClear h => some ⟨h, 0x0804, [.k], 0⟩
  | .fltGet h _ _ => some ⟨h, 0x0900, [.f, .k], 4⟩
  | .fltClear h _ => some ⟨h, 0x0901, [.f, .k], 2⟩
  | .fltInject h _ _ => some ⟨h, 0x0902, [.f], 4⟩
  | .eventEnable h _ _ => some ⟨h, 0x0903, [.f], 8⟩
  | .chReadmit h _ => some ⟨h, 0x0904, [.f], 1⟩
  | .telCfg h _ _ => some ⟨h, 0x0a00, [.f], 3⟩
  | .pmuSelect h _ _ _ => some ⟨h, 0x0a01, [.f], 7⟩
  | .telWindow h _ _ => some ⟨h, 0x0a02, [.f], 3⟩
  | .pmuRead h _ _ => some ⟨h, 0x0a03, [.f, .t], 4⟩
  | .dimmQuery h _ => some ⟨h, 0x0a04, [.f, .k], 1⟩
  | .fwInfo h => some ⟨h, 0x0b00, [.f, .k], 0⟩
  | .fwWrite h _ _ data => some ⟨h, 0x0b01, [.k], 5 + data.length⟩
  | .fwVerify h _ => some ⟨h, 0x0b02, [.k], 1⟩
  | .fwSelect h _ => some ⟨h, 0x0b03, [.k], 1⟩
  | .keepRead h _ _ => some ⟨h, 0x0b04, [.f, .k], 4⟩
  | .keepWrite h _ _ => some ⟨h, 0x0b05, [.f, .k], 6⟩
  | .deviceRestart h => some ⟨h, 0x0b06, [.k], 0⟩
  | .dbgNormal h _ _ => some ⟨h, 0x0c00, [.f], 2⟩
  | .dbgBind h _ => some ⟨h, 0x0c01, [.f], 2⟩
  | .dbgQuery h => some ⟨h, 0x0c02, [.f, .k, .s], 0⟩
  | .dblClaim h _ _ => some ⟨h, 0x0d00, [.k, .s], (if partyOf h.via = 1 then 49 else 48)⟩
  | .dblPropose h _ body => some ⟨h, 0x0d01, [.k, .s], 2 + body.length⟩
  | .dblGet h _ => some ⟨h, 0x0d02, [.k, .s], 4⟩
  | .dblSign h _ _ => some ⟨h, 0x0d03, [.k, .s], 52⟩
  | .dblWithdraw h _ => some ⟨h, 0x0d04, [.k, .s], 4⟩
  | .dblStatus h => some ⟨h, 0x0d05, [.f, .k, .s, .t], 0⟩
  | _ => none

end Sys2Proof.Machine
end

