-- ==== Sys2Proof/Certificates/Slice0/Obligations.lean ====
section
/-! DEFINITION. Certificates/Slice0/Obligations.lean: the statements for the provers. `s.takes h op roles want d` says that a
running block takes the packet and passes every shared check, `d` being the die that goes on to the command's own body;
`d.ok h op payload` sends the SUCCESS reply, `d.commitFor g c writes` requests the commit the command ends with. -/

open Sys2Proof Sys2Proof.Machine

/-! ## Packet commands: management (R397, R399–R401, R452, R464) -/

/-- The management commands complete: identity, capacity, notices, their route, rings, Ohmoux, event enables; an opcode the
table does not list is answered BAD_OPCODE once start-up has ended and NOT_READY before. -/
def Obligations.ManagementCommandsComplete : Prop :=
  (∀ (s : State) (h : Hdr) (d : Die), s.takes h 0x0100 anyRole 0 d →
    exec (.getIdentity h) s = .next (s.withDie (d.ok h 0x0100
      [(2, 0x9616), (1, 0xa0), (1, Config.grade.toNat), (8, Config.uid.toNat), (4, d.fwVer), (1, d.boot.image)]))) ∧
  (∀ (s : State) (h : Hdr) (d : Die), s.takes h 0x0101 [.f, .k] 0 d →
    let sets := (List.range 16).filter fun n => (d.setInfo n).valid
    exec (.getCapacity h) s = .next (s.withDie (d.ok h 0x0101 ([(4, d.boot.gib), (2, d.boot.trainedMask), (2, sets.length)] ++
      (sets.flatMap fun n => [(2, (d.setInfo n).base), (2, (d.setInfo n).total), (1, (d.setChannels n).length)]) ++
      [(2, sets.foldl (fun a n => a + d.freeIn n) 0), (2, d.pmap.stores.length)])))) ∧
  (∀ (s : State) (h : Hdr) (d : Die) (max : Nat), s.takes h 0x0102 [.f] 2 d → d.lostOn 2 = 0 →
    exec (.getNotices h max) s = .next (s.withDie
      ({ d with mgt := { d.mgt with notices := d.mgt.notices.drop (min max (noticeRoom h.via)) } }.ok h 0x0102
        ((2, (d.mgt.notices.take (min max (noticeRoom h.via))).length) ::
          (d.mgt.notices.take (min max (noticeRoom h.via))).flatMap Notice.pay)))) ∧
  (∀ (s : State) (h : Hdr) (d : Die) (mask eid ring : Nat), s.takes h 0x0103 [.f, .k] 3 d → mask ≤ 7 → mask.testBit 1 = false →
    exec (.setNoticeRoute h mask eid ring) s = .next (s.withDie
      ({ d with mgt := { d.mgt with routeMask := mask, routeEid := eid, routeRing := ring } }.ok h 0x0103 []))) ∧
  (∀ (s : State) (h : Hdr) (d : Die) (mask eid ring : Nat), s.takes h 0x0103 [.f, .k] 3 d → mask ≤ 7 → mask.testBit 1 = true →
    ring ≤ 7 → (d.ring ring).valid = true → (d.ring ring).role = 0 → d.fmPort (d.ring ring).port = true →
    exec (.setNoticeRoute h mask eid ring) s = .next (s.withDie
      ({ d with mgt := { d.mgt with routeMask := mask, routeEid := eid, routeRing := ring } }.ok h 0x0103 []))) ∧
  (∀ (s : State) (h : Hdr) (d : Die) (ring role ten bay offset vector : Nat), s.takes h 0x0104 [.f] 12 d →
    badRing ring role offset 0 vector = none →
    exec (.ringSetup h ring role ten bay offset 0 vector) s = .next (s.withDie ((d.setRing ring Ring.init).ok h 0x0104 []))) ∧
  (∀ (s : State) (h : Hdr) (d : Die) (ring role ten bay offset log2 vector : Nat), s.takes h 0x0104 [.f] 12 d →
    badRing ring role offset log2 vector = none → log2 ≠ 0 → ten ≤ 1023 → (d.ten ten).st ≠ .free →
    (role = 0 → d.fmPort (d.tenPort ten) = true) → bay < d.segLen ten → d.plainEntry (d.segBase ten + bay) = true →
    exec (.ringSetup h ring role ten bay offset log2 vector) s = .next (s.withDie ((d.setRing ring
      { valid := true, role := role, ten := ten, bay := bay, offset := offset, log2 := log2, vector := vector,
        port := d.tenPort ten, tail := 0, head := 0, fetched := 0, asked := false, got := [], subs := [] }).ok h 0x0104 []))) ∧
  (∀ (s : State) (h : Hdr) (d : Die), s.takes h 0x0803 [.f, .k] 0 d →
    exec (.ohmQuery h) s = .next (s.withDie ({ d with draws := d.draws + 1 }.ok h 0x0803 d.ohmQuery))) ∧
  (∀ (s : State) (h : Hdr) (d : Die), s.takes h 0x0804 [.k] 0 d →
    exec (.ohmClear h) s = .next (s.withDie (d.fail h 0x0804 St.ohmNotLatched 0))) ∧
  (∀ (s : State) (h : Hdr) (d : Die) (base value o : Nat), s.takes h 0x0903 [.f] 8 d → eventEnOf base = some o →
    value &&& regMask o = value →
    exec (.eventEnable h base value) s =
      .next (s.withDie (((d.regWake o).regW o (BitVec.ofNat 32 value)).ok h 0x0903 []))) ∧
  (∀ (s : State) (h : Hdr) (d0 : Die) (opcode : Nat), s.runs = true → opcodes.contains opcode = false →
    s.die.active.take h opcode = some d0 → d0.isRepeat h opcode = false →
    exec (.unknownOpcode h opcode) s = .next (s.withDie
      ((d0.keepLast (endpOf h.via) { seq := h.seq, opcode := opcode, reply := none }).fail h opcode
        (if d0.boot.done then St.badOpcode else St.notReady) 0)))

/-! ## Packet commands: tenancies (R364–R371, R400) -/

/-- TEN_CREATE, TEN_SET and TEN_LOG request the commit of the tenancy's registers, TEN_SET of another default class failing with
CLASS_NOT_ALLOWED while the tenancy holds a contract (R86); TEN_RESET and TEN_REMOVE are accepted as long commands; TEN_RESIZE copies
the entries of a segment that moves and then stages the new segment; TEN_HARVEST starts a harvest; TEN_QUERY answers the active
registers. -/
def Obligations.TenancyCommandsComplete : Prop :=
  (∀ (s : State) (h : Hdr) (d : Die) (port ld segLen t b : Nat), s.takes h 0x0200 [.f] 6 d → port ≤ 5 → (ld ≤ 15 ∨ ld = 31) →
    segLen ≠ 0 → segLen ≤ 4096 → (List.range 1024).find? (fun t => !d.tenTaken.contains t) = some t →
    d.tenTaken.find? (fun k => decide (ld ≠ 31) && decide (d.tenKey k = port * 32 + ld)) = none →
    placeSeg (d.segsTaken d.tenTaken) segLen = some b →
    exec (.tenCreate h 0xffff port ld segLen) s = .next (s.withDie (d.commitFor .ten (.tenCreate h t port ld segLen)
      [(R.tenCfg t, cfgWord port ld), (R.tenSeg t, b * 2 ^ 16 + segLen)]))) ∧
  (∀ (s : State) (h : Hdr) (d : Die) (t port ld segLen b : Nat), s.takes h 0x0200 [.f] 6 d → port ≤ 5 → (ld ≤ 15 ∨ ld = 31) →
    segLen ≠ 0 → segLen ≤ 4096 → t ≤ 1023 → d.tenTaken.contains t = false →
    d.tenTaken.find? (fun k => decide (ld ≠ 31) && decide (d.tenKey k = port * 32 + ld)) = none →
    placeSeg (d.segsTaken d.tenTaken) segLen = some b →
    exec (.tenCreate h t port ld segLen) s = .next (s.withDie (d.commitFor .ten (.tenCreate h t port ld segLen)
      [(R.tenCfg t, cfgWord port ld), (R.tenSeg t, b * 2 ^ 16 + segLen)]))) ∧
  (∀ (s : State) (h : Hdr) (d : Die) (ten cls louvre : Nat), s.takes h 0x0201 [.f] 4 d → ten ≤ 1023 → (d.ten ten).st ≠ .free →
    cls ≤ 4 → (cls ≠ fld (d.future (R.tenCfg ten)) 22 20 → d.contracts.any (fun c => decide (c.ten = ten)) = false) →
    exec (.tenSet h ten cls louvre) s = .next (s.withDie (d.commitFor .ten (.tenSet h ten cls louvre)
      [(R.tenCfg ten, (setFld (setFld (d.future (R.tenCfg ten)) 22 20 cls) 7 0 louvre).toNat)]))) ∧
  (∀ (s : State) (h : Hdr) (d : Die) (ten cls louvre : Nat), s.takes h 0x0201 [.f] 4 d → ten ≤ 1023 → (d.ten ten).st ≠ .free →
    cls ≤ 4 → cls ≠ fld (d.future (R.tenCfg ten)) 22 20 → d.contracts.any (fun c => decide (c.ten = ten)) = true →
    exec (.tenSet h ten cls louvre) s = .next (s.withDie (d.fail h 0x0201 St.classNotAllowed ten))) ∧
  (∀ (s : State) (h : Hdr) (d : Die) (ten en entry : Nat), s.takes h 0x0205 [.f] 5 d → ten ≤ 1023 → (d.ten ten).st ≠ .free →
    en ≤ 1 → entry ≤ 16383 → exec (.tenLog h ten en entry) s = .next (s.withDie (d.commitFor .ten (.tenLog h ten en entry)
      ([(R.tenCfg ten, (setFld (d.future (R.tenCfg ten)) 19 19 en).toNat)] ++ if en = 1 then [(R.tenLog ten, entry)] else [])))) ∧
  (∀ (s : State) (h : Hdr) (d : Die) (ten scrub : Nat), s.takesLong h 0x0202 [.f] 3 d → ten ≤ 1023 → scrub ≤ 1 →
    (d.ten ten).st = .active → d.tenRunning ten = false → d.tens.adds.contains ten = false → d.oldGen ten = false →
    exec (.tenReset h ten scrub) s = .next (s.withDie ((d.addTenOp
      { ten := ten, kind := 0, scrub := decide (scrub = 1), begun := false, hdr := some h }).interim h 0x0202))) ∧
  (∀ (s : State) (h : Hdr) (d : Die) (ten : Nat), s.takesLong h 0x0203 [.f] 2 d → ten ≤ 1023 →
    (d.ten ten).st = .active → d.tenRunning ten = false → d.tens.adds.contains ten = false → d.oldGen ten = false →
    (d.segEntries ten).find? (fun e => decide ((d.bt e).st ≠ .empty) && (d.holdsRing e || d.holdsLog e (some ten))) = none →
    exec (.tenRemove h ten) s = .next (s.withDie ((d.addTenOp
      { ten := ten, kind := 1, scrub := true, begun := false, hdr := some h }).interim h 0x0203))) ∧
  (∀ (s : State) (h : Hdr) (d : Die) (ten segLen : Nat), s.takesLong h 0x0204 [.f] 4 d → ten ≤ 1023 → segLen ≠ 0 →
    segLen ≤ 4096 → (d.ten ten).st = .active → d.tenRunning ten = false →
    (d.tenEntries ten).any (fun e => decide ((d.bt e).st ≠ .live)) = false →
    segFree (d.segsTaken (d.tenTaken.filter (· ≠ ten))) (d.segBase ten) segLen = true →
    exec (.tenResize h ten segLen) s = .next (s.withDie ((d.acceptTenOp h 0x0204 ten 2 false).askCommits
      [{ group := .ten, at_ := d.time, cmd := some (.tenResize h ten segLen),
         writes := [(R.tenSeg ten, BitVec.ofNat 32 (d.segBase ten * 2 ^ 16 + segLen))] }]))) ∧
  (∀ (s : State) (h : Hdr) (d : Die) (ten segLen b : Nat), s.takesLong h 0x0204 [.f] 4 d → ten ≤ 1023 → segLen ≠ 0 →
    segLen ≤ 4096 → (d.ten ten).st = .active → d.tenRunning ten = false →
    (d.tenEntries ten).any (fun e => decide ((d.bt e).st ≠ .live)) = false →
    segFree (d.segsTaken (d.tenTaken.filter (· ≠ ten))) (d.segBase ten) segLen = false →
    placeSeg ((d.segBase ten, d.segLen ten) :: d.segsTaken (d.tenTaken.filter (· ≠ ten))) segLen = some b → b ≠ d.segBase ten →
    let d1 := d.acceptTenOp h 0x0204 ten 2 false
    let copy (e : Nat) : CommitReq :=
      { group := .ten, at_ := d.time, cmd := none, writes := btuWrites (b + (e - d.segBase ten)) (d.bt e), source := some e }
    exec (.tenResize h ten segLen) s = .next (s.withDie (d1.askCommits ((d1.tenEntries ten).map copy ++
      [{ group := .ten, at_ := d.time, cmd := some (.tenResize h ten segLen),
         writes := [(R.tenSeg ten, BitVec.ofNat 32 (b * 2 ^ 16 + segLen))] }])))) ∧
  (∀ (s : State) (h : Hdr) (d : Die) (ten : Nat), s.takesLong h 0x0206 [.f] 2 d → ten ≤ 1023 → (d.ten ten).st ≠ .free →
    d.logOn ten = true →
    let x : Harvest := { ten := ten, mapB := false, swapped := none, hdr := h }
    exec (.tenHarvest h ten) s = .next (s.withDie
      ({ d with tens := { d.tens with harvests := d.tens.harvests ++ [x] } }.interim h 0x0206))) ∧
  (∀ (s : State) (h : Hdr) (d : Die) (ten : Nat), s.takes h 0x0207 [.f, .t] 2 d → ten ≤ 1023 →
    (d.asTenant h 0x0207 = true → ten = hdrTen h) →
    exec (.tenQuery h ten) s = .next (s.withDie (d.ok h 0x0207
      ([(4, (d.act (R.tenCfg ten)).toNat), (4, (d.act (R.tenSeg ten)).toNat), (4, (d.act (R.tenLog ten)).toNat),
        (4, (d.tenStatReg ten).toNat)] ++ payList 2 (d.allowedOf ten)))))

/-! ## Packet commands: bays, stores, memory and ports (R280, R362, R373–R378, R400) -/

/-- BAY_ADD and BAY_SET request the commit of the entry; BAY_REMOVE starts the removal; BAY_QUERY answers the entry. -/
def Obligations.BayCommandsComplete : Prop :=
  (∀ (s : State) (h : Hdr) (d : Die) (p : BayAddP) (b i : Nat), s.takes h 0x0300 [.f] 18 d → p.ten ≤ 1023 →
    (d.ten p.ten).st = .active → (p.bay = 0xffff ∨ p.bay < (d.futureSeg p.ten).2) → d.bayAddBad p = none →
    ¬(p.cache = 1 ∧ p.mode = 1) → d.live? p.defKey = true → (if p.mode = 0 then d.freePhys p.set else d.freeMapped) = some b →
    (if p.bay = 0xffff then (List.range (d.futureSeg p.ten).2).find? (d.indexFree p.ten)
      else if d.indexFree p.ten p.bay then some p.bay else none) = some i →
    exec (.bayAdd h p) s = .next (s.withDie ({ d with tens := { d.tens with adds := d.tens.adds ++ [p.ten] } }.commit .ten
      (some (.bayAdd h { p with bay := i })) (btuWrites ((d.futureSeg p.ten).1 + i) (newEntry p b))))) ∧
  (∀ (s : State) (h : Hdr) (d : Die) (ten bay cache policy quota e : Nat), s.takes h 0x0302 [.f] 10 d → ten ≤ 1023 →
    (d.ten ten).st ≠ .free → d.bayEntry ten bay = some e → cache ≤ 1 → policy ≤ 15 → quota ≤ 2097152 → (d.bt e).st = .live →
    ¬(cache = 1 ∧ (d.bt e).mode = 1) →
    let change (c : Option Instr) (i : Nat) (x : Bt) : CommitReq :=
      { group := .ten, at_ := d.time, cmd := c, writes := btuWrites i (x.changed cache policy), source := some i }
    let others := (d.sameBay (d.bt e).dlaBay).filter fun x => decide (x.1 ≠ e)
    exec (.baySet h ten bay cache policy quota) s = .next (s.withDie (d.askCommits (others.map (fun x => change none x.1 x.2) ++
      [change (some (.baySet h ten bay cache policy quota)) e (d.bt e)])))) ∧
  (∀ (s : State) (h : Hdr) (d : Die) (ten bay force waitMs e : Nat), s.takesLong h 0x0301 [.f] 9 d → ten ≤ 1023 →
    (d.ten ten).st ≠ .free → d.bayEntry ten bay = some e → force ≤ 1 → d.removeRefused ten e = none →
    let b := (d.bt e).dlaBay
    let d1 := d.extentEvent b .dcRelease
    let d2 := if force = 1 then d1.extentEvent b .dcForced else d1
    let o : BayOp := { entry := e, bay := b, phase := if force = 1 then d.afterRelease b else .waitHost, why := 0, ten := ten,
                       next := 0, left := [], until_ := d.time + waitMs * 100000, hdr := some h }
    exec (.bayRemove h ten bay force waitMs) s = .next (s.withDie
      ({ d2 with tens := { d2.tens with bayOps := d2.tens.bayOps ++ [o] } }.interim h 0x0301))) ∧
  (∀ (s : State) (h : Hdr) (d : Die) (ten bay : Nat), s.takes h 0x0303 [.f, .t] 4 d → ten ≤ 1023 →
    (d.asTenant h 0x0303 = true → ten = hdrTen h) → (d.ten ten).st ≠ .free → bay < d.segLen ten →
    (d.bt (d.segBase ten + bay)).st = .empty →
    exec (.bayQuery h ten bay) s = .next (s.withDie (d.ok h 0x0303
      ([(4, (d.bt (d.segBase ten + bay)).lo.toNat), (4, (d.bt (d.segBase ten + bay)).hi.toNat)] ++ payList 2 [] ++
        [(2, 0xffff), (2, 0xffff), (4, 0), (4, 0)])))) ∧
  (∀ (s : State) (h : Hdr) (d : Die) (ten bay : Nat), s.takes h 0x0303 [.f, .t] 4 d → ten ≤ 1023 →
    (d.asTenant h 0x0303 = true → ten = hdrTen h) → (d.ten ten).st ≠ .free → bay < d.segLen ten →
    (d.bt (d.segBase ten + bay)).st ≠ .empty →
    exec (.bayQuery h ten bay) s = .next (s.withDie (d.ok h 0x0303
      ([(4, (d.bt (d.segBase ten + bay)).lo.toNat), (4, (d.bt (d.segBase ten + bay)).hi.toNat)] ++
        payList 2 (d.bay (d.bt (d.segBase ten + bay)).dlaBay).keyList ++
        (if mappedBay (d.bt (d.segBase ten + bay)).dlaBay then
          [(2, (d.bay (d.bt (d.segBase ten + bay)).dlaBay).primary), (2, (d.bay (d.bt (d.segBase ten + bay)).dlaBay).secondary),
           (4, (d.bay (d.bt (d.segBase ten + bay)).dlaBay).quota), (4, (d.bay (d.bt (d.segBase ten + bay)).dlaBay).used)]
         else [(2, 0xffff), (2, 0xffff), (4, 0), (4, 0)])))))

/-- STORE_ADD takes a free bay of the set as a store; STORE_RELEASE returns one that nothing names; TIER_SET, MEM_CFG, PORT_SET,
LVR_SET and LVR_GLOBAL request the commit of the registers they write. -/
def Obligations.MemoryAndPortCommandsComplete : Prop :=
  (∀ (s : State) (h : Hdr) (d : Die) (set b i : Nat), s.takes h 0x0304 [.f] 1 d → set ≤ 15 → (d.setInfo set).valid = true →
    d.freePhys set = some b → (List.range 4096).find? (fun i => (d.pmap.stores.find? i).isNone) = some i →
    exec (.storeAdd h set) s = .next (s.withDie ({ d.freshStore i with pmap := { (d.freshStore i).pmap with
      stores := (d.freshStore i).pmap.stores.insert i { bay := b, low := false } } }.ok h 0x0304 [(2, i), (2, b)]))) ∧
  (∀ (s : State) (h : Hdr) (d : Die) (store : Nat) (x : Store), s.takes h 0x0305 [.f] 2 d → d.pmap.stores.find? store = some x →
    d.usedEntries.any (fun e => mappedBay (d.bt e).dlaBay &&
      decide ((d.bay (d.bt e).dlaBay).primary = store ∨ (d.bay (d.bt e).dlaBay).secondary = store)) = false →
    d.storeEmpty store = true →
    let d1 := (d.writtenPages x.bay).foldl Die.scrubLeaf d
    exec (.storeRelease h store) s = .next (s.withDie ({ d1.freshStore store with
      pmap := { (d1.freshStore store).pmap with stores := d1.pmap.stores.erase store } }.ok h 0x0305 []))) ∧
  (∀ (s : State) (h : Hdr) (d : Die) (policy value : Nat), s.takes h 0x0306 [.f] 5 d → policy ≤ 15 →
    firstRsv [(17, R.tirPolicy policy, value)] = none →
    exec (.tierSet h policy value) s =
      .next (s.withDie (d.commitFor .tir (.tierSet h policy value) [(R.tirPolicy policy, value)]))) ∧
  (∀ (s : State) (h : Hdr) (d : Die) (p : MemCfgP), s.takes h 0x0307 [.f] 20 d →
    firstRsv ((memParts p).map fun (x : Nat × Group × Nat × Nat) => (x.1, x.2.2)) = none → memParts p ≠ [] →
    exec (.memCfg h p) s = .next (s.withDie
      ((memParts p).foldl (fun (d : Die) (x : Nat × Group × Nat × Nat) => d.commitFor x.2.1 (.memCfg h p) [x.2.2]) d))) ∧
  (∀ (s : State) (h : Hdr) (d : Die) (p : MemCfgP), s.takes h 0x0307 [.f] 20 d → memParts p = [] →
    exec (.memCfg h p) s = .next (s.withDie (d.ok h 0x0307 []))) ∧
  (∀ (s : State) (h : Hdr) (d : Die) (port cfg : Nat), s.takes h 0x0208 [.f] 5 d → port ≤ 5 →
    firstRsv [(17, R.hptPortCfg port, cfg)] = none →
    exec (.portSet h port cfg) s =
      .next (s.withDie (d.commitFor (.hpt port) (.portSet h port cfg) [(R.hptPortCfg port, cfg)]))) ∧
  (∀ (s : State) (h : Hdr) (d : Die) (louvre shape target : Nat), s.takes h 0x0209 [.f] 9 d →
    firstRsv [(17, R.lvrShape louvre, shape), (21, R.lvrTarget louvre, target)] = none →
    exec (.lvrSet h louvre shape target) s = .next (s.withDie (d.commitFor .lvr (.lvrSet h louvre shape target)
      [(R.lvrShape louvre, shape), (R.lvrTarget louvre, target)]))) ∧
  (∀ (s : State) (h : Hdr) (d : Die) (cfg therm pmic map0 map1 : Nat), s.takes h 0x020a [.f] 20 d →
    firstRsv [(16, R.lvrCfg, cfg), (20, R.lvrTherm, therm), (24, R.lvrPmic, pmic), (28, R.lvrMasterMap0, map0),
      (32, R.lvrMasterMap1, map1)] = none →
    exec (.lvrGlobal h cfg therm pmic map0 map1) s = .next (s.withDie (d.commitFor .lvr (.lvrGlobal h cfg therm pmic map0 map1)
      [(R.lvrCfg, cfg), (R.lvrTherm, therm), (R.lvrPmic, pmic), (R.lvrMasterMap0, map0), (R.lvrMasterMap1, map1)])))

/-! ## Packet commands: contracts (R84–R87, R400) -/

/-- CON_CREATE, CON_CHANGE, CON_READMIT and CON_DELETE act when no bay sleeps and no earlier contract command waits: the first three pin
the bays' leaf blocks and are answered at once where every block is filled (R221); CON_QUERY and CAP_QUERY answer; CON_DEFAULTS requests
the commit of TRS_CFG; LEAF_FILL_DONE fills the block once the fill's reads have issued and answers the contracts it completes;
REVAL_SWEEP_DONE ends the sweep. -/
def Obligations.ContractCommandsComplete : Prop :=
  (∀ (s : State) (h : Hdr) (d : Die) (ten id : Nat) (t : Terms), s.takesLong h 0x0400 [.f] (termsLen t) d →
    d.asTenant h 0x0400 = false → ten ≤ 1023 → d.mustWake (.conCreate h ten t) = false → d.conWaits = false → (d.ten ten).st = .active →
    d.validate ten t d.contracts = none → d.freeCon = some id →
    (d.contracts.filter fun c => decide (c.ten = ten)).length < 8 → dryRun h = false →
    let u := d.resolve ten t
    let c : Contract := { id := id, ten := ten, use := u, st := .awaiting, acc := d.trs.nextAcc, eff := none,
                          reply := some (h, 0x0400), changes := [], release := none, verdict := none }
    let d1 : Die := { d with trs := { d.trs with nextAcc := d.trs.nextAcc + 1 } }
    exec (.conCreate h ten t) s = .next (s.withDie (((d1.pinBlocks u.dla).answerCon c).interimIfWaiting h 0x0400))) ∧
  (∀ (s : State) (h : Hdr) (d : Die) (ten id : Nat) (t : Terms), s.takesLong h 0x0400 [.f] (termsLen t) d →
    d.asTenant h 0x0400 = false → ten ≤ 1023 → d.mustWake (.conCreate h ten t) = false → d.conWaits = false → (d.ten ten).st = .active →
    d.validate ten t d.contracts = none → d.freeCon = some id →
    (d.contracts.filter fun c => decide (c.ten = ten)).length < 8 → dryRun h = true →
    exec (.conCreate h ten t) s =
      .next (s.withDie ((d.ok h 0x0400 [(2, id), (8, d.transom + 2)]).interimIfWaiting h 0x0400))) ∧
  (∀ (s : State) (h : Hdr) (d : Die) (con : Nat) (t : Terms) (c : Contract), s.takesLong h 0x0401 [.f] (termsLen t) d →
    d.mustWake (.conChange h con t) = false → d.conWaits = false → d.con con = some c → c.st ≠ .demoted →
    d.validate c.ten t (d.contracts.filter fun k => decide (k.id ≠ con)) = none → dryRun h = false →
    let u := d.resolve c.ten t
    let c1 : Contract := { c with changes := c.changes ++ [{ use := u, hdr := h, eff := none }] }
    exec (.conChange h con t) s = .next (s.withDie (((d.pinBlocks u.dla).answerCon c1).interimIfWaiting h 0x0401))) ∧
  (∀ (s : State) (h : Hdr) (d : Die) (con : Nat) (c : Contract), s.takesLong h 0x0402 [.f] 2 d →
    d.mustWake (.conReadmit h con) = false → d.conWaits = false → d.con con = some c → c.st = .demoted →
    d.validate c.ten c.use.t (d.contracts.filter fun k => decide (k.id ≠ con)) = none →
    let c1 : Contract := { c with st := .awaiting, reply := some (h, 0x0402) }
    exec (.conReadmit h con) s = .next (s.withDie (((d.pinBlocks c.use.dla).answerCon c1).interimIfWaiting h 0x0402))) ∧
  (∀ (d : Die) (c : Contract) (h : Hdr) (op : Nat), c.reply = some (h, op) → c.changes = [] → d.filled c.use = true →
    d.answerCon c = (d.ok h op (conPay op c.id (d.transom + 2))).setCon { c with eff := some (d.transom + 2), reply := none }) ∧
  (∀ (d : Die) (c : Contract) (h : Hdr) (op : Nat), c.reply = some (h, op) → c.changes = [] → d.filled c.use = false →
    d.answerCon c = d.setCon c) ∧
  (∀ (s : State) (h : Hdr) (d : Die) (con : Nat) (c : Contract), s.takes h 0x0403 [.f] 2 d →
    d.conWaits = false → d.con con = some c →
    exec (.conDelete h con) s = .next (s.withDie
      ((d.setCon { c with release := some (d.transom + 1) }).ok h 0x0403 [(8, d.transom + 1)]))) ∧
  (∀ (s : State) (h : Hdr) (d : Die) (con : Nat) (c : Contract), s.takes h 0x0404 [.f, .t] 2 d → d.con con = some c →
    (d.asTenant h 0x0404 = true → c.ten = hdrTen h) →
    exec (.conQuery h con) s =
      .next (s.withDie (d.ok h 0x0404 ([(2, c.ten), (1, conStateCode c.st)] ++ termsPay c.use.t)))) ∧
  (∀ (s : State) (h : Hdr) (d : Die), s.takes h 0x0405 [.f, .k, .s] 0 d →
    exec (.capQuery h) s = .next (s.withDie (d.ok h 0x0405
      ((4, (d.regR R.trsCap).toNat) :: ((List.range 16).map fun c => (4, (d.chLoad c).toNat)) ++
        (List.range 6).map fun p => (4, (d.portLoad p).toNat))))) ∧
  (∀ (s : State) (h : Hdr) (d : Die) (cfg : Nat), s.takes h 0x0406 [.f] 4 d → cfg < 2 ^ 12 →
    exec (.conDefaults h cfg) s =
      .next (s.withDie (d.commit .trs (some (.conDefaults h cfg)) [(R.trsCfg, BitVec.ofNat 32 cfg)]))) ∧
  (∀ (s : State) (block bay : Nat), s.runs = true → (s.die.itr.block block).bay = some bay →
    (s.die.itr.block block).filling = true → s.die.fillRead bay = true →
    exec (.leafFillDone block) s = .next (s.withDie (s.die.endFill block bay).answerFills)) ∧
  (∀ (s : State), s.runs = true → s.die.trs.sweep.isSome = true →
    exec .revalSweepDone s = .next (s.withDie s.die.endSweep))

/-! ## Packet commands: keys, domains and job queues (R142–R145, R192, R255, R262, R276, R312–R316, R400) -/

/-- The key and domain commands: KEY_ALLOW sets a tenancy's allowed list, KEY_RETIRE starts a retirement at the next boundary,
KEY_QUERY answers the slot; DOM_CREATE, DOM_JOIN and DOM_ADD_BAY request commits; DOM_LEAVE, DOM_DESTROY and DOM_REBUILD start the
directory sweep, unless a key index would stay in the lists of tenancies no longer of one domain (R256); DOM_QUERY answers. -/
def Obligations.KeyAndDomainCommandsComplete : Prop :=
  (∀ (s : State) (h : Hdr) (d : Die) (ten : Nat) (list : List Nat), s.takes h 0x0500 [.f] (4 + 2 * list.length) d → ten ≤ 1023 →
    (d.ten ten).st ≠ .free → list.length ≤ 16 → (List.range list.length).find? (fun i => decide (4095 < list.getD i 0)) = none →
    list.find? (d.keyElsewhere ten) = none →
    exec (.keyAllow h ten list) s = .next (s.withDie
      ({ d with keys := { d.keys with allowed := d.keys.allowed.set [] ten list } }.ok h 0x0500 []))) ∧
  (∀ (s : State) (h : Hdr) (d : Die) (a mode phys target : Nat) (list : List (Nat × Nat)),
    s.takes h 0x0501 [.f] (8 + 4 * list.length) d → a ≤ 4095 → mode ≤ 1 → phys ≤ 1 → (mode = 0 → target ≤ 4095) →
    d.retireRefused a (decide (mode = 1)) target list = none →
    exec (.keyRetire h a mode phys target list) s = .next (s.withDie
      ((d.addRetire a (decide (mode = 1)) (decide (phys = 1)) target list none).ok h 0x0501 [(8, d.transom + 1)]))) ∧
  (∀ (s : State) (h : Hdr) (d : Die) (k : Nat), s.takes h 0x0502 [.f, .k, .s] 2 d → k ≤ 4095 → d.retire? k = none →
    exec (.keyQuery h k) s = .next (s.withDie
      (d.ok h 0x0502 [(4, (d.slotLo k).toNat), (4, (d.slotHi k).toNat), (4, 0), (4, 0)]))) ∧
  (∀ (s : State) (h : Hdr) (d : Die) (k : Nat) (r : Retire), s.takes h 0x0502 [.f, .k, .s] 2 d → k ≤ 4095 → d.retire? k = some r →
    exec (.keyQuery h k) s = .next (s.withDie
      (d.ok h 0x0502 [(4, (d.slotLo k).toNat), (4, (d.slotHi k).toNat), (4, (d.retA r).toNat), (4, r.b.toNat)]))) ∧
  (∀ (s : State) (h : Hdr) (d : Die) (dom n snpTo : Nat) (members : List Nat), s.takes h 0x0600 [.f] (5 + 2 * members.length) d →
    (dom ≤ 63 ∨ dom = 0xff) → snpTo ≤ 1023 → members.length ≤ 6 → (dom ≠ 0xff → d.domTaken dom = false ∧ n = dom) →
    (dom = 0xff → (List.range 64).find? (fun n => !d.domTaken n) = some n) → d.membersBad n 21 members = none →
    exec (.domCreate h dom snpTo members) s = .next (s.withDie (d.commit .dom (some (.domCreate h n snpTo members))
      (domWrites n (d.domMode members) snpTo (d.withPorts members))))) ∧
  (∀ (s : State) (h : Hdr) (d : Die) (dom ten : Nat) (list : List Nat), s.takesLong h 0x0601 [.f] (5 + 2 * list.length) d →
    d.needUp dom = none → ten ≤ 1023 → (d.ten ten).st = .active →
    (d.members dom ++ d.joining dom).any (fun m => decide (m.1 = d.tenPort ten)) = false → d.domOfTen ten = none →
    (List.range 64).any (fun k => (d.joining k).any fun m => decide (m.2 = ten)) = false →
    ¬(d.domFcx dom ∧ !(d.port (d.tenPort ten)).fcxActive) → list.length = (d.domBaysSoon dom).length →
    (d.takeIndices ten 21 2 true list).2 = none →
    let entry (b i : Nat) : Nat × Bt × Bool :=
      ((d.futureSeg ten).1 + i, { (d.domEntry dom b) with ten := ten, st := .fenced, inDom := true, dom := dom }, false)
    exec (.domJoin h dom ten list) s = .next (s.withDie ((d.interim h 0x0601).domCommits (.domJoin h dom ten list)
      ((d.domBaysSoon dom).zipWith entry (d.takeIndices ten 21 2 true list).1)
      (domWrites dom (d.domFcx dom) (d.domSnpTo dom) (d.members dom ++ [(d.tenPort ten, ten)]))))) ∧
  (∀ (s : State) (h : Hdr) (d : Die) (dom ten p : Nat), s.takesLong h 0x0602 [.f] 3 d → d.needUp dom = none →
    d.memberOf dom ten = some p → 2 < (d.members dom).length →
    d.keyShared ((d.members dom).map Prod.snd) (fun t u => decide (t = ten ∨ u = ten)) = none →
    exec (.domLeave h dom ten) s = .next (s.withDie
      (((d.setDomStat dom (3, 0, 7)).sweepFor dom (some p) false (.domLeave h dom ten)).interim h 0x0602))) ∧
  (∀ (s : State) (h : Hdr) (d : Die) (dom ten p : Nat), s.takesLong h 0x0603 [.f] 3 d → d.needUp dom = none →
    d.memberOf dom ten = some p → d.keyShared ((d.members dom).map Prod.snd) (fun _ _ => true) = none →
    exec (.domDestroy h dom ten) s = .next (s.withDie
      (((d.setDomStat dom (3, 0, 7)).sweepFor dom none false (.domDestroy h dom ten)).interim h 0x0603))) ∧
  (∀ (s : State) (h : Hdr) (d : Die) (dom : Nat) (members : List Nat), s.takesLong h 0x0604 [.f] (3 + 2 * members.length) d →
    dom ≤ 63 → (d.domStat dom).1 ≠ 0 → d.domDown dom = true → d.rebuilding dom = false → members.length ≤ 6 →
    d.membersBad dom 19 members = none → d.rebuildFull dom members = none →
    d.keyShared (((d.members dom).map Prod.snd ++ members).eraseDups) (fun t u => !(members.contains t && members.contains u)) = none →
    exec (.domRebuild h dom members) s = .next (s.withDie
      ((d.sweepFor dom none true (.domRebuild h dom members)).interim h 0x0604))) ∧
  (∀ (s : State) (h : Hdr) (d : Die) (dom owner bay e : Nat) (list : List (Nat × Nat)),
    s.takes h 0x0605 [.f] (7 + 4 * list.length) d → d.needUp dom = none →
    (d.members dom).any (fun (m : Nat × Nat) => decide (m.2 = owner)) = true → d.bayEntry owner bay = some e →
    let others := (d.members dom ++ d.joining dom).filter fun (m : Nat × Nat) => decide (m.2 ≠ owner)
    (∀ i < list.length, others.any (fun (m : Nat × Nat) => decide (m.2 = (list.getD i (0, 0)).1)) = true ∧
      (list.take i).any (fun (x : Nat × Nat) => decide (x.1 = (list.getD i (0, 0)).1)) = false ∧
      (d.takeIndices (list.getD i (0, 0)).1 (25 + 4 * i) 0 false [(list.getD i (0, 0)).2]).2 = none) →
    list.length = others.length → (d.bt e).st = .live → (d.bt e).inDom = false → d.holdsRing e = false →
    d.holdsLog e none = false → d.classBars e = false → d.tenRunning owner = false →
    let c : Instr := .domAddBay h dom owner (e - d.segBase owner) list
    let b1 : Bt := { (d.bt e) with inDom := true, dom := dom }
    exec (.domAddBay h dom owner bay list) s = .next (s.withDie (d.domCommits c ((e, b1, true) ::
      list.map fun x => ((d.futureSeg x.1).1 + x.2, { b1 with ten := x.1 }, false)) []))) ∧
  (∀ (s : State) (h : Hdr) (d : Die) (dom : Nat), s.takes h 0x0606 [.f] 1 d → dom ≤ 63 →
    exec (.domQuery h dom) s = .next (s.withDie (d.ok h 0x0606
      ([(4, (d.domCfg dom).toNat), (4, (d.act (R.cha0DomTena dom)).toNat), (4, (d.act (R.cha0DomTenb dom)).toNat),
        (4, (d.domStatWord dom).toNat)] ++ payList 2 (d.domBays dom)))))

/-- Job queues: Q_SETUP requests the commit of the four queue registers, Q_RESTART runs a queue again, Q_DISABLE disables it at
once or when its job ends, Q_QUERY answers; a doorbell writes the tail. -/
def Obligations.QueueCommandsComplete : Prop :=
  (∀ (s : State) (h : Hdr) (d : Die) (q cfg key sq cq : Nat), s.takes h 0x0700 [.f] 17 d → q ≤ 63 →
    firstRsv [(17, R.cjeQcfg q, cfg), (21, R.cjeQkey q, key), (25, R.cjeQsq q, sq), (29, R.cjeQcq q, cq)] = none →
    (d.job q).st = 0 →
    let ten := if bit (BitVec.ofNat 32 cfg) 28 then some (fld (BitVec.ofNat 32 cfg) 9 0) else none
    ten.any (fun t => decide ((d.ten t).st = .free)) = false → d.jobKeyOk ten key = true → d.live? key = true →
    exec (.qSetup h q cfg key sq cq) s = .next (s.withDie (d.commitFor .cje (.qSetup h q cfg key sq cq)
      [(R.cjeQcfg q, cfg), (R.cjeQkey q, key), (R.cjeQsq q, sq), (R.cjeQcq q, cq)]))) ∧
  (∀ (s : State) (h : Hdr) (d : Die) (q : Nat), s.takes h 0x0701 [.f, .t] 1 d → q ≤ 63 →
    (d.asTenant h 0x0701 = true → d.jobTen q = some (hdrTen h)) → (d.job q).st ≠ 0 →
    exec (.qRestart h q) s = .next (s.withDie ((d.setJob q { (d.job q) with st := 1 }).ok h 0x0701 []))) ∧
  (∀ (s : State) (h : Hdr) (d : Die) (q : Nat), s.takesLong h 0x0702 [.f] 1 d → q ≤ 63 → (d.job q).st ≠ 0 →
    (d.job q).disabling = none → (d.job q).job ≠ none →
    exec (.qDisable h q) s = .next (s.withDie ((d.setJob q { (d.job q) with disabling := some h }).interim h 0x0702))) ∧
  (∀ (s : State) (h : Hdr) (d : Die) (q : Nat), s.takesLong h 0x0702 [.f] 1 d → q ≤ 63 → (d.job q).st ≠ 0 →
    (d.job q).disabling = none → (d.job q).job = none →
    let d1 := (d.setJob q { (d.job q) with st := 2 }).interim h 0x0702
    exec (.qDisable h q) s = .next (s.withDie
      (d1.commitFor .cje (.qDisable h q) [(R.cjeQcfg q, (setFld (d1.qcfg q) 31 31 0).toNat)]))) ∧
  (∀ (s : State) (h : Hdr) (d : Die) (q : Nat), s.takesLong h 0x0702 [.f] 1 d → q ≤ 63 → (d.job q).st = 0 →
    exec (.qDisable h q) s = .next (s.withDie (d.ok h 0x0702 []))) ∧
  (∀ (s : State) (h : Hdr) (d : Die) (q : Nat), s.takes h 0x0703 [.f, .t] 1 d → q ≤ 63 →
    (d.asTenant h 0x0703 = true → d.jobTen q = some (hdrTen h)) →
    exec (.qQuery h q) s = .next (s.withDie (d.ok h 0x0703 [(4, (d.qcfg q).toNat), (4, (d.qStat q).toNat)]))) ∧
  (∀ (s : State) (src : Src) (q tail : Nat), s.window src = true → q < 64 →
    (∀ t, s.die.active.memWake.jobTen q = some t → src.master < 6 → s.die.active.memWake.tenPort t = src.port) →
    exec (.jobDoorbell src q tail) s =
      .next (s.withDie (s.die.active.memWake.regW (R.cjeDb q) (BitVec.ofNat 32 (tail % 4096)))))

/-! ## Packet commands: power, faults, telemetry (R471, R478, R509, R519, R525–R545, R400) -/

/-- PWR_LEVEL and PWR_SLEEP: a request that finds both slots free and no secure hold enters the in-flight slot; otherwise it is
placed as R469–R476 say. PWR_QUERY answers. TEL_CFG, PMU_SELECT and TEL_WINDOW request the commit of the registers they write;
PMU_READ and DIMM_QUERY answer. -/
def Obligations.PowerAndTelemetryCommandsComplete : Prop :=
  (∀ (s : State) (h : Hdr) (d : Die) (level : Nat), s.takes h 0x0800 [.f] 1 d → level ≤ 3 → d.levelOk level = true →
    exec (.pwrLevel h level) s = .next (s.withDie ((d.placeRequest { code := level + 1, mask := 0 }).2.answer h 0x0800
      (d.placeRequest { code := level + 1, mask := 0 }).1 0 [(1, d.pwr.level)]))) ∧
  (∀ (s : State) (h : Hdr) (d : Die) (state mask : Nat), s.takes h 0x0801 [.f] 5 d → state ≠ 0 → state ≤ 3 → mask < 65536 →
    (state = 3 → d.anyDomainUp = false) →
    exec (.pwrSleep h state mask) s = .next (s.withDie ((d.placeRequest { code := state + 4, mask := mask }).2.answer h 0x0801
      (d.placeRequest { code := state + 4, mask := mask }).1 0 []))) ∧
  (∀ (d : Die) (r : PwrReq), d.pwr.inflight = none → d.pwr.pending = none → d.secureHolds r.code = false →
    d.placeRequest r = (St.success, d.enterSlot r)) ∧
  (∀ (s : State) (h : Hdr) (d : Die), s.takes h 0x0802 [.f, .k] 0 d →
    exec (.pwrQuery h) s = .next (s.withDie (d.ok h 0x0802
      ([(1, d.pwr.level)] ++ ([0, 4, 5, 6].map fun k => (8, Tbl.get 0 d.pwr.res k)) ++ [(4, d.pwr.lastWake)])))) ∧
  (∀ (s : State) (h : Hdr) (d : Die) (entry period : Nat), s.takes h 0x0a00 [.f] 3 d → entry ≤ 16383 →
    (period ≠ 0 → d.plainEntry entry = true ∧ 10 ≤ period ∧ period ≤ 24) →
    exec (.telCfg h entry period) s = .next (s.withDie ((d.regWake R.pmuCommit).commitFor .pmu (.telCfg h entry period)
      [(R.pmuTelCfg, (if period = 0 then 0 else 2 ^ 31) + period * 2 ^ 16 + entry)]))) ∧
  (∀ (s : State) (h : Hdr) (d : Die) (ctr event chain : Nat), s.takes h 0x0a01 [.f] 7 d → ctr ≤ 511 →
    fld (BitVec.ofNat 32 event) 15 12 = 0 → selOk (BitVec.ofNat 32 event) = true → (chain = 0 ∨ (chain = 1 ∧ ctr % 2 = 0)) →
    let o := R.pmuChain (ctr / 64)
    let b := ctr / 2 % 32
    exec (.pmuSelect h ctr event chain) s = .next (s.withDie ((d.regWake o).commitFor .pmu (.pmuSelect h ctr event chain)
      [(R.pmuSel ctr, event), (o, (setFld (d.future o) b b chain).toNat)]))) ∧
  (∀ (s : State) (h : Hdr) (d : Die) (ten allow : Nat), s.takes h 0x0a02 [.f] 3 d → ten ≤ 1023 → (d.ten ten).st ≠ .free →
    allow ≤ 1 →
    let o := R.pmuWindow (ten / 32)
    let b := ten % 32
    exec (.telWindow h ten allow) s = .next (s.withDie ((d.regWake o).commitFor .pmu (.telWindow h ten allow)
      [(o, (setFld (d.future o) b b allow).toNat)]))) ∧
  (∀ (s : State) (h : Hdr) (d : Die) (first count : Nat), s.takes h 0x0a03 [.f, .t] 4 d → first ≤ 511 → count ≤ 256 →
    first + count ≤ 512 → (d.asTenant h 0x0a03 = true → (range' first count).all (d.openTo (hdrTen h)) = true) →
    exec (.pmuRead h first count) s = .next (s.withDie
      ((d.regWake R.pmuCommit).ok h 0x0a03 ((range' first count).map fun k => (8, d.pmuVal k))))) ∧
  (∀ (s : State) (h : Hdr) (d : Die) (ch : Nat), s.takes h 0x0a04 [.f, .k] 1 d → ch ≤ 15 →
    exec (.dimmQuery h ch) s = .next (s.withDie ((d.regWake R.pmuCommit).ok h 0x0a04
      ([2 * ch, 2 * ch + 1].flatMap fun n => [(1, (d.dimm n).temp), (4, (d.dimm n).word)]))))

/-- FLT_GET returns the records asked for, FLT_CLEAR clears every latch or one unit's, FLT_INJECT records an injected fault in a
debug world that allows it, CH_READMIT starts the readmission of an excluded channel. -/
def Obligations.FaultCommandsComplete : Prop :=
  (∀ (s : State) (h : Hdr) (d : Die) (unit max : Nat), s.takes h 0x0900 [.f, .k] 4 d → (unit = 0xffff ∨ unitOk unit = true) →
    let us := if unit = 0xffff then (List.range 0xf9).filter unitOk else [unit]
    let rs := (us.flatMap d.recordsOf).take (min max ((payMax h.via - 2) / 32))
    exec (.fltGet h unit max) s = .next (s.withDie (d.ok h 0x0900 ((2, rs.length) :: rs.flatMap Rec.pay)))) ∧
  (∀ (s : State) (h : Hdr) (d : Die), s.takes h 0x0901 [.f, .k] 2 d →
    exec (.fltClear h 0xffff) s =
      .next (s.withDie ({ d with flt := { d.flt with lat := [], hq := [] } }.ok h 0x0901 []))) ∧
  (∀ (s : State) (h : Hdr) (d : Die) (unit : Nat), s.takes h 0x0901 [.f, .k] 2 d → unit ≠ 0xffff → unitOk unit = true →
    exec (.fltClear h unit) s = .next (s.withDie ((d.fltClear unit).ok h 0x0901 []))) ∧
  (∀ (s : State) (h : Hdr) (d : Die) (unit kind : Nat), s.takes h 0x0902 [.f] 4 d → d.dbg.ni = true → unitOk unit = true →
    notInjected kind = false → (codesOf unit).contains kind = true →
    exec (.fltInject h unit kind) s = .next (s.withDie
      ((((d.count R.fltInjCount 1).record unit kind (classOf kind) 0xff 0xffff 0 0 true).injectedToo kind).ok h 0x0902 []))) ∧
  (∀ (s : State) (h : Hdr) (d : Die) (ch : Nat), s.takesLong h 0x0904 [.f] 1 d → ch ≤ 15 → (d.chan ch).excluded = true →
    (d.chan ch).atStart = false → (d.chan ch).readmitCmd = none → (d.chan ch).readmit = false →
    exec (.chReadmit h ch) s = .next (s.withDie
      ((d.setChan ch { (d.chan ch) with readmitCmd := some h }).interim h 0x0904))) ∧
  (∀ (s : State) (ch : Nat) (h : Hdr), s.runs = true → (s.die.chan ch).readmitCmd = some h → (s.die.chan ch).readmit = false →
    exec (.channelReadmitDone ch true) s =
      .next (s.withDie (s.die.setChan ch { (s.die.chan ch) with readmit := true }))) ∧
  (∀ (s : State) (ch : Nat) (h : Hdr), s.runs = true → (s.die.chan ch).readmitCmd = some h → (s.die.chan ch).readmit = false →
    exec (.channelReadmitDone ch false) s =
      .next (s.withDie ((s.die.setChan ch { (s.die.chan ch) with readmitCmd := none }).ok h 0x0904 [])))


/-! ## Packet commands: firmware, keep store, debug, deadbolt (R403–R408, R418–R426, R553–R562, R400) -/

/-- Firmware and the keep store: FW_INFO answers, FW_WRITE writes the image that is not running and marks it unverified,
FW_VERIFY marks an image that verifies, FW_SELECT stores the choice, KEEP_READ answers, KEEP_WRITE queues a write that
KEEP_WRITE_DONE ends, DEVICE_RESTART answers and starts again from step 1. -/
def Obligations.FirmwareAndKeepCommandsComplete : Prop :=
  (∀ (s : State) (h : Hdr) (d : Die), s.takes h 0x0b00 [.f, .k] 0 d →
    exec (.fwInfo h) s = .next (s.withDie (d.ok h 0x0b00
      [(4, d.imageVersion 0), (4, d.imageVersion 1), (1, d.boot.image), (4, (d.keep 0).toNat)]))) ∧
  (∀ (s : State) (h : Hdr) (d : Die) (image offset : Nat) (data : List Byte), s.takes h 0x0b01 [.k] (5 + data.length) d →
    image ≤ 1 → offset + data.length ≤ 0x300000 → image ≠ d.boot.image →
    let fl := ((List.range data.length).zip data).foldl
      (fun (f : Tbl Nat) x => f.insert (imageBase image + offset + x.1) x.2.toNat) d.boot.flash
    exec (.fwWrite h image offset data) s = .next (s.withDie
      ({ d with boot := { d.boot with flash := fl, verified := d.boot.verified.filter (· ≠ image) } }.ok h 0x0b01 []))) ∧
  (∀ (s : State) (h : Hdr) (d : Die) (image : Nat), s.takesLong h 0x0b02 [.k] 1 d → image ≤ 1 →
    let d1 := d.interim h 0x0b02
    exec (.fwVerify h image) s = .next (s.withDie (if d.imageVerifies image then
      { d1 with boot := { d1.boot with verified := (image :: d1.boot.verified).eraseDups } }.ok h 0x0b02
        [(4, d.imageVersion image)]
      else d1.fail h 0x0b02 St.imageBad 0))) ∧
  (∀ (s : State) (h : Hdr) (d : Die) (image : Nat), s.takes h 0x0b03 [.k] 1 d → image ≤ 1 →
    d.boot.verified.contains image = true →
    exec (.fwSelect h image) s = .next (s.withDie ((d.keepFld 3 0 0 image).ok h 0x0b03 []))) ∧
  (∀ (s : State) (h : Hdr) (d : Die) (first count : Nat), s.takes h 0x0b04 [.f, .k] 4 d → first ≤ 1023 → count ≤ 256 →
    first + count ≤ 1024 → first + count ≤ d.keepSecBase →
    exec (.keepRead h first count) s = .next (s.withDie
      (d.ok h 0x0b04 ((range' first count).flatMap fun k => [(4, (d.keep k).toNat), (4, Tbl.get 0 d.kps.wear k)])))) ∧
  (∀ (s : State) (h : Hdr) (d : Die) (k value : Nat), s.takes h 0x0b05 [.f, .k] 6 d → k ≤ 1023 → k < d.keepSecBase →
    keepMarked k = true → keepRsvOk k (BitVec.ofNat 32 value) = true →
    (k = 3 → bit (BitVec.ofNat 32 value) 0 = bit (d.keep 3) 0) →
    exec (.keepWrite h k value) s = .next (s.withDie
      { d with kps := { d.kps with queue := d.kps.queue ++ [{ k := k, v := BitVec.ofNat 32 value, hdr := some h }] } })) ∧
  (∀ (s : State) (w : KeepWr) (rest : List KeepWr), s.runs = true → s.die.kps.queue = w :: rest → w.hdr = none →
    exec .keepWriteDone s = .next (s.withDie
      ({ s.die with kps := { s.die.kps with queue := rest } }.keepWrite w.k w.v))) ∧
  (∀ (s : State) (w : KeepWr) (rest : List KeepWr) (h : Hdr), s.runs = true → s.die.kps.queue = w :: rest → w.hdr = some h →
    exec .keepWriteDone s = .next (s.withDie
      (({ s.die with kps := { s.die.kps with queue := rest } }.keepWrite w.k w.v).answer h 0x0b05
        (if !s.die.kps.bad.contains w.k && decide (wearMax ≤ Tbl.get 0 s.die.kps.wear w.k) then St.keepWorn else St.success) 0 []))) ∧
  (∀ (s : State) (h : Hdr) (d : Die), s.takes h 0x0b06 [.k] 0 d →
    exec (.deviceRestart h) s = .next (s.withDie ((d.ok h 0x0b06 []).restart false)))

/-- Debug commands: DBG_NORMAL asks for the normal world's debug state at the next boundary within the policy, DBG_BIND binds or
unbinds a tenancy, DBG_QUERY answers DBG_STAT[3:0]. -/
def Obligations.DebugCommandsComplete : Prop :=
  (∀ (s : State) (h : Hdr) (d : Die) (invasive peephole : Nat), s.takes h 0x0c00 [.f] 2 d → invasive ≤ 1 → peephole ≤ 1 →
    (invasive = 1 → bit (d.regR R.mulDbgPolicy) 1 = true) → (invasive = 1 ∨ peephole = 1 → bit (d.regR R.mulDbgPolicy) 0 = true) →
    exec (.dbgNormal h invasive peephole) s = .next (s.withDie
      ({ d with dbg := { d.dbg with next := some (decide (invasive = 1), decide (peephole = 1)) } }.ok h 0x0c00 []))) ∧
  (∀ (s : State) (h : Hdr) (d : Die), s.takes h 0x0c01 [.f] 2 d →
    exec (.dbgBind h 0xffff) s = .next (s.withDie ((d.regW R.dbgBind 0).ok h 0x0c01 []))) ∧
  (∀ (s : State) (h : Hdr) (d : Die) (ten : Nat), s.takes h 0x0c01 [.f] 2 d → ten ≤ 1023 → (d.ten ten).st ≠ .free →
    exec (.dbgBind h ten) s = .next (s.withDie ((d.regW R.dbgBind (BitVec.ofNat 32 (2 ^ 31 + ten))).ok h 0x0c01 []))) ∧
  (∀ (s : State) (h : Hdr) (d : Die), s.takes h 0x0c02 [.f, .k, .s] 0 d →
    exec (.dbgQuery h) s = .next (s.withDie (d.ok h 0x0c02 [(4, fld d.dbgStat 3 0)])))

/-- The deadbolt: a keeper's claim waits for the steward's; the steward's claim on the same port in time makes the device owned;
a proposal of an owned device draws its nonce and is kept; DBL_GET answers it; a party's right signature is kept and the second
one sets the commit two transoms on; DBL_WITHDRAW closes it; DBL_STATUS lists the open ones; a claim whose time is over is
dropped. -/
def Obligations.DeadboltCommandsComplete : Prop :=
  (∀ (s : State) (h : Hdr) (d : Die) (secret port eid : Nat) (sess : Bool), h.via = .mctp eid sess → s.takes h 0x0d00 [.k, .s] 49 d →
    d.dbl.owned = false → port ≤ 5 →
    exec (.dblClaim h secret port) s = .next (s.withDie
      ((d.setDbl { d.dbl with claim := some { eid := eid, secret := secret % 2 ^ 384, port := port, time := d.time } }).ok h 0x0d00 []))) ∧
  (∀ (s : State) (h : Hdr) (d : Die) (secret port p : Nat) (c : Claim), h.via = .steward p → s.takes h 0x0d00 [.k, .s] 48 d →
    d.dbl.owned = false → d.claimNow = some c → c.port = p →
    let d1 := (d.storeSecret 1 c.secret).storeSecret 2 (secret % 2 ^ 384)
    exec (.dblClaim h secret port) s = .next (s.withDie
      (((d1.setDbl { d1.dbl with owned := true, port := p, eid := c.eid, changes := 0, claim := none }).keepDbl).ok h 0x0d00 []))) ∧
  (∀ (s : State), s.runs = true → s.die.claimNow = none →
    exec .claimTimeout s = .next (s.withDie (s.die.setDbl { s.die.dbl with claim := none }))) ∧
  (∀ (s : State) (h : Hdr) (d0 : Die) (kind : Nat) (body : List Byte), s.takes h 0x0d01 [.k, .s] (2 + body.length) d0 →
    let d := d0.expireProps
    let b := body.map fun x => x.toNat
    d.dbl.owned = true → d.bodyBad kind b = none → d.dbl.props.any (fun (p : Proposal) => decide (p.kind = kind)) = false →
    d.dbl.props.length < 4 →
    let id := d.dbl.nextId
    let head := d.propHead kind (partyOf h.via) id (Config.random d.draws % 2 ^ 128) b.length
    let p : Proposal := { id := id, kind := kind, proposer := partyOf h.via, time := d.time, head := head, body := b,
                          keeperSigned := false, stewardSigned := false, bad := 0, commit := none }
    let d1 : Die := { d with draws := d.draws + 1 }
    exec (.dblPropose h kind body) s = .next (s.withDie
      ((d1.setDbl { d.dbl with nextId := (id + 1) % 2 ^ 32, props := d.dbl.props ++ [p] }).ok h 0x0d01
        [(4, id), bytesPay head, bytesPay p.digest, (8, d.time + dblWindow)]))) ∧
  (∀ (s : State) (h : Hdr) (d : Die) (id : Nat) (p : Proposal), s.takes h 0x0d02 [.k, .s] 4 d →
    d.expireProps.dbl.props.find? (fun (p : Proposal) => decide (p.id = id)) = some p →
    exec (.dblGet h id) s = .next (s.withDie (d.expireProps.ok h 0x0d02
      [bytesPay p.head, bytesPay p.body, bytesPay p.digest, (1, b2n p.keeperSigned + 2 * b2n p.stewardSigned)]))) ∧
  (∀ (s : State) (h : Hdr) (d : Die) (id hmac : Nat) (p : Proposal), s.takes h 0x0d03 [.k, .s] 52 d →
    d.expireProps.dbl.props.find? (fun (p : Proposal) => decide (p.id = id)) = some p → p.commit = none →
    p.keeperSigned = false → p.stewardSigned = false → hmac % 2 ^ 384 = d.expireProps.signature p (partyOf h.via) →
    exec (.dblSign h id hmac) s = .next (s.withDie ((d.expireProps.setProp
      { p with keeperSigned := decide (partyOf h.via = 1), stewardSigned := decide (partyOf h.via = 2) }).ok h 0x0d03 [(1, 0), (8, 0)]))) ∧
  (∀ (s : State) (h : Hdr) (d : Die) (id hmac : Nat) (p : Proposal), s.takes h 0x0d03 [.k, .s] 52 d →
    d.expireProps.dbl.props.find? (fun (p : Proposal) => decide (p.id = id)) = some p → p.commit = none →
    p.keeperSigned = decide (partyOf h.via = 2) → p.stewardSigned = decide (partyOf h.via = 1) →
    hmac % 2 ^ 384 = d.expireProps.signature p (partyOf h.via) → d.expireProps.bodyBad p.kind p.body = none →
    exec (.dblSign h id hmac) s = .next (s.withDie ((d.expireProps.setProp
      { p with keeperSigned := true, stewardSigned := true, commit := some (d.expireProps.transom + 2) }).ok h 0x0d03
        [(1, 1), (8, d.expireProps.transom + 2)]))) ∧
  (∀ (s : State) (h : Hdr) (d : Die) (id : Nat) (p : Proposal), s.takes h 0x0d04 [.k, .s] 4 d →
    d.expireProps.dbl.props.find? (fun (p : Proposal) => decide (p.id = id)) = some p → p.commit = none →
    exec (.dblWithdraw h id) s = .next (s.withDie ((d.expireProps.closeProp p.id St.deadboltCancelled).ok h 0x0d04 []))) ∧
  (∀ (s : State) (h : Hdr) (d : Die), s.takes h 0x0d05 [.f, .k, .s, .t] 0 d →
    exec (.dblStatus h) s = .next (s.withDie (d.expireProps.ok h 0x0d05
      ((4, d.expireProps.dblStat.toNat) :: payList 4 (d.expireProps.dbl.props.map fun (p : Proposal) => p.id)))))

/-! ## CXL device commands and SPDM (R44, R62–R66, R273, R404) -/

/-- The CXL device commands: each answers Success with what the device states; SET_TIMESTAMP stores the stamp; poison commands
act on a LIVE line; Sanitize and Secure Erase of an LD with nothing to retire succeed at once, and otherwise start the
retirements as the mailbox's background command. -/
def Obligations.CxlDeviceCommandsComplete : Prop :=
  (∀ (s : State) (p ld : Nat), s.takesMailbox p ld = true →
    exec (.identify p ld) s = .next (s.withDie (s.die.active.cxlAnswer p ld 0x4000 [])) ∧
    exec (.getHealthInfo p ld) s = .next (s.withDie (s.die.active.cxlAnswer p ld 0x4200 [])) ∧
    exec (.getTimestamp p ld) s = .next (s.withDie
      (s.die.active.emit (.cxl p ld 0x0300 cxlSuccess 0 [(8, s.die.active.cxlTime (p * 32 + ld))])))) ∧
  (∀ (s : State) (p ld value : Nat), s.takesMailbox p ld = true →
    let d := s.die.active
    exec (.setTimestamp p ld value) s = .next (s.withDie
      ({ d with cxl := { d.cxl with stamp := d.cxl.stamp.insert (p * 32 + ld) (value, d.time) } }.emit
        (.cxl p ld 0x0301 cxlSuccess 0 [])))) ∧
  (∀ (s : State) (p ld ta lines t : Nat), s.takesMailbox p ld = true → s.die.active.ldTen p ld = some t →
    exec (.getPoisonList p ld ta lines) s = .next (s.withDie (s.die.active.cxlAnswer p ld 0x4300 (payList 8
      ((s.die.active.cxl.poison.filter fun (x : Nat × Nat) =>
        decide (x.1 = t) && decide (ta ≤ x.2) && decide (x.2 < ta + 64 * lines)).map Prod.snd))))) ∧
  (∀ (s : State) (p ld ta t e dla : Nat) (d1 : Die), s.takesMailbox p ld = true → s.die.active.dbg.ni = true →
    s.die.active.flt.doorstop = false → s.die.active.ldLine p ld ta = some (t, e, dla) →
    s.die.active.poisonLine e dla = some d1 →
    let x := (t, ta / 64 * 64)
    let l := if d1.cxl.poison.contains x then d1.cxl.poison else x :: d1.cxl.poison
    exec (.injectPoison p ld ta) s = .next (s.withDie
      ({ d1 with cxl := { d1.cxl with poison := l } }.emit (.cxl p ld 0x4301 cxlSuccess 0 [])))) ∧
  (∀ (s : State) (p ld ta t e dla : Nat) (data : Line), s.takesMailbox p ld = true → s.die.active.flt.doorstop = false →
    s.die.active.ldLine p ld ta = some (t, e, dla) →
    let d1 := (s.die.active.logPage t (ta / 4096)).homeStore dla data (s.die.active.remap (bayOf dla) (s.die.active.bt e).defKey).1 p
    let l := d1.cxl.poison.filter fun (y : Nat × Nat) => decide (y ≠ (t, ta / 64 * 64))
    exec (.clearPoison p ld ta data) s = .next (s.withDie
      ({ d1 with cxl := { d1.cxl with poison := l } }.emit (.cxl p ld 0x4302 cxlSuccess 0 [])))) ∧
  (∀ (s : State) (p ld : Nat), s.takesMailbox p ld = true → s.die.active.flt.doorstop = false →
    s.die.active.mailboxBusy (if s.die.active.mldPort p then .ldMailbox p ld else .mailbox p) = false →
    (∀ t, s.die.active.ldTen p ld = some t →
      exec (.sanitize p ld) s = .next (s.withDie (s.die.active.sanitizeTen p ld 0x4400 t)) ∧
      exec (.secureErase p ld) s = .next (s.withDie (s.die.active.sanitizeTen p ld 0x4401 t))) ∧
    (s.die.active.ldTen p ld = none →
      exec (.sanitize p ld) s = .next (s.withDie (s.die.active.emit (.cxl p ld 0x4400 cxlSuccess 0 []))) ∧
      exec (.secureErase p ld) s = .next (s.withDie (s.die.active.emit (.cxl p ld 0x4401 cxlSuccess 0 []))))) ∧
  (∀ (s : State) (p : Nat), s.takesMailbox p 0 = true → s.die.active.mldPort p = true →
    exec (.getLdInfo p) s = .next (s.withDie (s.die.active.cxlAnswer p 31 0x5400 [(2, (s.die.active.port p).ldCount)])) ∧
    exec (.getLdAllocations p) s = .next (s.withDie (s.die.active.cxlAnswer p 31 0x5401 [(1, (s.die.active.port p).ldCount)]))) ∧
  (∀ (s : State) (p : Nat), s.takesMailbox p 0 = true →
    exec (.setLdAllocations p) s = .next (s.withDie (s.die.active.emit (.cxl p 31 0x5402 cxlUnsupported 0 []))) ∧
    exec (.getMhdInfo p) s = .next (s.withDie (s.die.active.cxlAnswer p 31 0x5500 [(1, 6)])))

/-- SPDM: certificates, challenge and measurements are answered; KEY_EXCHANGE opens a session while fewer than two stand; FINISH
that verifies establishes it, one that fails ends it; KEY_UPDATE, HEARTBEAT and IDE_KM act inside an established session; a PSK
exchange is refused. -/
def Obligations.SpdmRequestsComplete : Prop :=
  (∀ (s : State) (ch : SpdmCh) (slot nonce : Nat), s.takesSpdm ch = true → slot < 8 →
    exec (.getCertificate ch slot) s = .next (s.withDie ((s.die.spdmIn ch).spdmAnswer ch spdmCertificate)) ∧
    exec (.challenge ch slot nonce) s = .next (s.withDie ((s.die.spdmIn ch).spdmAnswer ch spdmChallengeAuth)) ∧
    exec (.getMeasurements ch nonce) s = .next (s.withDie ((s.die.spdmIn ch).spdmAnswer ch spdmMeasurements))) ∧
  (∀ (s : State) (ch : SpdmCh) (mutualAuth : Bool), s.takesSpdm ch = true → ((s.die.spdmIn ch).sessionsOf ch).length < 2 →
    let d := (s.die.spdmIn ch)
    let n : Session := { id := d.cxl.nextSession, mutualAuth := mutualAuth, established := false, keys := 0 }
    exec (.keyExchange ch mutualAuth) s = .next (s.withDie
      (({ d with cxl := { d.cxl with nextSession := d.cxl.nextSession + 1 } }.setSessions ch (d.sessionsOf ch ++ [n])).spdmAnswer
        ch spdmKeyExchangeRsp))) ∧
  (∀ (s : State) (ch : SpdmCh) (session : Nat) (x : Session), s.takesSpdm ch = true →
    ((s.die.spdmIn ch).sessionsOf ch).find? (fun (x : Session) => decide (x.id = session) && !x.established) = some x →
    exec (.finish ch session true) s = .next (s.withDie (((s.die.spdmIn ch).setSessions ch (((s.die.spdmIn ch).sessionsOf ch).map
      fun (x : Session) => if x.id = session then { x with established := true } else x)).spdmAnswer ch spdmFinishRsp)) ∧
    exec (.finish ch session false) s = .next (s.withDie (((s.die.spdmIn ch).setSessions ch (((s.die.spdmIn ch).sessionsOf ch).filter
      fun (x : Session) => decide (x.id ≠ session))).spdmErr ch errDecrypt))) ∧
  (∀ (s : State) (ch : SpdmCh) (session : Nat), s.takesSpdm ch = true → (s.die.spdmIn ch).sessionUp ch session = true →
    exec (.keyUpdate ch session) s = .next (s.withDie (((s.die.spdmIn ch).setSessions ch (((s.die.spdmIn ch).sessionsOf ch).map
      fun (x : Session) => if x.id = session then { x with keys := x.keys + 1 } else x)).spdmAnswer ch spdmKeyUpdateAck)) ∧
    exec (.heartbeat ch session) s = .next (s.withDie ((s.die.spdmIn ch).spdmAnswer ch spdmHeartbeatAck))) ∧
  (∀ (s : State) (ch : SpdmCh), s.takesSpdm ch = true →
    exec (.pskExchange ch) s = .next (s.withDie ((s.die.spdmIn ch).spdmErr ch errUnsupported))) ∧
  (∀ (s : State) (p session : Nat) (msg : IdeMsg), s.takesSpdm (.doe p) = true → s.die.active.sessionUp (.doe p) session = true →
    exec (.ideKm p session msg) s = .next (s.withDie
      ((s.die.active.setPort p ((s.die.active.port p).ide msg)).spdmAnswer (.doe p) (ideAck msg))))

/-! ## Registers and configuration space (R38–R49, R104–R112, R397, R402, R409–R412, R426) -/

/-- Register accesses: GO requests a commit, a ring tail and a doorbell take their value (the device reads
the next entry of the ring), a write goes by size, a latching read
gives LO and latches HI, a secure-window access acts by its source's world, JTAG acts with its enables. Configuration space: a
request is answered; FCX REQUEST before Mem_Enable is granted where the port allows it; Mem_Enable sets the LD's bit and fixes the
port's mode at its first setting. -/
def Obligations.RegisterAndConfigurationAccessesComplete : Prop :=
  (∀ (s : State) (src : Src) (g : Group), s.window src = true → (s.die.regWake (Group.commitReg g)).mayWrite src = true →
    exec (.commitGo src g) s = .next (s.withDie ((s.die.regWake (Group.commitReg g)).writeGo g))) ∧
  (∀ (s : State) (src : Src) (k tail : Nat), s.window src = true → k < 8 → (s.die.active.ring k).valid = true →
    (src.master < 6 → (s.die.active.ring k).port = src.port) →
    exec (.ringTailWrite src k tail) s = .next (s.withDie
      ((s.die.active.setRing k { (s.die.active.ring k) with tail := tail % 2 ^ (s.die.active.ring k).log2 }).ringAsk k))) ∧
  (∀ (s : State) (src : Src) (offset value : Nat), s.window src = true → offset < 0x1000000 → offset % 4 = 0 →
    (src.jtag = true → s.die.mayWrite src = true) →
    exec (.registerWrite src offset 4 value) s =
      .next (s.withDie ((s.die.regWake offset).write4 src (srcSecure src) offset (value % 2 ^ 32)))) ∧
  (∀ (s : State) (src : Src) (offset value : Nat), s.window src = true → offset < 0x1000000 → offset % 8 = 0 →
    (src.jtag = true → s.die.mayWrite src = true) →
    exec (.registerWrite src offset 8 value) s = .next (s.withDie
      (((s.die.regWake offset).write4 src (srcSecure src) offset (word value 0)).write4 src (srcSecure src) (offset + 4)
        (word value 1)))) ∧
  (∀ (s : State) (src : Src) (offset size value : Nat), s.window src = true → offset < 0x1000000 →
    ¬(size = 4 ∧ offset % 4 = 0) → ¬(size = 8 ∧ offset % 8 = 0) → (src.jtag = true → s.die.mayWrite src = true) →
    exec (.registerWrite src offset size value) s = .next (s.withDie
      (if inSecureWindow offset && !srcSecure src then (s.die.regWake offset).windowDeny src offset true
       else (s.die.regWake offset).rejectWrite src offset))) ∧
  (∀ (s : State) (src : Src) (offset value : Nat), s.window src = true → inSecureWindow offset = true → offset % 4 = 0 →
    exec (.secureWindowAccess src offset true value) s =
      .next (s.withDie (s.die.active.write4 src (srcSecure src) offset (value % 2 ^ 32))) ∧
    exec (.secureWindowAccess src offset false value) s = .next (s.withDie
      ((s.die.active.readReg src (srcSecure src) offset).2.emit
        (.regData src offset (s.die.active.readReg src (srcSecure src) offset).1)))) ∧
  (∀ (s : State) (src : Src) (p : LatchPair) (lo v : Nat), s.window src = true → s.die.latchPair p = some (lo, v) →
    exec (.latchingRead src p) s = .next (s.withDie (((s.die.regWake lo).emit (.regData src lo (word v 0))).latchHi p))) ∧
  (∀ (s : State) (src : Src) (offset size value : Nat), s.runs = true → s.die.ldBar src = true →
    exec (.registerWrite src offset size value) s = .next (s.withDie (s.die.ldWrite src offset size value))) ∧
  (∀ (s : State) (src : Src) (p : LatchPair), s.runs = true → s.die.ldBar src = true →
    exec (.latchingRead src p) s = .next (s.withDie (s.die.ldRead src (ldPlace p)))) ∧
  (∀ (s : State) (offset value : Nat) (sec : Bool), s.runs = true → offset % 4 = 0 → offset < 0x1000000 →
    inSecureWindow offset = false → s.die.dbg.ni = true →
    exec (.jtagAccess offset sec true value) s = .next (s.withDie (if Config.jtagLock then s.die
      else (s.die.regWake offset).write4 (jtagSrc (sec && s.die.dbg.si)) (sec && s.die.dbg.si) offset (value % 2 ^ 32)))) ∧
  (∀ (s : State) (offset value : Nat) (sec : Bool), s.runs = true → offset % 4 = 0 → offset < 0x1000000 →
    inSecureWindow offset = false → s.die.np = true →
    let r := (s.die.regWake offset).readReg (jtagSrc (sec && s.die.dbg.si)) (sec && s.die.dbg.si) offset
    exec (.jtagAccess offset sec false value) s = .next (s.withDie
      (if Config.jtagLock then s.die.emit (.dbgWord 0) else r.2.emit (.dbgWord r.1)))) ∧
  (∀ (s : State) (p ld : Nat), s.takesConfig p ld = true →
    exec (.configRequest p ld) s = .next (s.withDie (s.die.active.emit
      (.cfgOk p ld (s.die.active.cfgAns p ld))))) ∧
  (∀ (s : State) (p ld : Nat), s.takesConfig p ld = true → s.die.active.fcxRefusal p = none →
    (s.die.active.port p).mode ≠ some .fcx →
    exec (.fcxRequest p ld true) s = .next (s.withDie
      (s.die.active.setPort p { (s.die.active.port p) with fcxReq := true, granted := true, refuse := 0 }))) ∧
  (∀ (s : State) (p ld : Nat), s.takesConfig p ld = true → (s.die.active.port p).memEn = 0 →
    (s.die.active.port p).mode ≠ some .fcx →
    exec (.fcxRequest p ld false) s = .next (s.withDie
      (s.die.active.setPort p { (s.die.active.port p) with fcxReq := false, granted := false }))) ∧
  (∀ (s : State) (p ld : Nat), s.takesConfig p ld = true → ld ≠ fmLd → (s.die.active.port p).mode = none →
    let x := s.die.active.port p
    let y : Port := { x with
      memEn := x.memEn ||| 2 ^ ld
      mode := some (if x.granted then .fcx else if s.die.active.mldPort p then .mld else .sld) }
    let d1 := s.die.active.setPort p y
    exec (.memEnable p ld true) s = .next (s.withDie
      (if y.memServes then ((d1.resume (unitHpt p)).resume (unitPhy p)).resume (0x10 + p) else d1))) ∧
  (∀ (s : State) (p ld : Nat), s.takesConfig p ld = true → ld ≠ fmLd → (s.die.active.port p).memEn = 2 ^ ld →
    exec (.memEnable p ld false) s = .next (s.withDie
      (s.die.active.setPort p { (s.die.active.port p) with memEn := 0 })))


/-! ## CXL.mem requests and coherence (R117, R148–R189, R257) -/

/-- Reads and writes of a host to a LIVE entry become requests: MEM_RD a read (in a standard domain RdOwn, RdShared or RdCur by
its MetaValue), MEM_WR a write unless the port holds the line of a standard domain, MEM_WR_PARTIAL a partial write; a MemInv
with no meaning completes at once. -/
def Obligations.HostRequestsComplete : Prop :=
  (∀ (s : State) (m : M2S) (d : Die) (ten e : Nat), s.serves m false d ten e → ¬(d.portFcx m.port = true ∧ m.ext.coh ≠ 0) →
    exec (.memRd m) s = .next (s.withDie (d.request m (if d.stdEntry e then
      (if m.metaV = 1 then .rdOwn else if m.metaV = 2 then .rdShared else .rdCur) else .rd) ten e 0 0))) ∧
  (∀ (s : State) (m : M2S) (d : Die) (ten e : Nat) (data : Line), s.serves m true d ten e →
    ¬(d.portFcx m.port = true ∧ m.ext.coh ≠ 0) → ¬(d.stdEntry e = true ∧ d.holds (d.dlaIn e m.ta) m.port = true) →
    exec (.memWr m data) s = .next (s.withDie (d.request m .wr ten e data 0))) ∧
  (∀ (s : State) (m : M2S) (d : Die) (ten e : Nat) (data : Line), s.serves m true d ten e →
    ¬(d.portFcx m.port = true ∧ m.ext.coh ≠ 0) → d.stdEntry e = true → d.holds (d.dlaIn e m.ta) m.port = true →
    exec (.memWr m data) s = .next (s.withDie (d.hostLane m .wrBack ten e data))) ∧
  (∀ (s : State) (m : M2S) (d : Die) (ten e : Nat) (data : Line) (mask : BitVec 64), s.serves m true d ten e →
    ¬(d.portFcx m.port = true ∧ m.ext.coh ≠ 0) →
    exec (.memWrPartial m data mask) s = .next (s.withDie (d.request m .wrPart ten e data mask))) ∧
  (∀ (s : State) (m : M2S) (d : Die) (ten e : Nat), s.serves m false d ten e → ¬(d.portFcx m.port = true ∧ m.ext.coh ≠ 0) →
    exec (.memInv m) s = .next (s.withDie (if d.stdEntry e && decide (m.metaV = 1) then d.request m .rdOwnNoData ten e 0 0
      else d.complete (d.newTxn m .wr ten e (d.dlaIn e m.ta) 0 4 0 0) (.cmp .none))))

/-- Coherent messages of a port in FCX mode to an entry of no standard domain: the four reads become requests of their kind, and
WrBack, CleanEvict, CompAck and SnpData go to the write-back lane. Back-invalidate messages of a standard domain's member: a
response reaches the line's Busy entry, a conflict is recorded and its acknowledgement sent. -/
def Obligations.CoherentMessagesComplete : Prop :=
  (∀ (s : State) (m : M2S) (d : Die) (ten e : Nat), s.serves m false d ten e → d.portFcx m.port = true → d.stdEntry e = false →
    exec (.rdShared m) s = .next (s.withDie (d.request m .rdShared ten e 0 0)) ∧
    exec (.rdOwn m) s = .next (s.withDie (d.request m .rdOwn ten e 0 0)) ∧
    exec (.rdOwnNoData m) s = .next (s.withDie (d.request m .rdOwnNoData ten e 0 0)) ∧
    exec (.rdCur m) s = .next (s.withDie (d.request m .rdCur ten e 0 0))) ∧
  (∀ (s : State) (m : M2S) (d : Die) (ten e : Nat) (data : Line), s.serves m true d ten e → d.portFcx m.port = true →
    s.die.portFcx m.port = true → d.stdEntry e = false →
    exec (.wrBack m data) s = .next (s.withDie (d.hostLane m .wrBack ten e data)) ∧
    exec (.snpData m data) s = .next (s.withDie (d.hostLane m .snpData ten e data))) ∧
  (∀ (s : State) (m : M2S) (d : Die) (ten e : Nat), s.serves m false d ten e → d.portFcx m.port = true →
    s.die.portFcx m.port = true → d.stdEntry e = false →
    exec (.cleanEvict m) s = .next (s.withDie (d.hostLane m .cleanEvict ten e 0)) ∧
    exec (.compAck m) s = .next (s.withDie (d.hostLane m .compAck ten e 0))) ∧
  (∀ (s : State) (m : M2S) (rsp : Rsp) (dirty : Bool) (n dla t : Nat), s.runs = true → s.die.portReady m.port = true →
    s.die.flt.doorstop = false →
    let d := s.die.arrival m.port
    d.memberLine m = some (n, dla, t) → d.domDown n = false → ¬(d.domFcx n = true ∧ m.ext.gen ≠ (d.ten t).gen) →
    exec (.biRsp m rsp dirty) s = .next (s.withDie (d.laneRsp dla m.port t m.ta rsp dirty))) ∧
  (∀ (s : State) (m : M2S) (n dla t : Nat), s.runs = true → s.die.portReady m.port = true → s.die.flt.doorstop = false →
    let d := s.die.arrival m.port
    d.memberLine m = some (n, dla, t) → d.domDown n = false → d.domFcx n = false →
    exec (.biConflict m) s = .next (s.withDie
      { d with home := { d.home with conflicts := d.home.conflicts ++ [(m.port, m.ta / 64 * 64)] } })) ∧
  (∀ (s : State) (m : M2S), s.runs = true → s.die.portReady m.port = true →
    s.die.home.conflicts.contains (m.port, m.ta / 64 * 64) = true →
    exec (.biConflictAck m) s = .next (s.withDie
      ({ s.die with home := { s.die.home with conflicts := s.die.home.conflicts.erase (m.port, m.ta / 64 * 64) } }.emit
        (.biConflictAck m.port (m.ta / 64 * 64)))))


/-- Directory and snoop events: a set returned lets its request be served, with the data a write-back left meanwhile, the oldest
waiting request starts once nothing holds its line, a late snoop or CompAck is counted and marked, an unanswered one takes the domain
down at its time-out, a sweep advances at most 320 lines a transom and ends when nothing it wants is left. -/
def Obligations.DirectoryEventsComplete : Prop :=
  (∀ (s : State) (dla n : Nat) (t : Txn), s.runs = true →
    s.die.txns.find? (fun t => decide (t.stage = .dirFetch) && decide (t.dla / 64 = dla / 64) &&
      !s.die.hbmWaits (.dirFetch (dla / 64 * 64))) = some t →
    let d1 := (s.die.dirLoad dla).clearBusy dla
    d1.domOf dla = some n →
    exec (.directoryFetchReturn dla .clean) s = .next (s.withDie (d1.serve n t (((s.die.busyOf dla).map (·.kept)).getD [])))) ∧
  (∀ (s : State) (dla : Nat) (t : Txn), s.runs = true →
    let d := s.die.startRecalls dla
    d.txns.find? (fun t => decide (t.stage = .waitlist) && decide (t.dla / 64 = dla / 64)) = some t →
    (d.busyOf dla).any (fun b => decide (b.txn = some t.id)) = false → d.bayLost t = false → d.lineBlocked t = false →
    exec (.waitlistStart dla) s = .next (s.withDie (match d.domOf t.dla with
      | some n => d.coh n t
      | none => d.passOne t false))) ∧
  (∀ (s : State) (dla p due : Nat) (b : Busy), s.runs = true → s.die.busyOf dla = some b → b.ack = some (p, some due, false) →
    due + 50 ≤ s.die.time →
    exec (.snoopLate dla p) s = .next (s.withDie
      ((((s.die.setBusy { b with ack := some (p, some due, true) }).count (R.chaSnpLate (homeOf dla)) 1).event
        (R.chaEvent (homeOf dla)) 3).markHostLate dla p))) ∧
  (∀ (s : State) (dla p : Nat) (b : Busy), s.runs = true → s.die.busyOf dla = some b → b.ack = none →
    b.snoops.any (fun x => decide (x.port = p) && !b.answered x && !x.late && decide (x.due + 50 ≤ s.die.time)) = true →
    let b1 : Busy := { b with snoops := b.snoops.map fun x => if x.port = p then { x with late := true } else x }
    exec (.snoopLate dla p) s = .next (s.withDie
      ((((s.die.setBusy b1).count (R.chaSnpLate (homeOf dla)) 1).event (R.chaEvent (homeOf dla)) 3).markHostLate dla p))) ∧
  (∀ (s : State) (dla p : Nat) (b : Busy), s.runs = true → s.die.busyOf dla = some b → b.ack = none →
    b.snoops.any (fun x => decide (x.port = p) && !b.answered x && decide (s.die.timeoutAt b.dom x.due ≤ s.die.time)) = true →
    exec (.memberTimeout dla p) s = .next (s.withDie ((s.die.markHostLate dla p).domainDown b.dom 1 p))) ∧
  (∀ (s : State) (dla p due : Nat) (late : Bool) (b : Busy), s.runs = true → s.die.busyOf dla = some b →
    b.ack = some (p, some due, late) → s.die.timeoutAt b.dom due ≤ s.die.time →
    exec (.memberTimeout dla p) s = .next (s.withDie ((s.die.markHostLate dla p).domainDown b.dom 2 p))) ∧
  (∀ (s : State) (i : Nat) (x : Sweep) (d : Die), s.runs = true → s.die.home.sweeps.find? i = some x → x.clear = false →
    s.die.sweepWaits = false →
    let used := if x.last.1 = s.die.transom then x.last.2 else 0
    let n := min (320 - used) x.linesLeft
    let pos := dirLines - x.linesLeft
    (x.linesLeft ≠ 0 → n ≠ 0) →
    (if n = 0 then (true, s.die) else s.die.hbm 3 0 (dirLineAddr pos) 14 false (.sweep n)) = (true, d) →
    let here (k : Nat) : Bool := decide (x.linesLeft = 0) ||
      (decide (pos / 2 ≤ hbmPlace (k * 64)) && decide (hbmPlace (k * 64) < (pos + n) / 2))
    let d1 := d.setSweep i { x with linesLeft := x.linesLeft - n, last := (d.transom, used + n) }
    exec (.directorySweepStep i) s = .next (s.withDie
      ((d1.home.dir.filter fun (e : Nat × DirEnt) => here e.1 && x.wants e.1 e.2).foldl
        (fun (d : Die) (e : Nat × DirEnt) => d.recall (e.1 * 64)) d1))) ∧
  (∀ (s : State) (i bay : Nat) (x : Sweep) (o : BayOp), s.runs = true → s.die.home.sweeps.find? i = some x →
    s.die.sweepOver x = true → x.cmd = none → x.bay = some bay → (s.die.dropSweep i).bayOp? bay = some o → o.phase = .recall →
    exec (.directorySweepDone i) s = .next (s.withDie ((s.die.dropSweep i).setBayOp { o with phase := .fence })))

/-! ## The memory side and integrity (R26, R76, R117–R120, R202, R207–R249) -/

/-- The memory side: a held request takes its queue entry, a request of a port's buffer enters the home, a channel plans a period,
a granule that was read is taken in, a lane stores (fill, a re-encrypted granule, or a store that raised its counter), a line test
ends with its second read. -/
def Obligations.MemoryEventsComplete : Prop :=
  (∀ (s : State) (id : Nat) (t : Txn), s.runs = true → s.die.txn? id = some t → t.stage = .hold → s.die.oldestHeld t = true →
    s.die.mayTake t.ch t.louvre = true →
    exec (.beQueueEntryTake id) s = .next (s.withDie (s.die.passOne t false))) ∧
  (∀ (s : State) (id : Nat) (t : Txn), s.runs = true → s.die.txn? id = some t → t.stage = .port →
    s.die.txns.any (fun u => decide (u.stage = .port) && decide (u.id < t.id) && decide (u.master = t.master) &&
      decide (homeOf u.dla = homeOf t.dla)) = false → s.die.holdFull (homeOf t.dla) = false →
    (6 ≤ t.master → s.die.innerRoom (homeOf t.dla) = true) →
    let d1 := s.die.dropTxn id
    exec (.beCrossbarEntry id) s = .next (s.withDie
      ({ d1 with home := { d1.home with nextTxn := d1.home.nextTxn + 1 } }.order { t with id := s.die.home.nextTxn }))) ∧
  (∀ (s : State) (ch overhead refresh blocked : Nat), s.runs = true → ch < 16 → s.die.pwr.st ≠ .sl1 true →
    s.die.pwr.st ≠ .sl3 → s.die.pwr.st ≠ .sl3Exit → s.die.flt.drained = false →
    s.die.chanAsleep ch = false →
    exec (.channelReplan ch overhead refresh blocked) s = .next (s.withDie (s.die.replan ch overhead refresh blocked))) ∧
  (∀ (s : State) (id dga : Nat) (t : Txn) (a : Arrival), s.runs = true → s.die.txn? id = some t → s.die.expects t dga = true →
    exec (.granuleReadReturn id dga a) s = .next (s.withDie (s.die.arrive t dga a false))) ∧
  (∀ (s : State) (ch : Nat) (e : LaneEnt), s.runs = true → ch < 16 → (s.die.chan ch).excluded = false →
    s.die.nextStore ch = some e → e.raw = none → e.fill = true →
    exec (.laneStore ch) s = .next (s.withDie (((s.die.dropEnt e).queueWrite e fillGranule).laneRoom ch))) ∧
  (∀ (s : State) (ch : Nat) (e : LaneEnt) (g : Granule), s.runs = true → ch < 16 → (s.die.chan ch).excluded = false →
    s.die.nextStore ch = some e → e.raw = some g →
    exec (.laneStore ch) s = .next (s.withDie (((s.die.dropEnt e).queueWrite e g).laneRoom ch))) ∧
  (∀ (s : State) (ch maj mnr : Nat) (e : LaneEnt) (d1 : Die), s.runs = true → ch < 16 → (s.die.chan ch).excluded = false →
    s.die.nextStore ch = some e → e.raw = none → e.fill = false → s.die.hasKey e.kidx = true → s.die.itr.isLost e.dga = false →
    e.reenc = false → s.die.raiseCounter e.dga (if e.con.isSome ∨ e.group ≠ 4 then 3 else 4) e.louvre e.con = .ok maj mnr d1 →
    let g := sealGranule (d1.slot e.kidx).key e.kidx e.dga maj mnr e.kind e.poison e.data
    let d2 := ((d1.dropEnt e).dropReads (.reenc e.dga)).queueWrite e g
    exec (.laneStore ch) s =
      .next (s.withDie ((if e.cache && !e.poison && d2.bayCache e.bay then d2.storeUpdate e.dga g else d2).laneRoom ch))) ∧
  (∀ (s : State) (ch : Nat) (e : LaneEnt) (leaf : Node), s.runs = true → ch < 16 → (s.die.chan ch).excluded = false →
    s.die.nextStore ch = some e → e.raw = none → e.fill = false → s.die.hasKey e.kidx = true → s.die.itr.isLost e.dga = false →
    e.reenc = true → s.die.itr.latest 0 (nodeIdx 0 e.dga) = some leaf →
    let d1 := s.die.clearPending (nodeIdx 0 e.dga) (slotIn e.dga)
    let g := sealGranule (d1.slot e.kidx).key e.kidx e.dga leaf.major 1 e.kind e.poison e.data
    let d2 := ((d1.dropEnt e).dropReads (.reenc e.dga)).queueWrite e g
    exec (.laneStore ch) s =
      .next (s.withDie ((if e.cache && !e.poison && d2.bayCache e.bay then d2.storeUpdate e.dga g else d2).laneRoom ch))) ∧
  (∀ (s : State) (id dga : Nat) (t : Txn) (a : Arrival), s.runs = true → s.die.txn? id = some t →
    t.retry.any (fun x => decide (x.1 = dga)) = true →
    let mine (x : Test) : Bool := decide (x.kind = 1) && decide (x.row = id) && decide (x.seq = dga / 64 % 65536)
    s.die.flt.tests.any (fun x => mine x && x.running) = true →
    let rest := s.die.flt.tests.filter fun x => !mine x
    let d1 := (({ s.die with flt := { s.die.flt with tests := rest } } : Die).closeReread (.granule id dga)).startTests
    exec (.lineTestDone id dga a) s = .next (s.withDie ((d1.count R.stuLineTests 1).arrive
      { t with retry := t.retry.filter fun x => decide (x.1 ≠ dga) } dga a true)))

/-- Integrity events: a node's read is taken in by its level and read; a dirty node is written back near DIRTY_MAX; a pending
granule is read first, and where its read gives data it is pushed for its re-encryption; an unpinned block with no dirty line left is
done. -/
def Obligations.IntegrityEventsComplete : Prop :=
  (∀ (s : State) (level idx : Nat) (f : Nat × Nat) (p : Node) (a : NodeArrival), s.runs = true → level < 3 →
    s.die.itr.fetches.find? (fun (f : Nat × Nat) => decide (f.1 = nodeKey level idx)) = some f → f.2 ≠ phDenied →
    s.die.nodeIssued (nodeKey level idx) = true → s.die.itr.latest (level + 1) (idx / 64) = some p → p.minor (idx % 64) = 0 →
    exec (.nodeFetchReturn level idx a) s = .next (s.withDie ((s.die.dropFetch (nodeKey level idx)).formAll.resumeArrived))) ∧
  (∀ (s : State) (level idx : Nat) (f : Nat × Nat) (p : Node) (a : NodeArrival), s.runs = true → level < 3 → level ≠ 0 →
    s.die.itr.fetches.find? (fun (f : Nat × Nat) => decide (f.1 = nodeKey level idx)) = some f → f.2 ≠ phDenied →
    f.2 ≠ phAgain → s.die.nodeIssued (nodeKey level idx) = true →
    s.die.itr.latest (level + 1) (idx / 64) = some p → p.minor (idx % 64) ≠ 0 → a.chk ≠ .corrected →
    let home := (s.die.itr.home.find? (nodeKey level idx)).getD Stored.blank
    s.die.nodeOk level idx p home a = true →
    exec (.nodeFetchReturn level idx a) s = .next (s.withDie (s.die.nodeGood (nodeKey level idx) home false))) ∧
  (∀ (s : State) (k : Nat), s.runs = true → fld (s.die.act R.itrCfg) 16 0 ≤ s.die.itr.dirty + 1024 →
    s.die.itr.oldestDirty (fun k => !s.die.homeOut k) = some k →
    exec .dirtyWriteback s = .next (s.withDie (s.die.writeBack k))) ∧
  (∀ (s : State) (page slot k : Nat) (p : Pending) (d1 : Die) (dist : List (Nat × Arrival)), s.runs = true →
    s.die.itr.pendOf page = some p → slot < 64 → p.mask.contains slot = true →
    let dga := page * 4096 + slot * 64
    s.die.buffered dga = none → (s.die.chan (s.die.chanOf dga)).excluded = false →
    s.die.indexOf dga (s.die.keysOfPhys (bayOf dga)) = some k → p.con = none →
    s.die.reads (.reenc dga) [dga] { group := 4, due := 0, louvre := p.louvre, con := none } = (none, d1) →
    exec (.reencryptGranule page slot dist) s = .next (s.withDie d1)) ∧
  (∀ (s : State) (page slot k : Nat) (p : Pending) (l : Line) (w : WOp) (d1 d2 : Die) (dist : List (Nat × Arrival)),
    s.runs = true → s.die.itr.pendOf page = some p → slot < 64 → p.mask.contains slot = true →
    let dga := page * 4096 + slot * 64
    let c : Charge := { group := 4, due := 0, louvre := p.louvre, con := none }
    s.die.buffered dga = none → (s.die.chan (s.die.chanOf dga)).excluded = false →
    s.die.indexOf dga (s.die.keysOfPhys (bayOf dga)) = some k → p.con = none →
    s.die.reads (.reenc dga) [dga] c = (some w, d1) → let kind := (d1.heldGranule dga).kind
    d1.readWhole dga k (bayOf dga) kind 10 0xffff 0 c dist = (.data l, d2) →
    let e : LaneEnt :=
      d1.underEntry w.own { LaneEnt.metaFor c dga (d1.listedBay (bayOf dga) k) with kind := kind, kidx := k, reenc := true }
    exec (.reencryptGranule page slot dist) s = .next (s.withDie ((d2.push { e with data := l }).endReads w p.louvre))) ∧
  (∀ (s : State) (block bay : Nat), s.runs = true → (s.die.itr.block block).writing = true →
    (s.die.itr.block block).bay = some bay → s.die.itr.dirtyLines block = [] →
    let b : Block := { (s.die.itr.block block) with writing := false }
    exec (.unpinWritebackDone block) s =
      .next (s.withDie { s.die with itr := { s.die.itr with blocks := s.die.itr.blocks.set Block.init block b } }))

/-! ## Panes, tiering, re-key, erase, scrub (R262–R274, R290–R303, R331–R349, R369) -/

/-- The page home: the page-map line that comes back lets its requests pass, the oldest page operation runs, and HOLD, its answer
and RELEASE move a running operation on; a slice answers once the partial writes it passed have entered their lanes. -/
def Obligations.PageEventsComplete : Prop :=
  (∀ (s : State) (slice page : Nat), s.runs = true → s.die.pmap.fetch.contains (slice, page) = true →
    s.die.hbmWaits (.pageMap slice page) = false →
    let fs := s.die.pmap.fetch.filter fun (x : Nat × Nat) => decide (x ≠ (slice, page))
    let d3 := { s.die with pmap := { s.die.pmap with fetch := fs } }.pmInsert slice page
    exec (.pageMapFetchReturn slice page .clean) s = .next (s.withDie
      ((d3.txns.filter fun t => decide (t.stage = .pageMap) && decide (homeOf t.dla = slice) && decide (pageOf t.dla = page)).foldl
        (fun d t => d.passOne t false) d3))) ∧
  (∀ (s : State) (page : Nat) (o : PageOp) (dist : List (Nat × Arrival)), s.runs = true → s.die.runningOp page = none →
    s.die.frontOp page = some o → o.repack = none → o.op = .mark →
    exec (.paneOperation page dist) s = .next (s.withDie (s.die.markPage o))) ∧
  (∀ (s : State) (page dla kidx port louvre : Nat) (data : Line) (o : PageOp) (dist : List (Nat × Arrival)), s.runs = true →
    s.die.runningOp page = none → s.die.frontOp page = some o → o.repack = none → o.op = .wb dla data kidx port louvre →
    let w := s.die.wbWriter dla kidx port louvre
    exec (.paneOperation page dist) s = .next (s.withDie
      (s.die.paneWrite { o with writer := some w } (dla / 64 % 64) data (BitVec.allOnes 64) none w dist))) ∧
  (∀ (s : State) (page : Nat) (o : PageOp) (dist : List (Nat × Arrival)), s.runs = true → s.die.runningOp page = some o →
    exec (.paneOperation page dist) s = .next (s.withDie (s.die.publishReady o))) ∧
  (∀ (s : State) (slice page : Nat) (o : PageOp), s.runs = true → s.die.runningOp page = some o → o.holdLeft.contains slice = true →
    let d1 := s.die.pmDrop slice page
    exec (.holdReceived slice page) s = .next (s.withDie
      ({ d1 with pmap := { d1.pmap with held := d1.pmap.held ++ [(slice, page)] } }.setOp
        { o with holdLeft := o.holdLeft.erase slice, answerLeft := o.answerLeft ++ [slice] }))) ∧
  (∀ (s : State) (slice page : Nat) (o : PageOp), s.runs = true → s.die.runningOp page = some o →
    o.answerLeft.contains slice = true → s.die.passedBefore slice page = false →
    let o1 : PageOp := { o with answerLeft := o.answerLeft.erase slice }
    exec (.holdAnswer slice page) s = .next (s.withDie ((s.die.setOp o1).publishReady o1))) ∧
  (∀ (s : State) (slice page : Nat), s.runs = true → s.die.passedBefore slice page = true →
    exec (.holdAnswer slice page) s = .next s) ∧
  (∀ (s : State) (slice page : Nat) (o : PageOp), s.runs = true → s.die.runningOp page = some o → o.relLeft.contains slice = true →
    let o1 : PageOp := { o with relLeft := o.relLeft.erase slice }
    let d1 := s.die.pmInsert slice page
    let d2 := { d1 with pmap := { d1.pmap with held := d1.pmap.held.filter fun (x : Nat × Nat) => decide (x ≠ (slice, page)) } }
    let d3 := if o1.relLeft = [] then (d2.endOp o1).markDone o1 else d2.setOp o1
    exec (.releaseReceived slice page) s = .next (s.withDie
      ((d3.txns.filter fun t => decide (t.stage = .pageHold) && decide (homeOf t.dla = slice) && mappedBay (bayOf t.dla) &&
        decide (pageOf t.dla = page)).foldl (fun d t => d.passOne t false) d3)))

/-- The mover: a scan starts at its period, steps through its pages and ends; a move copies its page once its reads have issued, and
commits; a re-key re-keys the next granule or pane; an erase resets a bay's leaves; PHYS fill writes the next page; a scrub clears a
page's minors. -/
def Obligations.MoverEventsComplete : Prop :=
  (∀ (s : State) (bay : Nat) (b : Bt), s.runs = true → s.die.moverRuns = true → s.die.tieredEntry bay = some b →
    s.die.transom % 2 ^ fld (s.die.policyOf b) 28 24 = 0 → s.die.tir.scans.any (fun (x : Scan) => decide (x.bay = bay)) = false →
    exec (.scanStart bay) s = .next (s.withDie
      { s.die with tir := { s.die.tir with scans := s.die.tir.scans ++ [{ bay := bay, next := 0, asked := false }] } })) ∧
  (∀ (s : State) (bay lines : Nat) (b : Bt) (x : Scan), s.runs = true → s.die.moverRuns = true →
    s.die.tir.scans.find? (fun (x : Scan) => decide (x.bay = bay)) = some x → s.die.tieredEntry bay = some b →
    let r := Die.scanPages b bay (4 * min lines (fld (s.die.act R.tirCfg) 12 4)) s.die x.next x.asked
    (r.2.1 < 2 ^ 18 → exec (.scanStep bay lines) s = .next (s.withDie { r.1 with tir := { r.1.tir with
      scans := r.1.tir.scans.map fun (x : Scan) => if x.bay = bay then { x with next := r.2.1, asked := r.2.2 } else x } })) ∧
    (2 ^ 18 ≤ r.2.1 → exec (.scanStep bay lines) s = .next (s.withDie { r.1 with tir := { r.1.tir with
      scans := r.1.tir.scans.filter fun (x : Scan) => decide (x.bay ≠ bay) } }))) ∧
  (∀ (s : State) (page : Nat) (m : Move) (r : Option WOp) (d : Die) (dist : List (Nat × Arrival)), s.runs = true →
    s.die.moverRuns = true →
    s.die.tir.moves.find? (fun (m : Move) => decide (m.page = page) && decide (m.phase = 1)) = some m →
    let e := s.die.pgEntry page
    (e.st = .packed → m.toPlain = true → s.die.reads (.copy page) ((List.range 8).flatMap e.paneDgas) s.die.moverCharge = (r, d) →
      exec (.moveCopy page dist) s = .next (s.withDie (match r with
        | none => d
        | some w => d.promote w page e dist))) ∧
    (e.st = .plain → m.toPlain = false → s.die.reads (.copy page) ((List.range 64).map e.dga) s.die.moverCharge = (r, d) →
      exec (.moveCopy page dist) s = .next (s.withDie (match r with
        | none => d
        | some w => d.demotePage w page e dist)))) ∧
  (∀ (s : State) (page : Nat) (o : PageOp), s.runs = true → s.die.moverRuns = true → s.die.runningOp page = none →
    s.die.frontOp page = some o → o.repack = none → o.op = .commit → exec (.moveCommit page) s = .next (s.withDie (s.die.commitMove o))) ∧
  (∀ (s : State) (a g : Nat) (r : Retire) (b : RetBay) (dist : List (Nat × Arrival)), s.runs = true → s.die.moverRuns = true →
    s.die.clearingBay a (bayOf g) false = some (r, b) → mappedBay (bayOf g) = false → g % 64 = 0 →
    s.die.rekeyNext (bayOf g) a b.next s.die.reach ≠ some g → b.left.contains g = true → s.die.reach g = true →
    let x := ((s.die.setRetBay a b).reopenPage (g / 4096) b).rekeyGranule g a r.t (bayOf g) dist
    exec (.rekeyOperation a g dist) s = .next (s.withDie (if x.1 then
      (x.2.setRetBay a { b with left := b.left.filter fun y => decide (y ≠ g) }).retsGo else x.2))) ∧
  (∀ (s : State) (a g : Nat) (r : Retire) (b : RetBay) (dist : List (Nat × Arrival)), s.runs = true → s.die.moverRuns = true →
    s.die.clearingBay a (bayOf g) false = some (r, b) → mappedBay (bayOf g) = false → g % 64 = 0 →
    s.die.rekeyNext (bayOf g) a b.next s.die.reach = some g →
    let skipped := ((s.die.dram.map fun (e : Nat × Granule) => e.1 * 64).filter fun x => decide (bayOf x = bayOf g) &&
      decide (b.next ≤ x) && decide (x < g) && !s.die.reach x && s.die.rekeyMine a x)
    let b1 : RetBay := { b with next := g, left := b.left ++ skipped }
    let x := ((s.die.setRetBay a b1).reopenPage (g / 4096) b).rekeyGranule g a r.t (bayOf g) dist
    exec (.rekeyOperation a g dist) s = .next (s.withDie (if x.1 then
      (x.2.setRetBay a { b1 with next := g + 64, left := b1.left.filter fun y => decide (y ≠ g) }).retsGo else x.2))) ∧
  (∀ (s : State) (a page pane : Nat) (r : Retire) (b : RetBay) (o : PageOp) (dist : List (Nat × Arrival)), s.runs = true →
    s.die.moverRuns = true → pane < 8 → s.die.clearingBay a (pageBay page) false = some (r, b) →
    s.die.paneNext (pageBay page) a b.next = some (page * 8 + pane) →
    let d1 := (s.die.setRetBay a { b with next := page * 8 + pane + 1 }).pageOp page (.rekey a pane)
    d1.frontOp page = some o → o.op = .rekey a pane →
    exec (.paneRekeyOperation a page pane dist) s = .next (s.withDie ((d1.runPageOp page dist).retsGo))) ∧
  (∀ (s : State) (a bay : Nat) (r : Retire) (b : RetBay), s.runs = true → s.die.moverRuns = true →
    s.die.dbg.erase.contains bay = false → s.die.clearingBay a bay true = some (r, b) → b.done = false →
    s.die.bayPending bay = false → mappedBay bay = false →
    let pages := if b.next = 0 then range' (bay * 2 ^ 18) (2 ^ 18) else b.left
    let x := pages.foldl (fun (x : List Nat × Die) p =>
      if x.2.pageOut p then (x.1 ++ [p], x.2) else (x.1, x.2.eraseLeaf p b.reset)) ([], s.die)
    exec (.eraseLeafReset a bay) s = .next (s.withDie
      (if x.1 = [] then ((x.2.bayCleared r b).setRetBay a { b with done := true, next := 0, left := [] }).retsGo
       else x.2.setRetBay a { b with next := 1, left := x.1 }))) ∧
  (∀ (s : State) (a bay : Nat) (r : Retire) (b : RetBay), s.runs = true → s.die.moverRuns = true →
    s.die.dbg.erase.contains bay = false → s.die.clearingBay a bay true = some (r, b) → b.done = false →
    s.die.bayPending bay = false → mappedBay bay = true → s.die.opsInBay bay = false → b.physLeft = false →
    let d1 := (s.die.abandonMoves fun (m : Move) => decide (pageBay m.page = bay)).unmapBay bay
    exec (.eraseLeafReset a bay) s = .next (s.withDie
      (((d1.bayCleared r b).setRetBay a { b with done := true, physLeft := false }).retsGo))) ∧
  (∀ (s : State) (a bay : Nat) (r : Retire) (b : RetBay) (d1 : Die), s.runs = true → s.die.moverRuns = true →
    s.die.clearingBay a bay true = some (r, b) → mappedBay bay = false → b.done = true → b.physLeft = true → b.next < 2 ^ 18 →
    let gs := (List.range 64).map fun i => (bay * 2 ^ 18 + b.next) * 4096 + i * 64
    (gs.any fun g => (s.die.chan (s.die.chanOf g)).excluded) = false → s.die.pushFill bay gs = some d1 →
    let b1 : RetBay := { b with next := b.next + 1 }
    exec (.physFill a bay) s = .next (s.withDie (if 2 ^ 18 ≤ b1.next ∧ b1.left = []
      then (d1.setRetBay a { b1 with physLeft := false }).retsGo else d1.setRetBay a b1))) ∧
  (∀ (s : State) (a bay : Nat) (r : Retire) (b : RetBay), s.runs = true → s.die.moverRuns = true →
    s.die.clearingBay a bay true = some (r, b) → mappedBay bay = true → b.physLeft = true →
    exec (.physFill a bay) s = .next (s.withDie (s.die.physRun a bay b))) ∧
  (∀ (s : State) (bay page : Nat) (o : BayOp), s.runs = true → s.die.moverRuns = true → s.die.bayOp? bay = some o →
    o.phase = .scrub → mappedBay o.bay = false → page = o.bay * 2 ^ 18 + o.next → o.next < 2 ^ 18 → s.die.pageOut page = false →
    let o1 : BayOp := { o with next := o.next + 1 }
    let d1 := (s.die.scrubLeaf page).setBayOp o1
    exec (.scrubPage bay page) s = .next (s.withDie (if d1.scrubOver o1 then d1.scrubDone o1 else d1)))

/-- Retirements and removals: the last request of a stopped index starts its flush; a part that is clean leaves the flush; a flush
walk covers FLUSH_RATE sets a step; the last request of a draining bay starts its scrub; a host's extent release lets a removal
go on; a removal whose wait is over fails with HOST_HOLDS. -/
def Obligations.RetirementEventsComplete : Prop :=
  (∀ (s : State) (a : Nat) (r : Retire), s.runs = true → s.die.retire? a = some r → r.phase = .stopped → s.die.usesIndex a = false →
    exec (.retireDrainEnd a) s = .next (s.withDie (s.die.startFlush r))) ∧
  (∀ (s : State) (a : Nat) (p : FlushPart) (r : Retire), s.runs = true → s.die.retire? a = some r → r.phase = .flushing →
    r.parts.contains p = true → s.die.partClean r p = true → p ≠ .lanes →
    exec (.flushPartDone a p) s = .next (s.withDie ((s.die.setRet { r with parts := r.parts.filter (· ≠ p) }).retsGo))) ∧
  (∀ (s : State) (a : Nat) (r : Retire), s.runs = true → s.die.retire? a = some r → r.phase = .flushing →
    r.parts.contains .lanes = true → s.die.partClean r .lanes = true →
    exec (.flushPartDone a .lanes) s = .next (s.withDie ((List.range 16).foldl
      (fun (d : Die) c => d.event (R.cryEvent (d.chan c).lane) 2) (s.die.setRet { r with parts := r.parts.filter (· ≠ .lanes) })).retsGo)) ∧
  (∀ (s : State) (n : Nat), s.runs = true → s.die.hbc.walk = some n → s.die.flushWaits = false →
    let k := fld (s.die.act R.hbcCfg) 24 16
    let d1 := (List.range k).foldl (fun (d : Die) i =>
      (d.hbm 3 0 (wayAddr ((n + i) % hbSets) 0) 14 true (.flush ((n + i) % hbSets))).2) s.die
    let kics := s.die.walkFor.map fun (r : Retire) => kicOf r.a
    let covered (x : Nat) : Bool := decide (n ≤ x ∧ x < n + k) || decide (x + hbSets < n + k)
    let ways := d1.hbc.ways.filter fun (w : Nat × CacheWay) => !(covered (w.1 / 8) && kics.contains w.2.kic)
    let rets := s.die.keys.rets.map fun (r : Retire) => if r.phase = .flushing then { r with setsLeft := r.setsLeft - k } else r
    exec .cacheFlushWalkStep s = .next (s.withDie
      { d1 with hbc := { d1.hbc with ways := ways, walk := some ((n + k) % hbSets), walkAt := some s.die.transom }, keys := { d1.keys with rets := rets } })) ∧
  (∀ (s : State) (n : Nat), s.runs = true → s.die.hbc.walk = some n →
    let mine := s.die.keys.rets.filter fun (r : Retire) =>
      decide (r.phase = .flushing) && r.parts.contains .cache && decide (r.setsLeft = 0)
    mine ≠ [] →
    let d1 := mine.foldl (fun (d : Die) (r : Retire) => d.setRet { r with parts := r.parts.filter (· ≠ FlushPart.cache) }) s.die
    let d2 := if d1.walkFor = [] then { d1 with hbc := { d1.hbc with walk := none } } else d1
    exec .cacheFlushWalkDone s = .next (s.withDie ((d2.event R.hbcEvent 1).retsGo))) ∧
  (∀ (s : State) (bay : Nat) (o : BayOp), s.runs = true → s.die.bayOp? bay = some o → o.phase = .drain → s.die.bayInUse bay = false →
    let o1 : BayOp := { o with phase := .scrub }
    let d1 := (s.die.setBaySt bay .scrubbing).setBayOp o1
    exec (.bayDrainEnd bay) s = .next (s.withDie (if d1.scrubOver o1 then d1.scrubDone o1 else d1))) ∧
  (∀ (s : State) (port ta : Nat) (o : BayOp), s.runs = true →
    s.die.tens.bayOps.find? (fun (o : BayOp) => decide (o.phase = .waitHost) && decide (s.die.tenPort o.ten = port) &&
      decide (s.die.taOf o.entry 0 = ta / 2 ^ 30 * 2 ^ 30)) = some o →
    exec (.hostExtentRelease port ta) s = .next (s.withDie (s.die.setBayOp { o with phase := s.die.afterRelease o.bay }))) ∧
  (∀ (s : State) (entry : Nat) (o : BayOp) (h : Hdr), s.runs = true →
    s.die.tens.bayOps.find? (fun (o : BayOp) =>
      decide (o.phase = .waitHost) && decide (o.entry = entry) && decide (o.until_ ≤ s.die.time)) = some o → o.hdr = some h →
    exec (.releaseWaitTimeout entry) s = .next (s.withDie ((s.die.dropBayOp o.bay).fail h 0x0301 St.hostHolds entry))) ∧
  (∀ (s : State) (i : Nat) (e : LogEnt) (d1 : Die), s.runs = true → s.die.tens.logs[i]? = some e →
    let ent := fld (s.die.act (R.tenLog e.ten)) 13 0
    let b := s.die.bt ent
    let k := s.die.remap b.dlaBay b.defKey
    s.die.plainEntry ent = true → s.die.keyRefused 0xffff ent k.1 false k.2 true = false →
    s.die.reads (.log e.ten e.mapB e.line) [b.dlaBay * 2 ^ 30 + b2n e.mapB * 0x20000000 + e.line * 64] s.die.moverCharge = (none, d1) →
    exec (.logBufferOr i) s = .next (s.withDie d1)) ∧
  (∀ (s : State) (i : Nat) (e : LogEnt) (w : WOp) (d1 : Die), s.runs = true → s.die.tens.logs[i]? = some e →
    let ent := fld (s.die.act (R.tenLog e.ten)) 13 0
    let b := s.die.bt ent
    let dla := b.dlaBay * 2 ^ 30 + b2n e.mapB * 0x20000000 + e.line * 64
    let k := s.die.remap b.dlaBay b.defKey
    s.die.plainEntry ent = true → s.die.keyRefused 0xffff ent k.1 false k.2 true = false →
    s.die.reads (.log e.ten e.mapB e.line) [dla] s.die.moverCharge = (some w, d1) →
    d1.lineFree dla = true → d1.laneFull (d1.chanOf dla) = false →
    let d2 : Die := { d1 with tens := { d1.tens with logs := d1.tens.logs.filter fun x => decide (x ≠ e) } }
    let r := d2.readWhole dla k.1 b.dlaBay 0 8 b.ten (d1.taOf ent dla) d1.moverCharge []
    let l : LaneEnt := r.2.underEntry w.own { LaneEnt.base with
      dga := dla, dla := dla, kidx := k.1, bay := b.dlaBay, cache := d1.bayCache b.dlaBay, master := 8, louvre := d1.moverLouvre }
    exec (.logBufferOr i) s = .next (s.withDie ((r.2.push (match r.1 with
      | .data x => { l with data := x ||| e.bits }
      | _ => { l with poison := true })).endReads w d1.moverLouvre).endHarvests))

/-! ## Jobs, cores and debug (R313–R320, R421–R429) -/

/-- A queue with a descriptor waiting fetches it once its key may be used; a job goes from its descriptor to its reads, from
whole inputs to its work, from its writes to its completion record and from that to its end. -/
def Obligations.JobEventsComplete : Prop :=
  (∀ (s : State) (q : Nat) (d2 : Die), s.runs = true → s.die.engineRuns = true → s.die.nextQueue = some q →
    let k := fld (s.die.act (R.cjeQkey q)) 11 0
    s.die.jobKeyOk (s.die.jobTen q) k = true → s.die.live? k = true →
    let j : Job := { idx := (s.die.job q).head, desc := [], kidx := k, phase := .fetch, got := [], wfail := false, barred := false, res := none,
                     rerun := false, gen := match s.die.jobTen q with | some t => (s.die.ten t).gen | none => 0 }
    ({ s.die with jobTurn := q }.setJob q { (s.die.job q) with job := some j }).jobTxns q k .rd
      [((s.die.act (R.cjeQsq q)).toNat * 4096 + 64 * (s.die.job q).head, 0, 0)] = .ok d2 →
    exec (.jobFetch q) s = .next (s.withDie d2)) ∧
  (∀ (s : State) (q : Nat) (j : Job), s.runs = true → (s.die.job q).job = some j → s.die.jobBusy q = false → j.rerun = false →
    (∀ (a : Nat) (l : Line) (rest : List (Nat × Option Line)), j.phase = .fetch → j.desc = [] → j.got = (a, some l) :: rest →
      let j1 : Job := { j with desc := lineBytes l }
      exec (.jobComplete q) s = .next (s.withDie ((s.die.setJobNow q j1).startJob q j1))) ∧
    (j.phase = .read → exec (.jobComplete q) s = .next (s.withDie (s.die.runJob q j))) ∧
    (∀ r : JobRes, j.phase = .write → j.res = some r → j.wfail = false →
      exec (.jobComplete q) s = .next (s.withDie (s.die.jobRecord q j r))) ∧
    (∀ r : JobRes, j.phase = .record → j.res = some r →
      exec (.jobComplete q) s = .next (s.withDie (s.die.endJob q j r !j.wfail))))

/-- Worlds and debug: a gate entry with its bit set goes to the secure world and keeps the return address, a gate exit returns to
it with registers cleared; a halt stops a core its policy lets it stop, is held in a secure core, and is a wake source; a debug read reaches its
bound tenancy's bay. -/
def Obligations.WorldEventsComplete : Prop :=
  (∀ (s : State) (k offset ret : Nat), s.runs = true → s.die.active.coreRuns k = true → (s.die.active.core k).secure = false →
    entryPoint offset = true → bit (s.die.active.regR R.mulWorld) (24 + k) = true →
    exec (.gateEntry k offset ret) s = .next (s.withDie (s.die.active.setCore k
      (Core.fill { (s.die.active.core k) with secure := true, ret := ret % 2 ^ 64, pc := offset, held := true } offset)))) ∧
  (∀ (s : State) (k : Nat), s.runs = true → s.die.active.coreRuns k = true → (s.die.active.core k).secure = true →
    let c := s.die.active.core k
    exec (.gateExit k 0xfc0) s = .next (s.withDie (s.die.active.setCore k
      { c with secure := false, held := false, pc := c.ret, x := c.x.filter (fun (e : Nat × Nat) => decide (e.1 = 10 ∨ e.1 = 11)),
               f := [], fcsr := 0, resv := false, halted := c.haltHeld, haltHeld := false }))) ∧
  (∀ (s : State) (k : Nat), s.runs = true → k < 4 → (s.die.core k).halted = false → s.die.dbg.ni = true →
    exec (.debugHalt k) s = .next (s.withDie ((s.die.setCore k
      (if (s.die.core k).secure && !s.die.dbg.si then { (s.die.core k) with haltHeld := true }
       else { (s.die.core k) with halted := true })).wake 12))) ∧
  (∀ (s : State) (ta e : Nat) (write : Bool) (b : DbgData), s.runs = true →
    let t := fld (s.die.regR R.dbgBind) 9 0
    bit (s.die.regR R.dbgBind) 31 = true → s.die.dbg.ni = true → (s.die.ten t).st ≠ .free → s.die.entryOf t ta = some e →
    (s.die.bt e).st = .live →
    let sel := if s.die.portFcx (s.die.tenPort t) then b.key else none
    let k := s.die.remap (s.die.bt e).dlaBay (sel.getD (s.die.bt e).defKey)
    let dla := (s.die.bt e).dlaBay * 2 ^ 30 + ta % 2 ^ 30 / 64 * 64
    s.die.keyRefused t e k.1 sel.isSome k.2 write = false →
    let x := s.die.newTxn (internalHdr 12 0 ta) (if write then .wr else .rd) t e dla k.1 4 b.line (BitVec.allOnes 64)
    exec (.debugAccess ta write b) s = .next (s.withDie (s.die.toHome x)))

/-- Fetches by a core that stays in its world (R421, R422, R424): one that hits the core's caches asks nobody; in its own world's code
it fills a line of that world; a normal core's fetch of secure code that is no valid entry and a secure core's fetch outside the
secure ROM and SRAM are instruction access faults, taken at the vector of the core's own world (the cause and the saved registers are
the model's choice, log entry 152). A line filled in the secure world is hit in the secure world only. -/
def Obligations.CoreFetchesStayInTheirWorld : Prop :=
  (∀ (s : State) (k a ret : Nat), s.runs = true → s.die.active.coreRuns k = true → (s.die.active.core k).secure = false →
    ¬(entryPoint a = true ∧ bit (s.die.active.regR R.mulWorld) (24 + k) = true) →
    let d := s.die.active
    let c := d.core k
    (c.hits a = true → exec (.gateEntry k a ret) s = .next (s.withDie (d.setCore k { c with pc := a }))) ∧
    (c.hits a = false → d.secureCode a = false →
      exec (.gateEntry k a ret) s = .next (s.withDie (d.setCore k { c.fill a with pc := a }))) ∧
    (c.hits a = false → d.secureCode a = true →
      exec (.gateEntry k a ret) s = .next (s.withDie ((d.setCore k
        { c with epc := a, cause := 1, tval := a, pc := c.vec, resv := false }).windowDeny (coreSrc false) a false)))) ∧
  (∀ (s : State) (k a : Nat), s.runs = true → s.die.active.coreRuns k = true → (s.die.active.core k).secure = true → a ≠ 0xfc0 →
    let d := s.die.active
    let c := d.core k
    (c.hits a = true → exec (.gateExit k a) s = .next (s.withDie (d.setCore k { c with pc := a }))) ∧
    (c.hits a = false → d.secureCode a = true →
      exec (.gateExit k a) s = .next (s.withDie (d.setCore k { c.fill a with pc := a }))) ∧
    (c.hits a = false → d.secureCode a = false →
      exec (.gateExit k a) s = .next (s.withDie (d.setCore k
        { c with epc := a, cause := 1, tval := a, pc := c.secVec, resv := false })))) ∧
  (∀ (c : Core) (a b : Nat), b / 64 = a / 64 →
    (c.fill a).hits b = true ∧ (c.secure = true → ({ c.fill a with secure := false } : Core).hits b = false))

/-! ## Ports, power, sensors and telemetry (R31–R52, R76, R467–R484, R500–R513) -/

/-- Port events: PERST# of at least 1 μs takes a link down and its release trains it; a trained link comes up at what both sides
support; a failed training keeps it down; a retraining of an enabled port takes the committed fields, counts and reports a new rate
(the model's reading of R69, log entry 118); an integrity failure takes the port's link down. -/
def Obligations.PortEventsComplete : Prop :=
  (∀ (s : State) (p ns : Nat), s.runs = true → p < 6 → 1000 ≤ ns → (s.die.port p).perst = false →
    exec (.perstAssert p ns) s = .next (s.withDie
      ((((s.die.setPort p { (s.die.port p) with perst := true }).linkDown p).event (R.hptEvent p) 0).wake p))) ∧
  (∀ (s : State) (p : Nat), s.runs = true → p < 6 → (s.die.port p).perst = true →
    exec (.perstDeassert p) s = .next (s.withDie ((s.die.setPort p { (s.die.port p) with perst := false }).train13 p))) ∧
  (∀ (s : State) (p : Nat), s.runs = true → p < 6 → (s.die.port p).linkUp = true →
    exec (.linkDown p) s = .next (s.withDie (s.die.linkDown p))) ∧
  (∀ (s : State) (p : Nat) (l : LinkInfo), s.runs = true → p < 6 → (s.die.port p).training = true →
    exec (.linkTrainingDone p (some l)) s = .next (s.withDie (s.die.linkUp p l).active)) ∧
  (∀ (s : State) (p : Nat), s.runs = true → p < 6 → (s.die.port p).training = true →
    exec (.linkTrainingDone p none) s = .next (s.withDie
      ((s.die.setPort p { (s.die.port p) with training := false }).event (R.hptEvent p) 7))) ∧
  (∀ (s : State) (p : Nat) (l : LinkInfo), s.runs = true → p < 6 → (s.die.port p).linkUp = true →
    bit (s.die.portCfg p) 0 = true →
    let x : Port := { (s.die.port p) with cfg := s.die.portCfg p }
    let k := x.limit { l with flit := x.flit }
    let y : Port := { x with speed := k.speed, x8 := k.x8, retrains := min (x.retrains + 1) 255 }
    exec (.linkRetrain p l) s = .next (s.withDie
      ((s.die.relink p (if y.rate = x.rate then y else { y with report := some y.rate })).event (R.hptEvent p) 2))) ∧
  (∀ (s : State) (p : Nat), s.runs = true → p < 6 → (s.die.port p).linkUp = true →
    ((s.die.port p).ideMem ≠ 0 ∨ (s.die.port p).ideIo = true) →
    exec (.ideIntegrityFail p) s = .next (s.withDie
      ((((s.die.event (R.hptEvent p) 6).emit (.aerFatal p)).linkDown p).record (unitHpt p) 0x26 1 0xff 0xffff 0 0)))

/-- Power events: a settled voltage lets a level change end, SL1 stops its clocks once idle, SL2 is entered once quiet and left by
a wake-up source or the timer, SL3 goes step by step, and each exit ends with its request. -/
def Obligations.PowerEventsComplete : Prop :=
  (∀ (s : State) (r : PwrReq), s.runs = true → s.die.pwr.settling = true → s.die.pwr.inflight = some r → r.code ≤ 4 →
    let d1 := { s.die with pwr := { s.die.pwr with settling := false, back := if s.die.pwr.back = 1 then 2 else s.die.pwr.back } }
    exec .vsettleDone s = .next (s.withDie (if s.die.pwr.freqDone then
        ({ d1 with pwr := { d1.pwr with commanded := r.code - 1 } }.endRequest St.success).event R.pwrEvent 1
      else { d1 with pwr := { d1.pwr with settled := true } }))) ∧
  (∀ s : State, s.runs = true → s.die.pwr.st = .sl1 false → s.die.idle = true →
    exec .sl1ClockStop s = .next (s.withDie { s.die with pwr := { s.die.pwr with st := .sl1 true } })) ∧
  (∀ s : State, s.runs = true → s.die.pwr.st = .sl2Entry →
    let d1 := (s.die.abandonMoves fun _ => true).dropMoverOps
    d1.quietForSleep = true →
    let m := d1.pwr.present ||| d1.levelSources
    exec .sl2Entry s = .next (s.withDie
      (if m &&& d1.pwr.wakeMask = 0 then { d1 with pwr := { d1.pwr with st := .sl2, present := m, sleepStart := d1.time } }
       else { d1 with pwr := { d1.pwr with st := .sl2Exit, present := m, sleepStart := d1.time, sleepEnd := d1.time } }))) ∧
  (∀ (s : State) (n : Nat), s.runs = true → s.die.pwr.st = .sl3Entry n → n < 6 →
    exec (.sl3Entry (n + 1)) s = .next (s.withDie (s.die.sl3Step (n + 1)))) ∧
  (∀ (s : State) (b : Nat), s.ohm.released = true → s.die.boot.hold = false → b < 16 → s.die.pwr.wakeMask.testBit b = true →
    let woken (st : PwrSt) : Die :=
      { s.die with pwr := { s.die.pwr with st := st, present := s.die.pwr.present ||| 2 ^ b, sleepEnd := s.die.time } }
    (s.die.pwr.st = .sl2 → exec (.wakeSource b) s = .next (s.withDie (woken .sl2Exit))) ∧
    (s.die.pwr.st = .sl3 → exec (.wakeSource b) s = .next (s.withDie (woken .sl3Exit)))) ∧
  (∀ s : State, s.ohm.released = true → s.die.boot.hold = false → s.die.wakeTime ≤ s.die.time →
    s.die.pwr.sleepStart < s.die.wakeTime → s.die.pwr.st = .sl2 → s.die.pwr.wakeMask.testBit 10 = true →
    exec .wakeTimer s = .next (s.withDie { s.die with pwr := { s.die.pwr with
      st := .sl2Exit, present := s.die.pwr.present ||| 2 ^ 10, sleepEnd := s.die.time } })) ∧
  (∀ s : State, s.runs = true → s.die.pwr.st = .sl2Exit →
    let d1 := { s.die with pwr := { s.die.pwr with st := .run }, pmu := { s.die.pmu with gapDue := true } }
    exec .sl2ExitDone s = .next (s.withDie
      (((d1.recordWake s.die.pwr.present).endRequest St.success).event R.pwrEvent 2).drainDeferred)) ∧
  (∀ s : State, s.runs = true → s.die.pwr.st = .sl3Exit →
    let d1 := s.die.loadL3
    let d2 := { d1 with pwr := { d1.pwr with st := .run }, pmu := { d1.pmu with gapDue := true } }
    exec (.sl3ExitDone []) s = .next (s.withDie
      (((d2.recordWake d1.pwr.present).endRequest St.success).event R.pwrEvent 2).drainDeferred))

/-- Sensors, telemetry and the transom: a DIMM reading updates its sensor and its channel's level, an SPD interrupt and a warm die
sensor wake, a snapshot starts its record, a written record moves PROD, a wrapping counter wraps, and the reference clock advances
to the next multiple of 50 cycles, where a live die that has begun start-up takes its boundary (R71). -/
def Obligations.SensorAndTelemetryEventsComplete : Prop :=
  (∀ (s : State) (ch slot : Nat) (r : DimmReading), s.runs = true → ch < 16 → slot < 2 →
    let n := 2 * ch + slot
    let d1 := if r.ok then s.die.readGood n r else s.die.readFailed ch n
    let d2 := d1.setChan ch { (d1.chan ch) with levelNext := d1.levelAfter ch }
    ¬(r.ok = true ∧ (2 ≤ (d2.dimm n).crit ∨ r.critical = true)) → (r.ok = true → r.present = true) →
    exec (.dimmReading ch slot r) s = .next (s.withDie d2)) ∧
  (∀ (s : State) (ch slot : Nat), s.ohm.released = true → s.die.boot.hold = false → ch < 16 → slot < 2 →
    s.die.pwr.st = .sl2 → s.die.pwr.wakeMask.testBit 11 = true →
    exec (.spdInterrupt ch slot) s = .next (s.withDie { s.die with pwr := { s.die.pwr with
      st := .sl2Exit, present := s.die.pwr.present ||| 2 ^ 11, sleepEnd := s.die.time } })) ∧
  (∀ (s : State) (sensor : Nat) (temp : Int), s.runs = true → s.die.flt.sensorsOut.contains sensor = false →
    temp < Int.ofNat (fld (s.die.act R.pwrTherm) 15 8) → temp < Int.ofNat (fld (s.die.act R.pwrTherm) 23 16) →
    exec (.dieSensorReading sensor temp) s = .next (s.withDie
      { s.die with pwr := { s.die.pwr with sensors := s.die.pwr.sensors.insert sensor temp } })) ∧
  (∀ s : State, s.runs = true → s.die.telOn = true → s.die.pwr.st.code < 2 →
    let n := s.die.transom + 1
    n % 2 ^ s.die.telPeriod = 0 → s.die.pmu.snapped ≠ n →
    let d1 := s.die.active.gapBoundary n
    exec .dumpSnapshot s = .next (s.withDie ({ d1 with pmu := { d1.pmu with snapped := n } }.startRecord false n))) ∧
  (∀ (s : State) (r : DumpRec), s.runs = true → s.die.pmu.dump = some r →
    s.die.txns.any (fun (t : Txn) => decide (t.master = 11) && decide (t.tag = 1)) = false →
    let d1 := { s.die with pmu := { s.die.pmu with dump := none } }
    let p : Pmu := { d1.pmu with prod := d1.nextProd, rseq := (d1.pmu.rseq + 1) % 2 ^ 32, lost := 0, resetSeen := false }
    let d3 := ({ d1 with pmu := p }.writeHeader false).event R.pmuEvent 2
    exec (.dumpRecordDone r.slot) s = .next (s.withDie (if r.failed then d1.telDrop else if r.gap then d3.event R.pmuEvent 5 else d3))) ∧
  (∀ (s : State) (k n : Nat), s.runs = true → k ≤ 511 → s.die.counting = true → ¬(s.die.pmuChained k = true ∧ k % 2 = 1) →
    fld (s.die.act (R.pmuSel k)) 11 0 ≠ 0 → 2 ^ 48 ≤ s.die.pmuVal k + n →
    exec (.counterWrap k n) s = .next (s.withDie (s.die.pmuAdd k n))) ∧
  (∀ s : State, s.ohm.released = true →
    let n := 50 - s.die.time % 50
    let d1 := if s.die.live then s.die.tally 0x1 (n * fabricPerRef s.die.pwr.level) [scDev] else s.die
    let d2 := d1.advance n
    exec .transomBoundary s = .next (s.withDie (if d2.time % 50 = 0 ∧ d2.live ∧ d2.boot.started then d2.boundary else d2)))


/-! ## Faults, self-test, spares and start-up (R13–R30, R514–R562) -/

/-- Detections: a hang is charged back by the watchdog time, an interface time-out too, an error of a unit that has it is
recorded, a parity error of the fault unit stops the doors, a stale output quarantines its unit. -/
def Obligations.DetectionEventsComplete : Prop :=
  (∀ (s : State) (u : Nat), s.runs = true → unitOk u = true →
    let d1 := s.die.record u 0x31 1 0xff 0xffff 0 0
    let early (i : Intr) : Intr := if i.unit = u ∧ i.reread.isNone then { i with start := s.die.time - s.die.watchdog } else i
    exec (.watchdogHang u) s = .next (s.withDie { d1 with flt := { d1.flt with intrs := d1.flt.intrs.map early } })) ∧
  (∀ (s : State) (u : Nat), s.runs = true → unitOk u = true →
    let d0 := if 0x10 ≤ u ∧ u < 0x24 then s.die.event R.xbrEvent 0 else s.die
    let d1 := d0.record u 0x34 1 0xff 0xffff 0 0
    let early (i : Intr) : Intr := if i.unit = u ∧ i.reread.isNone then { i with start := d0.time - d0.watchdog } else i
    exec (.ifTimeout u) s = .next (s.withDie { d1 with flt := { d1.flt with intrs := d1.flt.intrs.map early } })) ∧
  (∀ (s : State) (e : UnitErr), s.runs = true → detects e.unit e.code = true → [0x50, 0x51, 0x52].contains e.code = true →
    exec (.unitErrorDetected e) s =
      .next (s.withDie (s.die.record e.unit e.code (classOf e.code) 0xff 0xffff 0 0))) ∧
  (∀ (s : State) (e : UnitErr), s.runs = true → detects e.unit e.code = true → e.code = 0x30 ∨ e.code = 0x66 →
    exec (.unitErrorDetected e) s = .next (s.withDie
      (s.die.record e.unit e.code (classOf e.code) 0xff 0xffff e.addr (e.syndrome % 2 ^ 32)))) ∧
  (∀ (s : State) (e : UnitErr), s.runs = true → detects e.unit e.code = true → e.code = 0x10 →
    exec (.unitErrorDetected e) s = .next (s.withDie
      ((s.die.event (R.chaEvent (e.unit - 0x28)) 6).record e.unit 0x10 0 0xff 0xffff 0 0))) ∧
  (∀ s : State, s.runs = true →
    exec .fltSelfParity s =
      .next (s.withDie ({ s.die with flt := { s.die.flt with selfParity := true } }.doorstop 0xb6 0x53 none))) ∧
  (∀ (s : State) (u epoch i : Nat), s.runs = true → epochIndex u = some i → epoch % 16 ≠ s.die.unitEpoch u →
    let f := s.die.flt
    let f1 : Flt := { f with
      quarantine := if f.quarantine.contains u then f.quarantine else f.quarantine ++ [u]
      tests := f.tests.map fun (x : Test) => if x.kind = 3 ∧ x.unit = u then { x with queued := s.die.time } else x }
    exec (.staleOutput u epoch) s = .next (s.withDie
      ((({ s.die with flt := f1 }.count R.fltStaleEpoch 1).event R.fltEvent 5).record u 0x32 0 0xff 0xffff 0 (epoch % 16))))

/-- Tests, interruptions and doorstop: a test ends with its result and what follows it, a test that waited too long is skipped, an
interruption and a shadow end, a drained doorstop is marked, a substitution takes its spare, a closed injection window lets the
fault act. -/
def Obligations.SelfTestEventsComplete : Prop :=
  (∀ (s : State) (ch slot row : Nat) (passed : Bool) (r : RowRepair) (x : Test), s.runs = true →
    s.die.flt.tests.find? (fun (x : Test) => x.running && decide (x.kind = 2) && decide (x.unit = unitDimm ch slot) &&
      decide (x.row = row)) = some x →
    let lasting := !passed || x.forced
    let d0 := (s.die.endTest x).fillLost r.lost (s.die.inRow ch slot row)
    let d1 := ((d0.count R.stuRowTests 1).stuEnd 2 x.unit x.seq (if passed then 1 else 2)).markTested x.unit x.seq lasting
    exec (.rowTestDone ch slot row passed r) s =
      .next (s.withDie (if lasting then d1.rowFails ch slot row r.repairable else d1))) ∧
  (∀ (s : State) (ch : Nat) (lost : List Nat), s.runs = true → (s.die.chan ch).spare = 2 →
    let d1 := (s.die.fillLost lost (s.die.onDimm ch (s.die.chan ch).spareSlot)).setChan ch { (s.die.chan ch) with spare := 3 }
    exec (.rankSpareDone { ch := ch, lost := lost }) s = .next (s.withDie
      ((d1.event (R.mchEvent ch) 2).rowRecord ch (s.die.chan ch).spareSlot 0x43 0
        (Config.rowFirst ch (s.die.chan ch).spareSlot (s.die.chan ch).spareRow)))) ∧
  (∀ (s : State) (u : Nat) (passed : Bool) (x : Test), s.runs = true →
    s.die.flt.tests.find? (fun (x : Test) => x.running && decide (x.kind = 3) && decide (x.unit = u)) = some x →
    let q := s.die.flt.quarantine.contains u
    let lasting := !passed || (x.forced && !q)
    let d1 := (((s.die.endTest x).count R.stuEngineTests 1).stuEnd 3 u x.seq (if passed then 1 else 2)).markTested u x.seq lasting
    exec (.engineTestDone u passed) s = .next (s.withDie
      (if q then d1.quarantineEnd u passed else if lasting then d1.engineLasting u x.row
       else if x.row = testOfReset then d1.resume u else d1))) ∧
  (∀ (s : State) (seq : Nat) (x : Test), s.runs = true →
    (s.die.flt.tests.filter fun (x : Test) => !x.running).find? (fun (x : Test) => decide (x.seq = seq)) = some x → x.kind = 3 →
    x.queued + 100000 ≤ s.die.time →
    let d1 := ((s.die.endTest x).stuEnd x.kind x.unit x.seq 3).markTested x.unit x.seq true
    exec (.testSkip seq) s = .next (s.withDie
      (if d1.flt.quarantine.contains x.unit then d1.quarantineEnd x.unit false else d1.engineLasting x.unit x.row))) ∧
  (∀ (s : State) (u : Nat), s.runs = true → s.die.flt.quarantine.contains u = true → s.die.flt.stuDisabled = false →
    s.die.flt.tests.any (fun (x : Test) => decide (x.kind = 3) && decide (x.unit = u)) = false →
    exec (.quarantineTestStart u) s = .next (s.withDie (s.die.addTest 3 u testAfter 0 false))) ∧
  (∀ (s : State) (u : Nat), s.runs = true →
    let close (x : Shadow) : Shadow := if x.unit = u ∧ x.ends.isNone then { x with ends := some (s.die.time + 100) } else x
    exec (.interruptionEnd u) s = .next (s.withDie { s.die with flt := { s.die.flt with
      intrs := s.die.flt.intrs.filter (fun (i : Intr) => decide (i.unit ≠ u) || i.reread.isSome), shadows := s.die.flt.shadows.map close } })) ∧
  (∀ (s : State) (u : Nat), s.runs = true →
    (∀ x : Shadow, x ∈ s.die.flt.shadows → x.unit = u → ∃ t, x.ends = some t ∧ t ≤ s.die.time) →
    exec (.shadowEnd u) s = .next (s.withDie { s.die with flt := { s.die.flt with
      shadows := s.die.flt.shadows.filter (fun (x : Shadow) => decide (x.unit ≠ u)) } })) ∧
  (∀ s : State, s.runs = true → s.die.flt.doorstop = true → s.die.flt.causeCode ≠ 0x55 → s.die.lane.isEmpty = true →
    s.die.wq.isEmpty = true →
    exec .doorstopDrainEnd s = .next (s.withDie { s.die with flt := { s.die.flt with drained := true } })) ∧
  (∀ (s : State) (u sp c : Nat), s.runs = true → 0x8c ≤ u →
    s.die.flt.subst.find? (fun (x : Nat × Nat × Nat) => decide (x.1 = u)) = some (u, sp, c) →
    let d1 := s.die.setChan c { (s.die.chan c) with codec := sp - 0x90 }
    let f := d1.flt
    let ep := match epochIndex u with
      | some i => f.epoch.set 0 i ((Tbl.get 0 f.epoch i + 1) % 16)
      | none => f.epoch
    let f1 : Flt := { f with subst := f.subst.filter (fun (y : Nat × Nat × Nat) => decide (y.1 ≠ u)), epoch := ep,
                             dead := u :: f.dead, quarantine := f.quarantine ++ [u] }
    exec (.substitutionDone u []) s = .next (s.withDie (({ d1 with flt := f1 }.resume u).laneRoom c))) ∧
  (∀ (s : State) (r : Rec), s.runs = true → s.die.flt.injWait = some r →
    let left := s.die.flt.injOpen.filter fun (x : Nat × Nat) => decide (s.die.time < x.2)
    left.any (fun (x : Nat × Nat) => decide (x.1 = r.unit)) = false →
    exec .injectWindowClose s = .next (s.withDie
      ({ s.die with flt := { s.die.flt with injOpen := left, injWait := none } }.doorstop r.unit r.code (some r))))

/-- Start-up and the link: a step that ends enters the next (or its failure), a step whose watchdog fires fails, the last step
ends start-up; a frame arrives, the link's loss and the entry's are recorded. -/
def Obligations.StartupEventsComplete : Prop :=
  (∀ (s : State) (i : StepInfo), s.runs = true → s.die.starting = true → s.die.boot.fatal = none → i.ok = true →
    (s.die.boot.step = 2 → exec (.startupStepDone i) s = .next (s.withDie
      ((s.die.step2 i.bits s.ohm.record.trips s.ohm.record.cause).enterStep 3))) ∧
    (s.die.boot.step = 3 → exec (.startupStepDone i) s = .next (s.withDie (s.die.step3.enterStep 4))) ∧
    (s.die.boot.step = 14 → exec (.startupStepDone i) s = .next (s.withDie (s.die.memActive.enterStep 15))) ∧
    (s.die.boot.step = 15 →
      let d1 := s.die.keepWrite 0 (setFld (setFld (s.die.keep 0) 27 27 1) 19 16 0)
      let d2 := d1.keepFld 3 0 0 d1.boot.image
      exec (.startupStepDone i) s = .next (s.withDie { d2 with boot := { d2.boot with done := true } }))) ∧
  (∀ (s : State) (i : StepInfo), s.runs = true → s.die.starting = true → s.die.boot.fatal = none → i.ok = false →
    s.die.boot.step ≠ 5 → s.die.boot.step ≠ 8 → s.die.boot.step ≠ 9 →
    exec (.startupStepDone i) s = .next (s.withDie (s.die.stepFail s.die.boot.step 3 i.unit i.bits i.secure))) ∧
  (∀ s : State, s.runs = true → s.die.starting = true →
    exec .stepWatchdog s = .next (s.withDie (s.die.stepFail s.die.boot.step 2 0xff [] false))) ∧
  (∀ (s : State) (f : Frame) (rest : List Frame), s.ohm.released = true → s.die.boot.hold = false → s.link = f :: rest →
    f.st = .good → f.events = 0 →
    exec .ohmStatusFrame s = .next { s with link := rest, die := { s.die with ohmSeen := some f } }) ∧
  (∀ s : State, s.runs = true →
    exec .ohmLinkLost s = .next (s.withDie ((s.die.event R.ohmEvent 0).record unitOhm 0x60 0 0xff 0xffff 0 0))) ∧
  (∀ s : State, s.runs = true → s.ohm.leaving = true →
    exec .entryLoss s = .next (s.withDie (s.die.record unitOhm 0x55 2 0xff 0xffff 0 0)))

/-! ## Ohmoux (R441–R464) -/

/-- The input (R443, R453, R455, R459, R460): VBUS through 10.2 V reads the straps and acts on the record, a bad record becomes COOLDOWN
with cause RECORD_BAD; a fall stops Ohmoux; an over-voltage holds it off, but in FET_SHORT, and its end acts on the record. -/
def Obligations.OhmouxInputEventsComplete : Prop :=
  (∀ (s : State) (mv : Nat) (straps : Straps), s.ohm.powered = false →
    let o : Ohm := { s.ohm with powered := true, vbusOk := true, vbus := mv, straps := straps, debounced := false, feedAOk := true,
                                feedBOk := true, feedAOn := true, feedBOn := true }
    exec (.vbusRise mv straps none) s = .next (s.withOhm (match s.ohm.record.rstate with
      | .clear => { o with st := .waitPresent, fltN := false }
      | .cooldown => { o with st := .cooldown, fltN := true }
      | .latched => { o with st := .latched, fltN := true }
      | .fetShort => { o with st := .fetShort, fltN := true }))) ∧
  (∀ (s : State) (mv b : Nat) (straps : Straps), s.ohm.powered = false →
    exec (.vbusRise mv straps (some b)) s = .next (s.withOhm { s.ohm with
      powered := true, vbusOk := true, vbus := mv, straps := straps, debounced := false, feedAOk := true, feedBOk := true,
      feedAOn := true, feedBOn := true, cdh := 2500, st := .cooldown, fltN := true,
      record := { s.ohm.record with rstate := .cooldown, cause := 7, retries := if b % 16 < 4 then b / 16 % 8 else 0 } })) ∧
  (∀ (s : State) (mv : Nat), s.ohm.powered = true → exec (.vbusFall mv) s = .next (s.withOhm { s.ohm with
    st := .init, gate := false, entry := false, seqEn := 0, pg := 0, released := false, vout := 0, leaving := false, powered := false,
    vbusOk := false, vbus := mv, debounced := false, fltN := false, killN := false, feedAOk := false, feedBOk := false,
    feedAOn := false, feedBOn := false, events := 0, last := none })) ∧
  (∀ (s : State) (mv : Nat), s.ohm.powered = true → s.ohm.st ≠ .fetShort →
    exec (.vbusOvervoltage mv) s = .next (s.withOhm { s.ohm with
      st := .holdOff, gate := false, entry := false, seqEn := 0, pg := 0, released := false, vout := 0, leaving := false,
      vbusOk := false, vbus := mv, debounced := false, fltN := false })) ∧
  (∀ (s : State) (mv : Nat), s.ohm.st = .holdOff →
    let o : Ohm := { s.ohm with vbusOk := true, vbus := mv }
    exec (.vbusOvResume mv) s = .next (s.withOhm (match s.ohm.record.rstate with
      | .clear => { o with st := .waitPresent, fltN := false }
      | .cooldown => { o with st := .cooldown, fltN := true }
      | .latched => { o with st := .latched, fltN := true }
      | .fetShort => { o with st := .fetShort, fltN := true })))

/-- Presence (R442, R452, R459, R460): PRSNT_N low for 50 ms ramps a clear record with VBUS in range, and a cooling one once CDH is at
or below V_END; its rise ends a ramp or a sequence, going on by the record, and, in GOOD, sends ENTRY_LOSS before an orderly shutdown; an absence of 60 s ends a
latch-off. In every state of a powered Ohmoux. -/
def Obligations.PresenceEventsComplete : Prop :=
  (∀ (s : State) (cdh : Nat), s.ohm.powered = true →
    let o : Ohm := { s.ohm with prsnt := true, debounced := true }
    exec (.presenceDebounced cdh) s = .next (s.withOhm
      (if s.ohm.st = .waitPresent then
        if s.ohm.vbusOk then { o with st := .ramp, gate := true, fltN := false } else o
      else if s.ohm.st = .cooldown then
        if s.ohm.vbusOk = true ∧ cdh ≤ vEnd s.ohm.straps.cool then { o with cdh := cdh, st := .ramp, gate := true, fltN := false }
        else { o with cdh := cdh }
      else if s.ohm.st = .holdOff then { s.ohm with prsnt := true }
      else o))) ∧
  (∀ s : State, s.ohm.powered = true →
    let o : Ohm := { s.ohm with prsnt := false, debounced := false }
    let off : Ohm := { o with gate := false, entry := false, seqEn := 0, pg := 0, released := false, vout := 0, leaving := false }
    exec .prsntRise s = .next (s.withOhm
      (if s.ohm.st = .ramp ∨ s.ohm.st = .seq then (match s.ohm.record.rstate with
        | .clear => { off with st := .waitPresent, fltN := false }
        | .cooldown => { off with st := .cooldown, fltN := true }
        | .latched => { off with st := .latched, fltN := true }
        | .fetShort => { off with st := .fetShort, fltN := true })
      else if s.ohm.st = .good then { o with leaving := true }
      else o)).sendFrame) ∧
  (∀ s : State, s.ohm.leaving = true →
    exec .orderlyShutdown s = .next (s.withOhm { s.ohm with
      st := .waitPresent, gate := false, entry := false, seqEn := 0, pg := 0, released := false, vout := 0, leaving := false })) ∧
  (∀ s : State, s.ohm.st = .latched → s.ohm.prsnt = false →
    exec .presenceCycle s = .next (s.withOhm { s.ohm with
      st := .waitPresent, fltN := false, record := { s.ohm.record with retries := 0, rstate := .clear } }))

/-- The ramp and sequencing: entry good clears RSTATE, counts and raises SEQ_EN0; each enable follows the last one's power-good; the
last power-good releases the main die at start-up step 0. The end of a cool-down and the damaged pass FET (R450, R456): a
cool-down's end ramps where VBUS and presence allow it; VOUT above 1.0 V with GATE off is FET_SHORT; the check at power-up clears
it or asserts FEED_KILL_N again. -/
def Obligations.OhmouxAttemptsComplete : Prop :=
  (∀ (s : State) (vout : Nat), s.ohm.st = .ramp → s.ohm.vbus ≤ vout + 500 →
    exec (.entryGood vout) s = .next (s.withOhm { s.ohm with st := .seq, entry := true, vout := vout, seqEn := 1, record := { s.ohm.record with
      rstate := .clear, goods := min (s.ohm.record.goods + 1) 0xffffffff } })) ∧
  (∀ s : State, s.ohm.st = .seq → s.ohm.seqEn < 255 →
    exec .seqEnable s = .next (s.withOhm { s.ohm with pg := s.ohm.seqEn, seqEn := 2 * s.ohm.seqEn + 1 })) ∧
  (∀ s : State, s.ohm.st = .seq → s.ohm.seqEn = 255 →
    exec .mainDieRelease s = .next { s with
      ohm := { s.ohm with st := .good, pg := 255, released := true, events := 0 }
      die := { s.die with time := 0, boot := { s.die.boot with started := true, step := 0, fresh := true } }
      link := s.link ++ [{ s.ohm with st := .good, pg := 255, released := true }.frame] }) ∧
  (∀ s : State, s.ohm.st = .good → s.ohm.leaving = false →
    let o : Ohm := { s.ohm with record := { s.ohm.record with retries := 0 }, events := s.ohm.events ||| 32 }
    exec .goodRunClear s = .next { s with ohm := o }.sendFrame) ∧
  (∀ (s : State) (cdh : Nat), s.ohm.st = .cooldown →
    exec (.cooldownEnd cdh) s = .next (s.withOhm
      (if cdh ≤ vEnd s.ohm.straps.cool ∧ s.ohm.vbusOk = true ∧ s.ohm.debounced = true then
        { s.ohm with cdh := cdh, st := .ramp, gate := true, fltN := false }
      else { s.ohm with cdh := cdh }))) ∧
  (∀ (s : State) (vout : Nat), s.ohm.powered = true → s.ohm.gate = false → 1000 < vout →
    exec (.fetShortDetect vout) s = .next (s.withOhm { s.ohm with
      st := .fetShort, fltN := true, killN := true, seqEn := 0, vout := vout,
      record := { s.ohm.record with rstate := .fetShort, cause := 6 } })) ∧
  (∀ (s : State) (vout : Nat), s.ohm.st = .fetShort → s.ohm.killN = false → vout ≤ 1000 →
    exec (.fetShortRecheck vout) s = .next (s.withOhm { s.ohm with
      st := .waitPresent, fltN := false, record := { s.ohm.record with retries := 0, rstate := .clear } })) ∧
  (∀ (s : State) (vout : Nat), s.ohm.st = .fetShort → s.ohm.killN = false → 1000 < vout →
    exec (.fetShortRecheck vout) s = .next (s.withOhm { s.ohm with killN := true, vout := vout }))

/-- Trips (R447, R449, R460): each of `.fastTrip`, `.soaTrip`, `.rampTimeout`, `.pgTimeout` and `.pgLost k` (the rows of `tripRow`)
answers a next state in every state: in a state that lists it, it turns everything off, asserts FLT_N, charges CDH, uses a retry or
latches, and writes the record with its cause. Outside those states it has no effect, but for one that comes in the reference cycle of
another trip and that the state before that trip lists: the record then takes the first cause in the order of R447. -/
def Obligations.OhmouxTripsComplete : Prop :=
  let tripped (o : Ohm) (cause : Nat) : Ohm :=
    let more := decide (o.record.retries < retryMax o.straps.retry)
    { o with
      gate := false, entry := false, seqEn := 0, pg := 0, released := false, vout := 0, leaving := false, fltN := true, cdh := 2500,
      st := if more then .cooldown else .latched
      record := { o.record with retries := if more then o.record.retries + 1 else o.record.retries,
                                rstate := if more then .cooldown else .latched, cause := cause, trips := min (o.record.trips + 1) 0xffff } }
  ∀ (s : State) (c : Instr) (cause : Nat) (lists : OhmSt → Nat → Nat → Bool), tripRow c = some (cause, lists) →
    let o := s.ohm
    (lists o.st o.seqEn o.pg = true →
      exec c s = .next { s.withOhm (tripped o cause) with ohm := { tripped o cause with
        tripNow := some { cause := cause, st := o.st, seqEn := o.seqEn, pg := o.pg } } }) ∧
    (lists o.st o.seqEn o.pg = false → o.tripNow = none → exec c s = .next s) ∧
    (∀ n : TripNow, lists o.st o.seqEn o.pg = false → o.tripNow = some n →
      exec c s = .next (if lists n.st n.seqEn n.pg
        then { s with ohm := { o with record := { o.record with cause := min o.record.cause cause } } } else s))

/-- Feeds, status frames and the standby target (R448, R452, R462, R463): feed events report at once, a frame goes to a released
main die, OHM_CLEAR clears a latch-off and fails in every other state. -/
def Obligations.OhmouxReportsComplete : Prop :=
  (∀ s : State, s.ohm.powered = true →
    (exec (.oringReverse false) s =
      .next { s with ohm := { s.ohm with feedAOn := false, events := s.ohm.events ||| 2 } }.sendFrame) ∧
    (exec (.oringReverse true) s =
      .next { s with ohm := { s.ohm with feedBOn := false, events := s.ohm.events ||| 4 } }.sendFrame) ∧
    (exec (.feedLost false) s =
      .next { s with ohm := { s.ohm with feedAOk := false, events := s.ohm.events ||| 8 } }.sendFrame) ∧
    (exec (.feedLost true) s =
      .next { s with ohm := { s.ohm with feedBOk := false, events := s.ohm.events ||| 16 } }.sendFrame) ∧
    (exec (.oringTurnOn false) s = .next { s with ohm := { s.ohm with feedAOn := true, feedAOk := true } }.sendFrame) ∧
    (exec (.oringTurnOn true) s = .next { s with ohm := { s.ohm with feedBOn := true, feedBOk := true } }.sendFrame)) ∧
  (∀ s : State, s.ohm.powered = true → s.ohm.released = true →
    exec .statusFrameSend s = .next { s with link := s.link ++ [s.ohm.frame], ohm := { s.ohm with events := 0 } }) ∧
  (∀ (s : State) (seq : Nat), s.ohm.powered = true → (∀ l : Last, s.ohm.last = some l → ¬(l.seq = seq ∧ l.opcode = 0x0804)) →
    let last (st : Nat) : Option Last := some { seq := seq, opcode := 0x0804, reply := some (standbyReply 0x0804 seq st []) }
    let clear : EntryRec := { s.ohm.record with retries := 0, rstate := .clear }
    exec (.standbyOhmClear seq) s = .next (if s.ohm.st = .latched then
        { s with die := s.die.emit (.reply (standbyReply 0x0804 seq St.success [])),
                 ohm := { s.ohm with st := .waitPresent, fltN := false, record := clear, last := last St.success } }
      else
        { s with die := s.die.emit (.reply (standbyReply 0x0804 seq St.ohmNotLatched [])),
                 ohm := { s.ohm with last := last St.ohmNotLatched } })) ∧
  (∀ (s : State) (seq : Nat), s.ohm.powered = true → (∀ l : Last, s.ohm.last = some l → ¬(l.seq = seq ∧ l.opcode = 0x0803)) →
    let r := standbyReply 0x0803 seq St.success (s.ohm.frame.query (Config.iout s.die.draws))
    exec (.standbyOhmQuery seq) s = .next
      { s with die := s.die.emit (.reply r), ohm := { s.ohm with last := some { seq := seq, opcode := 0x0803, reply := some r } } })

/-! ## The machine: steps, packets, replies (R387–R396) -/

/-- One step runs the command at the front of the queue on the state with the queue's rest; on an empty queue one reference cycle
passes on a released main die, and nothing but the end of Ohmoux's cycle happens in reset: the model's choice (log entry 2), since the
table has no row for a tick. -/
def Obligations.StepRunsOldestCommand : Prop :=
  (∀ (s : State) (c : Instr) (rest : List Instr), s.pending = c :: rest → step s = exec c { s with pending := rest }) ∧
  (∀ s : State, s.pending = [] →
    let s1 := { s with ohm := { s.ohm with tripNow := none } }
    step s = .next (if s.ohm.released then s1.withDie (s.die.ticks 1) else s1))

/-- No command puts a command into the queue or takes one out of it. -/
def Obligations.CommandsLeaveTheQueue : Prop :=
  ∀ (c : Instr) (s t : State), exec c s = .next t → t.pending = s.pending

/-- Every packet command of the table is checked before anything else (R388, R393–R396): where one of the shared checks fails, the
command is answered with that check's status and detail and has no other effect. -/
def Obligations.EveryPacketIsCheckedFirst : Prop :=
  ∀ (c : Instr) (p : Packet) (s : State) (d0 : Die) (st det : Nat), packetRow c = some p → s.runs = true →
    s.die.active.take p.hdr p.op = some d0 → d0.isRepeat p.hdr p.op = false →
    let d1 := d0.keepLast (endpOf p.hdr.via) { seq := p.hdr.seq, opcode := p.op, reply := none }
    d1.hdrCheck p.hdr p.op p.roles p.want false = some (st, det) →
    exec c s = .next (s.withDie (d1.fail p.hdr p.op st det))

/-- NOT_READY and DOORSTOP_ACTIVE (R393) for every packet command of the table that CXL does not mark mismatched: before start-up
has ended it fails with NOT_READY; in doorstop every opcode but the five of R393 fails with DOORSTOP_ACTIVE. -/
def Obligations.PacketsRefusedBeforeStartAndInDoorstop : Prop :=
  ∀ (c : Instr) (p : Packet) (s : State) (d0 : Die), packetRow c = some p → s.runs = true →
    s.die.active.take p.hdr p.op = some d0 → d0.isRepeat p.hdr p.op = false →
    let d1 := d0.keepLast (endpOf p.hdr.via) { seq := p.hdr.seq, opcode := p.op, reply := none }
    (d0.boot.done = false → exec c s = .next (s.withDie (d1.fail p.hdr p.op St.notReady 0))) ∧
    (d0.boot.done = true → d0.boot.hold = false → d0.flt.doorstop = true → cxlMatches p.hdr p.op = true →
      ¬(p.op = 0x0100 ∨ p.op = 0x0900 ∨ p.op = 0x0b00 ∨ p.op = 0x0b06 ∨ p.op = 0x0d05) →
      exec c s = .next (s.withDie (d1.fail p.hdr p.op St.doorstopActive 0)))

/-- A packet command repeated on its endpoint is not executed again (R390): the kept reply goes out with REPLAYED, or an interim
reply while the command still runs; nothing else changes beyond the packet's arrival. On a transport other than a ring. -/
def Obligations.RepeatedPacketsAreReplayed : Prop :=
  ∀ (c : Instr) (p : Packet) (s : State) (d0 : Die) (l : Last), packetRow c = some p → s.runs = true → offRing p.hdr.via = true →
    s.die.active.take p.hdr p.op = some d0 → d0.lastOf (endpOf p.hdr.via) = some l → l.seq = p.hdr.seq → l.opcode = p.op →
    exec c s = .next (s.withDie (match l.reply with
      | some r => d0.sendReply { r with replayed := true }
      | none => d0.emit (.reply { via := p.hdr.via, seq := p.hdr.seq, opcode := p.op, interim := true, replayed := false,
                                            status := St.inProgress, detail := 0, payload := [] })))

/-- A reply of a transport other than a ring is the newest message out, is kept as its endpoint's reply where the endpoint's most
recent command is the one answered, and changes nothing outside the manager's bookkeeping (R387, R390). -/
def Obligations.RepliesGoOutAndAreKept : Prop :=
  ∀ (d : Die) (h : Hdr) (op st det : Nat) (payload : List PayVal), offRing h.via = true → paySize payload ≤ payMax h.via →
    let r : Reply := { via := h.via, seq := h.seq, opcode := op, interim := false, replayed := false, status := st, detail := det,
                       payload := payload }
    let d1 := d.answer h op st det payload
    d1.out = .reply r :: d.out ∧ d1 = { d with mgt := d1.mgt, out := d1.out } ∧
    (∀ l : Last, d.lastOf (endpOf h.via) = some l → l.seq = h.seq → l.opcode = op →
      d1.lastOf (endpOf h.via) = some { l with reply := some r }) ∧
    (∀ e : Endp, e ≠ endpOf h.via → d1.lastOf e = d.lastOf e)

/-- Replies off the rings, commit requests, counters and event bits leave all of memory as it was: the DRAM, the write queues, the
write buffers, the counter tree and the keyhole. -/
def Obligations.RepliesAndCommitsLeaveMemory : Prop :=
  let same (d e : Die) : Prop := e.dram = d.dram ∧ e.wq = d.wq ∧ e.lane = d.lane ∧ e.itr = d.itr ∧ e.keys = d.keys ∧
    e.home = d.home ∧ e.pmap = d.pmap ∧ e.hbc = d.hbc
  (∀ (d : Die) (h : Hdr) (op st det : Nat) (payload : List PayVal), offRing h.via = true → same d (d.answer h op st det payload)) ∧
  (∀ (d : Die) (g : Group) (cmd : Option Instr) (ws : List (Nat × Reg)), same d (d.commit g cmd ws)) ∧
  (∀ (d : Die) (o n : Nat), same d (d.count o n)) ∧
  (∀ (d : Die) (o b : Nat), same d (d.event o b))

/-! ## The two dies (R441–R460) -/

/-- While the main die is in reset, a command of the main die has no effect. -/
def Obligations.MainDieInResetIgnoresCommands : Prop :=
  ∀ (c : Instr) (s : State), s.ohm.released = false → ofOhmoux c = false → ofPerst c = false → ofLink c = false →
    exec c s = .next s

/-- No command of the main die changes the Ohmoux die, and none but a frame's arrival changes the frames under way. -/
def Obligations.MainDieCommandsLeaveOhmoux : Prop :=
  ∀ (c : Instr) (s t : State), ofOhmoux c = false → exec c s = .next t →
    t.ohm = s.ohm ∧ (ofLink c = false → t.link = s.link)

/-- After reset the block's supply state is legal. -/
def Obligations.ResetSupplyIsLegal : Prop := State.reset.supplyLegal = true

/-- Every step keeps the supply invariant: Ohmoux stays in a legal state (GATE on in RAMP, SEQ and GOOD only, the main die
released in GOOD only, FLT_N and FEED_KILL_N asserted in their states only), and a main die in reset has not begun to start. -/
def Obligations.EveryStepKeepsSupplyLegal : Prop :=
  ∀ s t : State, s.supplyLegal = true → step s = .next t → t.supplyLegal = true

/-- The main die leaves reset by the end of sequencing only: with every enable and its power-good up (R457, R458). -/
def Obligations.MainDieReleasedBySequenceOnly : Prop :=
  ∀ (c : Instr) (s t : State), s.ohm.released = false → exec c s = .next t → t.ohm.released = true →
    c = .mainDieRelease ∧ s.ohm.st = .seq ∧ s.ohm.seqEn = 255 ∧ t.die.boot.step = 0 ∧ t.die.boot.started = true

/-- The entry record changes at its own moments only (R454): a trip, an entry good, the clears of R451 and R452, FET_SHORT set or
cleared, the rewrite of a record found bad. -/
def Obligations.EntryRecordWrittenAtItsMomentsOnly : Prop :=
  ∀ (c : Instr) (s t : State), exec c s = .next t → t.ohm.record ≠ s.ohm.record →
    (c = .fastTrip ∨ c = .soaTrip ∨ c = .rampTimeout ∨ c = .pgTimeout ∨ ∃ k, c = .pgLost k) ∨ (∃ v, c = .entryGood v) ∨
    c = .goodRunClear ∨ c = .presenceCycle ∨ (∃ q, c = .standbyOhmClear q) ∨ (∃ v, c = .fetShortDetect v) ∨
    (∃ v, c = .fetShortRecheck v) ∨ ∃ mv straps b, c = .vbusRise mv straps (some b)

/-- A latch-off ends in RSTATE CLEAR by a presence cycle or an OHM_CLEAR on the standby target only, and with RETRIES 0 (R452). -/
def Obligations.LatchOffEndsByItsTwoWaysOnly : Prop :=
  ∀ (c : Instr) (s t : State), s.ohm.st = .latched → s.ohm.record.rstate = .latched → exec c s = .next t →
    t.ohm.record.rstate = .clear →
    (c = .presenceCycle ∨ ∃ q, c = .standbyOhmClear q) ∧ t.ohm.record.retries = 0 ∧ t.ohm.st = .waitPresent

/-- R451: after 60 s of continuous GOOD, RETRIES becomes 0 in the entry record, and RETRY_CLEARED goes out in a frame at once. -/
def Obligations.GoodRunClearsRetries : Prop :=
  ∀ s : State, s.ohm.st = .good → s.ohm.leaving = false → s.ohm.released = true →
    ∃ f : Frame, exec .goodRunClear s = .next { s with
        ohm := { s.ohm with record := { s.ohm.record with retries := 0 }, events := 0 }
        link := s.link ++ [f] } ∧
      f.events.testBit 5 = true ∧ f.record.retries = 0 ∧ f.st = .good

/-! ## Registers, memory, counters -/

/-- R17: the home slice of a line is CHA(h), h = DLA[8:6] XOR DLA[11:9] XOR DLA[14:12], one of eight. -/
def Obligations.HomeSliceOfALine : Prop :=
  ∀ dla : BitVec 64,
    BitVec.ofNat 3 (homeOf dla.toNat) = dla.extractLsb' 6 3 ^^^ dla.extractLsb' 9 3 ^^^ dla.extractLsb' 12 3 ∧ homeOf dla.toNat < 8

/-- R412: a normal-world access to the secure window (which a tenant LD's BAR0 does not show, R45) reads 0 or writes nothing; DBG_WIN_DENY rises, DBG_WIN_LAST records the
access, DBG_EVENT.WINDOW_DENY sets, every other register and the fault collector stay as they were. -/
def Obligations.SecureWindowRefusesTheNormalWorld : Prop :=
  ∀ (s : State) (src : Src) (offset value : Nat) (write : Bool), s.window src = true → inSecureWindow offset = true → offset % 4 = 0 →
    srcSecure src = false →
    ∃ d : Die, exec (.secureWindowAccess src offset write value) s =
        .next (s.withDie (if write then d else d.emit (.regData src offset 0))) ∧
      d.regR R.dbgWinDeny = BitVec.ofNat 32 (min ((s.die.regR R.dbgWinDeny).toNat + 1) 0xffffffff) ∧
      d.regR R.dbgWinLast = BitVec.ofNat 32
        (b2n write * 2 ^ 31 + (if src.jtag then 13 else src.master) % 16 * 2 ^ 24 + offset % 2 ^ 24) ∧
      bit (d.regR R.dbgEvent) 3 = true ∧
      (∀ b, b ≠ 3 → bit (d.regR R.dbgEvent) b = bit (s.die.regR R.dbgEvent) b) ∧
      (∀ o, o ≠ R.dbgWinDeny → o ≠ R.dbgWinLast → o ≠ R.dbgEvent → d.regR o = s.die.regR o) ∧
      d.flt = s.die.flt ∧ d.kps = s.die.kps ∧ d.dbl = s.die.dbl ∧ d.dbg = s.die.dbg ∧ d.keys = s.die.keys ∧ d.dram = s.die.dram

/-- R108: while GO reads 1, a write to a staged field of the group, by a source that may write it, is dropped and sets WR_DROP, and
a further 1 written to GO has no effect. -/
def Obligations.GoHoldsStagedFields : Prop :=
  ∀ (s : State) (src : Src) (g : Group), s.runs = true → s.die.mayWrite src = true →
    (∀ (offset value : Nat) (row : RegRow), regRow offset = some row → row.acc = .rws → groupOfReg offset = some g →
      offset % 4 = 0 → offset < 0x1000000 → (inSecureWindow offset = true → srcSecure src = true) →
      (s.die.regWake offset).going g = true →
      exec (.registerWrite src offset 4 value) s = .next (s.withDie ((s.die.regWake offset).regW (Group.commitReg g)
        (setFld ((s.die.regWake offset).regR (Group.commitReg g)) 30 30 1)))) ∧
    ((s.die.regWake (Group.commitReg g)).going g = true →
      exec (.commitGo src g) s = .next (s.withDie (s.die.regWake (Group.commitReg g))))

/-- A granule whose minor is 0 (as delivered with its keystream where one was formed before, R247, else as it stands) reads as zeros
whatever stands in DRAM and whatever arrives from it (R202). -/
def Obligations.UnwrittenGranuleReadsZeros : Prop :=
  ∀ (s : State) (id dga major : Nat) (t : Txn) (a : Arrival), s.runs = true → s.die.txn? id = some t → s.die.expects t dga = true →
    s.die.itr.isLost dga = false → s.die.bufferedBefore dga t.seq = none →
    (((t.ks.find? fun x => decide (x.1 = dga)).map fun x => (x.2.1, x.2.2.1)) <|> s.die.itr.counter dga) = some (major, 0) →
    let d1 := { s.die with itr := s.die.itr.touch (nodeKey 0 (nodeIdx 0 dga)) }
    exec (.granuleReadReturn id dga a) s =
      .next (s.withDie (d1.granuleResult { t with slip := t.slip || a.slip } dga (.data 0) false false))

/-- A granule sealed under a key and counter opens to its line under them (R224, R226, R245), and to poison where it was stored as
poison. -/
def Obligations.SealedGranuleOpens : Prop :=
  ∀ (key kidx dga major minor kind : Nat) (plain : Line) (ecc : Ecc), minor ≠ 0 → ecc ≠ .uncorrectable →
    verdict key kidx dga major minor kind (sealGranule key kidx dga major minor kind false plain) ecc = .data plain ∧
    verdict key kidx dga major minor kind (sealGranule key kidx dga major minor kind true plain) ecc = .poisoned

/-- A queued store is what a read of its granule gets, and no other granule's (R22); its issue puts it into DRAM, changes no other
granule of DRAM and keeps the canonical form of memory. -/
def Obligations.StoresReachTheirGranuleOnly : Prop :=
  (∀ (d : Die) (e : LaneEnt) (g : Granule) (a : Nat),
    (d.queueWrite e g).heldGranule a = if a = e.dga then g else d.heldGranule a) ∧
  (∀ (d : Die) (x : Xfer) (w : WqEnt), Tbl.wf Granule.blank d.dram = true → x.write = true →
    d.wq.find? (fun w => decide (w.dga = x.dga)) = some w →
    Tbl.wf Granule.blank (d.issue x).dram = true ∧ (d.issue x).granule x.dga = w.g ∧
    ∀ a, a / 64 ≠ x.dga / 64 → (d.issue x).granule a = d.granule a) ∧
  (∀ (d : Die) (x : Xfer), x.write = false → (d.issue x).dram = d.dram)

/-- A wrapping counter keeps its low 48 bits, sets its overflow bit and PMU_EVENT.OVF (R524, R527); no other counter changes. -/
def Obligations.WrappingCounterSetsItsOverflow : Prop :=
  ∀ (s : State) (k n : Nat), s.runs = true → k ≤ 511 → s.die.counting = true → s.die.pmuChained k = false →
    fld (s.die.act (R.pmuSel k)) 11 0 ≠ 0 → Tbl.wf 0 s.die.pmu.ctr = true → 2 ^ 48 ≤ Tbl.get 0 s.die.pmu.ctr k + n →
    ∃ d : Die, exec (.counterWrap k n) s = .next (s.withDie d) ∧
      Tbl.get 0 d.pmu.ctr k = (Tbl.get 0 s.die.pmu.ctr k + n) % 2 ^ 48 ∧ d.pmu.ovf.contains k = true ∧
      (∀ j, j ≠ k → Tbl.get 0 d.pmu.ctr j = Tbl.get 0 s.die.pmu.ctr j) ∧ bit (d.regR R.pmuEvent) 1 = true ∧ d.dram = s.die.dram

/-- Louvre STEP (R132): at a boundary each louvre's STEP is the number of its seven thresholds reached, 0 where TARGET is 0, and
its effective priority is the larger of its priority and STEP. -/
def Obligations.LouvreStepCountsThresholds : Prop :=
  ∀ (d : Die) (v : Nat), v < 256 → Tbl.wf Lv.init d.lv = true →
    let e := (d.louvre v).e
    let target := fld (d.act (R.lvrTarget v)) 15 0 * 10
    let x := d.louvreBoundary.louvre v
    (target = 0 → x.step = 0) ∧
    (target ≠ 0 → x.step = ([4, 5, 6, 7, 8, 10, 12].filter fun k => decide (8 * e ≥ k * target)).length) ∧
    x.step ≤ 7 ∧ x.prio = max (fld (d.act (R.lvrTarget v)) 18 16) x.step
end

