-- ==== Sys2Proof/Laws/Table.lean ====
section
/-! SUPPORT. Laws/Table.lean: the sparse tables of the state: reading after writing, and the canonical form kept. -/

namespace Sys2Proof

theorem Tbl.wfFrom_mono {α : Type} [DecidableEq α] (d : α) (t : Tbl α) :
    ∀ {m n : Nat}, m ≤ n → Tbl.wfFrom d n t = true → Tbl.wfFrom d m t = true := by
  cases t with
  | nil => intros; rfl
  | cons e t =>
    obtain ⟨i, v⟩ := e
    intro m n hmn h
    simp only [Tbl.wfFrom, Bool.and_eq_true, decide_eq_true_eq] at h ⊢
    exact ⟨⟨Nat.le_trans hmn h.1.1, h.1.2⟩, h.2⟩

theorem Tbl.erase_wfFrom {α : Type} [DecidableEq α] (d : α) (t : Tbl α) (k : Nat) :
    ∀ n, Tbl.wfFrom d n t = true → Tbl.wfFrom d n (t.erase k) = true := by
  induction t with
  | nil => intros; rfl
  | cons e t ih =>
    obtain ⟨i, v⟩ := e
    intro n h
    have hc := h
    simp only [Tbl.wfFrom, Bool.and_eq_true, decide_eq_true_eq] at hc
    simp only [Tbl.erase]
    split
    · exact Tbl.wfFrom_mono d t (by omega) hc.2
    · split
      · exact h
      · simp only [Tbl.wfFrom, Bool.and_eq_true, decide_eq_true_eq]
        exact ⟨hc.1, ih _ hc.2⟩

theorem Tbl.insert_wfFrom {α : Type} [DecidableEq α] (d : α) (t : Tbl α) (k : Nat) (x : α) (hx : x ≠ d) :
    ∀ n, n ≤ k → Tbl.wfFrom d n t = true → Tbl.wfFrom d n (t.insert k x) = true := by
  induction t with
  | nil => intro n hn _; simp [Tbl.insert, Tbl.wfFrom, hn, hx]
  | cons e t ih =>
    obtain ⟨i, v⟩ := e
    intro n hn h
    have hc := h
    simp only [Tbl.wfFrom, Bool.and_eq_true, decide_eq_true_eq] at hc
    simp only [Tbl.insert]
    split
    · subst_vars; simp only [Tbl.wfFrom, Bool.and_eq_true, decide_eq_true_eq]; exact ⟨⟨hn, hx⟩, hc.2⟩
    · split
      · simp only [Tbl.wfFrom, Bool.and_eq_true, decide_eq_true_eq]
        exact ⟨⟨hn, hx⟩, ⟨by omega, hc.1.2⟩, hc.2⟩
      · simp only [Tbl.wfFrom, Bool.and_eq_true, decide_eq_true_eq]
        exact ⟨hc.1, ih _ (by omega) hc.2⟩

/-- A write keeps the canonical form. -/
theorem Tbl.set_wf {α : Type} [DecidableEq α] (d : α) (t : Tbl α) (k : Nat) (x : α) (h : Tbl.wf d t = true) :
    Tbl.wf d (Tbl.set d t k x) = true := by
  unfold Tbl.set Tbl.wf at *
  split
  · exact Tbl.erase_wfFrom d t k 0 h
  · exact Tbl.insert_wfFrom d t k x (by assumption) 0 (Nat.zero_le k) h

theorem Tbl.get_insert {α : Type} (d : α) (t : Tbl α) (k j : Nat) (x : α) :
    Tbl.get d (t.insert k x) j = if k = j then x else Tbl.get d t j := by
  induction t with
  | nil => simp [Tbl.insert, Tbl.get]
  | cons e t ih =>
    obtain ⟨i, v⟩ := e
    simp only [Tbl.insert]
    split
    · subst_vars; simp only [Tbl.get]; split <;> simp_all
    · split
      · simp [Tbl.get]
      · simp only [Tbl.get, ih]; split <;> simp_all <;> omega

theorem Tbl.get_of_wfFrom {α : Type} [DecidableEq α] (d : α) (t : Tbl α) (k : Nat) :
    ∀ n, k < n → Tbl.wfFrom d n t = true → Tbl.get d t k = d := by
  induction t with
  | nil => intros; rfl
  | cons e t ih =>
    obtain ⟨i, v⟩ := e
    intro n hk h
    simp only [Tbl.wfFrom, Bool.and_eq_true, decide_eq_true_eq] at h
    simp only [Tbl.get]
    rw [if_neg (by omega)]
    exact ih _ (by omega) h.2

theorem Tbl.get_erase {α : Type} [DecidableEq α] (d : α) (t : Tbl α) (k j : Nat) :
    ∀ n, Tbl.wfFrom d n t = true → Tbl.get d (t.erase k) j = if k = j then d else Tbl.get d t j := by
  induction t with
  | nil => intros; simp [Tbl.erase, Tbl.get]
  | cons e t ih =>
    obtain ⟨i, v⟩ := e
    intro n h
    have hc := h
    simp only [Tbl.wfFrom, Bool.and_eq_true, decide_eq_true_eq] at hc
    simp only [Tbl.erase]
    split
    · subst_vars; simp only [Tbl.get]
      split
      · subst_vars; exact Tbl.get_of_wfFrom d t _ _ (Nat.lt_succ_self _) hc.2
      · rfl
    · split
      · split
        · subst_vars
          simp only [Tbl.get]
          rw [if_neg (by omega)]
          exact Tbl.get_of_wfFrom d t _ _ (by omega) hc.2
        · rfl
      · simp only [Tbl.get, ih _ hc.2]; split <;> simp_all <;> omega

/-- Reading after a write: the value at the key written, every other key as before. -/
theorem Tbl.get_set {α : Type} [DecidableEq α] (d : α) (t : Tbl α) (k j : Nat) (x : α) (h : Tbl.wf d t = true) :
    Tbl.get d (Tbl.set d t k x) j = if k = j then x else Tbl.get d t j := by
  unfold Tbl.set
  split
  · subst_vars; exact Tbl.get_erase _ t k j 0 h
  · exact Tbl.get_insert d t k j x

/-- The two reads of a table agree. -/
theorem Tbl.find?_getD {α : Type} (d : α) (t : Tbl α) (k : Nat) : (t.find? k).getD d = Tbl.get d t k := by
  induction t with
  | nil => rfl
  | cons e t ih =>
    obtain ⟨i, v⟩ := e
    simp only [Tbl.find?, Tbl.get]
    split
    · rfl
    · exact ih

end Sys2Proof
end

