-- ==== Sys2Proof/Laws/Memory.lean ====
section
/-! SUPPORT. Laws/Memory.lean: the DRAM's canonical form (granule numbers strictly rising, no listed granule blank) holds at
reset and is kept by every operation that writes DRAM; reading after writing. -/

namespace Sys2Proof

/-- Replacing listed values by values that are not the default keeps the canonical form. -/
theorem Tbl.map_wfFrom {α : Type} [DecidableEq α] (d : α) (p : Nat → Bool) (x : α) (hx : x ≠ d) (t : Tbl α) :
    ∀ n, Tbl.wfFrom d n t = true →
      Tbl.wfFrom d n (t.map fun (e : Nat × α) => if p e.1 then (e.1, x) else e) = true := by
  induction t with
  | nil => intros; rfl
  | cons e t ih =>
    obtain ⟨i, v⟩ := e
    intro n h
    simp only [Tbl.wfFrom, Bool.and_eq_true, decide_eq_true_eq] at h
    simp only [List.map_cons]
    split
    · simp only [Tbl.wfFrom, Bool.and_eq_true, decide_eq_true_eq]; exact ⟨⟨h.1.1, hx⟩, ih _ h.2⟩
    · simp only [Tbl.wfFrom, Bool.and_eq_true, decide_eq_true_eq]; exact ⟨h.1, ih _ h.2⟩

namespace Machine

theorem reset_dram_wf : Tbl.wf Granule.blank State.reset.die.dram = true := rfl

/-- A granule's store keeps the form. -/
theorem setGranule_wf (d : Die) (dga : Nat) (g : Granule) (h : Tbl.wf Granule.blank d.dram = true) :
    Tbl.wf Granule.blank (d.setGranule dga g).dram = true := Tbl.set_wf _ _ _ _ h

/-- What a granule reads as after a store. -/
theorem granule_setGranule (d : Die) (a b : Nat) (g : Granule) (h : Tbl.wf Granule.blank d.dram = true) :
    (d.setGranule a g).granule b = if a / 64 = b / 64 then g else d.granule b := by
  simp only [Die.granule, Die.setGranule]
  rw [Tbl.find?_getD, Tbl.find?_getD, Tbl.get_set _ _ _ _ _ h]

theorem fill_ne_blank : fillGranule ≠ Granule.blank := by
  intro h
  have hu : fillGranule.unwritten = Granule.blank.unwritten := by rw [h]
  simp [fillGranule, Granule.blank] at hu

/-- Filling in a row keeps the form. -/
theorem fillRow_wf (d : Die) (ch slot row : Nat) (h : Tbl.wf Granule.blank d.dram = true) :
    Tbl.wf Granule.blank (d.fillRow ch slot row).dram = true :=
  Tbl.map_wfFrom Granule.blank (fun i => decide (d.chanOf (i * 64) = ch) && decide (Config.slotOf (i * 64) % 2 = slot) &&
    decide (Config.rowOf (i * 64) = row)) fillGranule fill_ne_blank d.dram 0 h

/-- A transfer's issue keeps the form. -/
theorem issue_wf (d : Die) (x : Xfer) (h : Tbl.wf Granule.blank d.dram = true) :
    Tbl.wf Granule.blank (d.issue x).dram = true := by
  have hf (e : Die) : e.freeEntries.dram = e.dram := rfl
  simp only [Die.issue, Die.setChan, hf]
  split <;> split
  · split
    · exact setGranule_wf _ _ _ h
    · exact h
  · exact h
  · split
    · exact setGranule_wf _ _ _ h
    · exact h
  · exact h

end Machine

end Sys2Proof
end

