-- ==== Sys2Proof/Laws/Ops.lean ====
section
/-! SUPPORT. Laws/Ops.lean: what the shared register operations do: a register reads as written, every other register as before. -/

namespace Sys2Proof

theorem Tbl.find?_insert {α : Type} (t : Tbl α) (k j : Nat) (x : α) :
    (t.insert k x).find? j = if k = j then some x else t.find? j := by
  induction t with
  | nil => simp [Tbl.insert, Tbl.find?]
  | cons e t ih =>
    obtain ⟨i, v⟩ := e
    simp only [Tbl.insert]
    split
    · subst_vars; simp only [Tbl.find?]; split <;> simp_all
    · split
      · simp [Tbl.find?]
      · simp only [Tbl.find?, ih]; split <;> simp_all <;> omega

theorem Tbl.find?_erase {α : Type} (t : Tbl α) (k j : Nat) (h : k ≠ j) : (t.erase k).find? j = t.find? j := by
  induction t with
  | nil => rfl
  | cons e t ih =>
    obtain ⟨i, v⟩ := e
    simp only [Tbl.erase]
    split
    · subst_vars; simp [Tbl.find?, h]
    · split
      · rfl
      · simp only [Tbl.find?, ih]

namespace Machine

/-- A register written with a value that is not its reset value reads as written. -/
theorem regR_regW_self (d : Die) (o : Nat) (v : Reg) (h : v ≠ regReset o) : (d.regW o v).regR o = v := by
  simp [Die.regR, Die.regW, h, Tbl.find?_insert]

/-- A register's write leaves every other register as it was. -/
theorem regR_regW_other (d : Die) (o p : Nat) (v : Reg) (h : o ≠ p) : (d.regW o v).regR p = d.regR p := by
  by_cases hv : v = regReset o
  · simp [Die.regR, Die.regW, hv, Tbl.find?_erase _ _ _ h]
  · simp [Die.regR, Die.regW, hv, Tbl.find?_insert, h]

/-- Counting changes its counter only. -/
theorem regR_count_other (d : Die) (o p n : Nat) (h : o ≠ p) : (d.count o n).regR p = d.regR p := regR_regW_other _ _ _ _ h

/-- Raising an event bit changes its EVENT register only, and at most sends firmware's interrupt. -/
theorem regR_event_other (d : Die) (o b p : Nat) (h : o ≠ p) : (d.event o b).regR p = d.regR p := by
  unfold Die.event
  dsimp only
  split
  · exact regR_regW_other _ _ _ _ h
  · exact regR_regW_other _ _ _ _ h

end Machine

end Sys2Proof
end

