-- ==== Sys2Proof/Laws/State.lean ====
section
/-! SUPPORT. Laws/State.lean: one lemma per field per update of the main die: what each named update leaves as it was. -/

namespace Sys2Proof.Machine

variable (d : Die)

@[simp] theorem Die.emit_time (m : Out) : (d.emit m).time = d.time := rfl
@[simp] theorem Die.emit_draws (m : Out) : (d.emit m).draws = d.draws := rfl
@[simp] theorem Die.emit_regs (m : Out) : (d.emit m).regs = d.regs := rfl
@[simp] theorem Die.emit_ports (m : Out) : (d.emit m).ports = d.ports := rfl
@[simp] theorem Die.emit_egr (m : Out) : (d.emit m).egr = d.egr := rfl
@[simp] theorem Die.emit_trs (m : Out) : (d.emit m).trs = d.trs := rfl
@[simp] theorem Die.emit_lv (m : Out) : (d.emit m).lv = d.lv := rfl
@[simp] theorem Die.emit_dimms (m : Out) : (d.emit m).dimms = d.dimms := rfl
@[simp] theorem Die.emit_chans (m : Out) : (d.emit m).chans = d.chans := rfl
@[simp] theorem Die.emit_setChans (m : Out) : (d.emit m).setChans = d.setChans := rfl
@[simp] theorem Die.emit_seq (m : Out) : (d.emit m).seq = d.seq := rfl
@[simp] theorem Die.emit_xfers (m : Out) : (d.emit m).xfers = d.xfers := rfl
@[simp] theorem Die.emit_be (m : Out) : (d.emit m).be = d.be := rfl
@[simp] theorem Die.emit_wops (m : Out) : (d.emit m).wops = d.wops := rfl
@[simp] theorem Die.emit_lane (m : Out) : (d.emit m).lane = d.lane := rfl
@[simp] theorem Die.emit_wq (m : Out) : (d.emit m).wq = d.wq := rfl
@[simp] theorem Die.emit_dram (m : Out) : (d.emit m).dram = d.dram := rfl
@[simp] theorem Die.emit_home (m : Out) : (d.emit m).home = d.home := rfl
@[simp] theorem Die.emit_itr (m : Out) : (d.emit m).itr = d.itr := rfl
@[simp] theorem Die.emit_keys (m : Out) : (d.emit m).keys = d.keys := rfl
@[simp] theorem Die.emit_pmap (m : Out) : (d.emit m).pmap = d.pmap := rfl
@[simp] theorem Die.emit_tir (m : Out) : (d.emit m).tir = d.tir := rfl
@[simp] theorem Die.emit_hbc (m : Out) : (d.emit m).hbc = d.hbc := rfl
@[simp] theorem Die.emit_tens (m : Out) : (d.emit m).tens = d.tens := rfl
@[simp] theorem Die.emit_flt (m : Out) : (d.emit m).flt = d.flt := rfl
@[simp] theorem Die.emit_mgt (m : Out) : (d.emit m).mgt = d.mgt := rfl
@[simp] theorem Die.emit_dbl (m : Out) : (d.emit m).dbl = d.dbl := rfl
@[simp] theorem Die.emit_dbg (m : Out) : (d.emit m).dbg = d.dbg := rfl
@[simp] theorem Die.emit_pwr (m : Out) : (d.emit m).pwr = d.pwr := rfl
@[simp] theorem Die.emit_pmu (m : Out) : (d.emit m).pmu = d.pmu := rfl
@[simp] theorem Die.emit_kps (m : Out) : (d.emit m).kps = d.kps := rfl
@[simp] theorem Die.emit_boot (m : Out) : (d.emit m).boot = d.boot := rfl
@[simp] theorem Die.emit_jobs (m : Out) : (d.emit m).jobs = d.jobs := rfl
@[simp] theorem Die.emit_cxl (m : Out) : (d.emit m).cxl = d.cxl := rfl
@[simp] theorem Die.emit_ohmSeen (m : Out) : (d.emit m).ohmSeen = d.ohmSeen := rfl

@[simp] theorem Die.regW_time (o : Nat) (v : Reg) : (d.regW o v).time = d.time := rfl
@[simp] theorem Die.regW_draws (o : Nat) (v : Reg) : (d.regW o v).draws = d.draws := rfl
@[simp] theorem Die.regW_out (o : Nat) (v : Reg) : (d.regW o v).out = d.out := rfl
@[simp] theorem Die.regW_ports (o : Nat) (v : Reg) : (d.regW o v).ports = d.ports := rfl
@[simp] theorem Die.regW_egr (o : Nat) (v : Reg) : (d.regW o v).egr = d.egr := rfl
@[simp] theorem Die.regW_trs (o : Nat) (v : Reg) : (d.regW o v).trs = d.trs := rfl
@[simp] theorem Die.regW_lv (o : Nat) (v : Reg) : (d.regW o v).lv = d.lv := rfl
@[simp] theorem Die.regW_dimms (o : Nat) (v : Reg) : (d.regW o v).dimms = d.dimms := rfl
@[simp] theorem Die.regW_chans (o : Nat) (v : Reg) : (d.regW o v).chans = d.chans := rfl
@[simp] theorem Die.regW_setChans (o : Nat) (v : Reg) : (d.regW o v).setChans = d.setChans := rfl
@[simp] theorem Die.regW_seq (o : Nat) (v : Reg) : (d.regW o v).seq = d.seq := rfl
@[simp] theorem Die.regW_xfers (o : Nat) (v : Reg) : (d.regW o v).xfers = d.xfers := rfl
@[simp] theorem Die.regW_be (o : Nat) (v : Reg) : (d.regW o v).be = d.be := rfl
@[simp] theorem Die.regW_wops (o : Nat) (v : Reg) : (d.regW o v).wops = d.wops := rfl
@[simp] theorem Die.regW_lane (o : Nat) (v : Reg) : (d.regW o v).lane = d.lane := rfl
@[simp] theorem Die.regW_wq (o : Nat) (v : Reg) : (d.regW o v).wq = d.wq := rfl
@[simp] theorem Die.regW_dram (o : Nat) (v : Reg) : (d.regW o v).dram = d.dram := rfl
@[simp] theorem Die.regW_home (o : Nat) (v : Reg) : (d.regW o v).home = d.home := rfl
@[simp] theorem Die.regW_itr (o : Nat) (v : Reg) : (d.regW o v).itr = d.itr := rfl
@[simp] theorem Die.regW_keys (o : Nat) (v : Reg) : (d.regW o v).keys = d.keys := rfl
@[simp] theorem Die.regW_pmap (o : Nat) (v : Reg) : (d.regW o v).pmap = d.pmap := rfl
@[simp] theorem Die.regW_tir (o : Nat) (v : Reg) : (d.regW o v).tir = d.tir := rfl
@[simp] theorem Die.regW_hbc (o : Nat) (v : Reg) : (d.regW o v).hbc = d.hbc := rfl
@[simp] theorem Die.regW_tens (o : Nat) (v : Reg) : (d.regW o v).tens = d.tens := rfl
@[simp] theorem Die.regW_flt (o : Nat) (v : Reg) : (d.regW o v).flt = d.flt := rfl
@[simp] theorem Die.regW_mgt (o : Nat) (v : Reg) : (d.regW o v).mgt = d.mgt := rfl
@[simp] theorem Die.regW_dbl (o : Nat) (v : Reg) : (d.regW o v).dbl = d.dbl := rfl
@[simp] theorem Die.regW_dbg (o : Nat) (v : Reg) : (d.regW o v).dbg = d.dbg := rfl
@[simp] theorem Die.regW_pwr (o : Nat) (v : Reg) : (d.regW o v).pwr = d.pwr := rfl
@[simp] theorem Die.regW_pmu (o : Nat) (v : Reg) : (d.regW o v).pmu = d.pmu := rfl
@[simp] theorem Die.regW_kps (o : Nat) (v : Reg) : (d.regW o v).kps = d.kps := rfl
@[simp] theorem Die.regW_boot (o : Nat) (v : Reg) : (d.regW o v).boot = d.boot := rfl
@[simp] theorem Die.regW_jobs (o : Nat) (v : Reg) : (d.regW o v).jobs = d.jobs := rfl
@[simp] theorem Die.regW_cxl (o : Nat) (v : Reg) : (d.regW o v).cxl = d.cxl := rfl
@[simp] theorem Die.regW_ohmSeen (o : Nat) (v : Reg) : (d.regW o v).ohmSeen = d.ohmSeen := rfl

@[simp] theorem Die.setPort_time (p : Nat) (x : Port) : (d.setPort p x).time = d.time := rfl
@[simp] theorem Die.setPort_draws (p : Nat) (x : Port) : (d.setPort p x).draws = d.draws := rfl
@[simp] theorem Die.setPort_out (p : Nat) (x : Port) : (d.setPort p x).out = d.out := rfl
@[simp] theorem Die.setPort_regs (p : Nat) (x : Port) : (d.setPort p x).regs = d.regs := rfl
@[simp] theorem Die.setPort_egr (p : Nat) (x : Port) : (d.setPort p x).egr = d.egr := rfl
@[simp] theorem Die.setPort_trs (p : Nat) (x : Port) : (d.setPort p x).trs = d.trs := rfl
@[simp] theorem Die.setPort_lv (p : Nat) (x : Port) : (d.setPort p x).lv = d.lv := rfl
@[simp] theorem Die.setPort_dimms (p : Nat) (x : Port) : (d.setPort p x).dimms = d.dimms := rfl
@[simp] theorem Die.setPort_chans (p : Nat) (x : Port) : (d.setPort p x).chans = d.chans := rfl
@[simp] theorem Die.setPort_setChans (p : Nat) (x : Port) : (d.setPort p x).setChans = d.setChans := rfl
@[simp] theorem Die.setPort_seq (p : Nat) (x : Port) : (d.setPort p x).seq = d.seq := rfl
@[simp] theorem Die.setPort_xfers (p : Nat) (x : Port) : (d.setPort p x).xfers = d.xfers := rfl
@[simp] theorem Die.setPort_be (p : Nat) (x : Port) : (d.setPort p x).be = d.be := rfl
@[simp] theorem Die.setPort_wops (p : Nat) (x : Port) : (d.setPort p x).wops = d.wops := rfl
@[simp] theorem Die.setPort_lane (p : Nat) (x : Port) : (d.setPort p x).lane = d.lane := rfl
@[simp] theorem Die.setPort_wq (p : Nat) (x : Port) : (d.setPort p x).wq = d.wq := rfl
@[simp] theorem Die.setPort_dram (p : Nat) (x : Port) : (d.setPort p x).dram = d.dram := rfl
@[simp] theorem Die.setPort_home (p : Nat) (x : Port) : (d.setPort p x).home = d.home := rfl
@[simp] theorem Die.setPort_itr (p : Nat) (x : Port) : (d.setPort p x).itr = d.itr := rfl
@[simp] theorem Die.setPort_keys (p : Nat) (x : Port) : (d.setPort p x).keys = d.keys := rfl
@[simp] theorem Die.setPort_pmap (p : Nat) (x : Port) : (d.setPort p x).pmap = d.pmap := rfl
@[simp] theorem Die.setPort_tir (p : Nat) (x : Port) : (d.setPort p x).tir = d.tir := rfl
@[simp] theorem Die.setPort_hbc (p : Nat) (x : Port) : (d.setPort p x).hbc = d.hbc := rfl
@[simp] theorem Die.setPort_tens (p : Nat) (x : Port) : (d.setPort p x).tens = d.tens := rfl
@[simp] theorem Die.setPort_flt (p : Nat) (x : Port) : (d.setPort p x).flt = d.flt := rfl
@[simp] theorem Die.setPort_mgt (p : Nat) (x : Port) : (d.setPort p x).mgt = d.mgt := rfl
@[simp] theorem Die.setPort_dbl (p : Nat) (x : Port) : (d.setPort p x).dbl = d.dbl := rfl
@[simp] theorem Die.setPort_dbg (p : Nat) (x : Port) : (d.setPort p x).dbg = d.dbg := rfl
@[simp] theorem Die.setPort_pwr (p : Nat) (x : Port) : (d.setPort p x).pwr = d.pwr := rfl
@[simp] theorem Die.setPort_pmu (p : Nat) (x : Port) : (d.setPort p x).pmu = d.pmu := rfl
@[simp] theorem Die.setPort_kps (p : Nat) (x : Port) : (d.setPort p x).kps = d.kps := rfl
@[simp] theorem Die.setPort_boot (p : Nat) (x : Port) : (d.setPort p x).boot = d.boot := rfl
@[simp] theorem Die.setPort_jobs (p : Nat) (x : Port) : (d.setPort p x).jobs = d.jobs := rfl
@[simp] theorem Die.setPort_cxl (p : Nat) (x : Port) : (d.setPort p x).cxl = d.cxl := rfl
@[simp] theorem Die.setPort_ohmSeen (p : Nat) (x : Port) : (d.setPort p x).ohmSeen = d.ohmSeen := rfl

@[simp] theorem Die.setChan_time (c : Nat) (x : Chan) : (d.setChan c x).time = d.time := rfl
@[simp] theorem Die.setChan_draws (c : Nat) (x : Chan) : (d.setChan c x).draws = d.draws := rfl
@[simp] theorem Die.setChan_out (c : Nat) (x : Chan) : (d.setChan c x).out = d.out := rfl
@[simp] theorem Die.setChan_regs (c : Nat) (x : Chan) : (d.setChan c x).regs = d.regs := rfl
@[simp] theorem Die.setChan_ports (c : Nat) (x : Chan) : (d.setChan c x).ports = d.ports := rfl
@[simp] theorem Die.setChan_egr (c : Nat) (x : Chan) : (d.setChan c x).egr = d.egr := rfl
@[simp] theorem Die.setChan_trs (c : Nat) (x : Chan) : (d.setChan c x).trs = d.trs := rfl
@[simp] theorem Die.setChan_lv (c : Nat) (x : Chan) : (d.setChan c x).lv = d.lv := rfl
@[simp] theorem Die.setChan_dimms (c : Nat) (x : Chan) : (d.setChan c x).dimms = d.dimms := rfl
@[simp] theorem Die.setChan_setChans (c : Nat) (x : Chan) : (d.setChan c x).setChans = d.setChans := rfl
@[simp] theorem Die.setChan_seq (c : Nat) (x : Chan) : (d.setChan c x).seq = d.seq := rfl
@[simp] theorem Die.setChan_xfers (c : Nat) (x : Chan) : (d.setChan c x).xfers = d.xfers := rfl
@[simp] theorem Die.setChan_be (c : Nat) (x : Chan) : (d.setChan c x).be = d.be := rfl
@[simp] theorem Die.setChan_wops (c : Nat) (x : Chan) : (d.setChan c x).wops = d.wops := rfl
@[simp] theorem Die.setChan_lane (c : Nat) (x : Chan) : (d.setChan c x).lane = d.lane := rfl
@[simp] theorem Die.setChan_wq (c : Nat) (x : Chan) : (d.setChan c x).wq = d.wq := rfl
@[simp] theorem Die.setChan_dram (c : Nat) (x : Chan) : (d.setChan c x).dram = d.dram := rfl
@[simp] theorem Die.setChan_home (c : Nat) (x : Chan) : (d.setChan c x).home = d.home := rfl
@[simp] theorem Die.setChan_itr (c : Nat) (x : Chan) : (d.setChan c x).itr = d.itr := rfl
@[simp] theorem Die.setChan_keys (c : Nat) (x : Chan) : (d.setChan c x).keys = d.keys := rfl
@[simp] theorem Die.setChan_pmap (c : Nat) (x : Chan) : (d.setChan c x).pmap = d.pmap := rfl
@[simp] theorem Die.setChan_tir (c : Nat) (x : Chan) : (d.setChan c x).tir = d.tir := rfl
@[simp] theorem Die.setChan_hbc (c : Nat) (x : Chan) : (d.setChan c x).hbc = d.hbc := rfl
@[simp] theorem Die.setChan_tens (c : Nat) (x : Chan) : (d.setChan c x).tens = d.tens := rfl
@[simp] theorem Die.setChan_flt (c : Nat) (x : Chan) : (d.setChan c x).flt = d.flt := rfl
@[simp] theorem Die.setChan_mgt (c : Nat) (x : Chan) : (d.setChan c x).mgt = d.mgt := rfl
@[simp] theorem Die.setChan_dbl (c : Nat) (x : Chan) : (d.setChan c x).dbl = d.dbl := rfl
@[simp] theorem Die.setChan_dbg (c : Nat) (x : Chan) : (d.setChan c x).dbg = d.dbg := rfl
@[simp] theorem Die.setChan_pwr (c : Nat) (x : Chan) : (d.setChan c x).pwr = d.pwr := rfl
@[simp] theorem Die.setChan_pmu (c : Nat) (x : Chan) : (d.setChan c x).pmu = d.pmu := rfl
@[simp] theorem Die.setChan_kps (c : Nat) (x : Chan) : (d.setChan c x).kps = d.kps := rfl
@[simp] theorem Die.setChan_boot (c : Nat) (x : Chan) : (d.setChan c x).boot = d.boot := rfl
@[simp] theorem Die.setChan_jobs (c : Nat) (x : Chan) : (d.setChan c x).jobs = d.jobs := rfl
@[simp] theorem Die.setChan_cxl (c : Nat) (x : Chan) : (d.setChan c x).cxl = d.cxl := rfl
@[simp] theorem Die.setChan_ohmSeen (c : Nat) (x : Chan) : (d.setChan c x).ohmSeen = d.ohmSeen := rfl

@[simp] theorem Die.setDimm_time (n : Nat) (x : Dimm) : (d.setDimm n x).time = d.time := rfl
@[simp] theorem Die.setDimm_draws (n : Nat) (x : Dimm) : (d.setDimm n x).draws = d.draws := rfl
@[simp] theorem Die.setDimm_out (n : Nat) (x : Dimm) : (d.setDimm n x).out = d.out := rfl
@[simp] theorem Die.setDimm_regs (n : Nat) (x : Dimm) : (d.setDimm n x).regs = d.regs := rfl
@[simp] theorem Die.setDimm_ports (n : Nat) (x : Dimm) : (d.setDimm n x).ports = d.ports := rfl
@[simp] theorem Die.setDimm_egr (n : Nat) (x : Dimm) : (d.setDimm n x).egr = d.egr := rfl
@[simp] theorem Die.setDimm_trs (n : Nat) (x : Dimm) : (d.setDimm n x).trs = d.trs := rfl
@[simp] theorem Die.setDimm_lv (n : Nat) (x : Dimm) : (d.setDimm n x).lv = d.lv := rfl
@[simp] theorem Die.setDimm_chans (n : Nat) (x : Dimm) : (d.setDimm n x).chans = d.chans := rfl
@[simp] theorem Die.setDimm_setChans (n : Nat) (x : Dimm) : (d.setDimm n x).setChans = d.setChans := rfl
@[simp] theorem Die.setDimm_seq (n : Nat) (x : Dimm) : (d.setDimm n x).seq = d.seq := rfl
@[simp] theorem Die.setDimm_xfers (n : Nat) (x : Dimm) : (d.setDimm n x).xfers = d.xfers := rfl
@[simp] theorem Die.setDimm_be (n : Nat) (x : Dimm) : (d.setDimm n x).be = d.be := rfl
@[simp] theorem Die.setDimm_wops (n : Nat) (x : Dimm) : (d.setDimm n x).wops = d.wops := rfl
@[simp] theorem Die.setDimm_lane (n : Nat) (x : Dimm) : (d.setDimm n x).lane = d.lane := rfl
@[simp] theorem Die.setDimm_wq (n : Nat) (x : Dimm) : (d.setDimm n x).wq = d.wq := rfl
@[simp] theorem Die.setDimm_dram (n : Nat) (x : Dimm) : (d.setDimm n x).dram = d.dram := rfl
@[simp] theorem Die.setDimm_home (n : Nat) (x : Dimm) : (d.setDimm n x).home = d.home := rfl
@[simp] theorem Die.setDimm_itr (n : Nat) (x : Dimm) : (d.setDimm n x).itr = d.itr := rfl
@[simp] theorem Die.setDimm_keys (n : Nat) (x : Dimm) : (d.setDimm n x).keys = d.keys := rfl
@[simp] theorem Die.setDimm_pmap (n : Nat) (x : Dimm) : (d.setDimm n x).pmap = d.pmap := rfl
@[simp] theorem Die.setDimm_tir (n : Nat) (x : Dimm) : (d.setDimm n x).tir = d.tir := rfl
@[simp] theorem Die.setDimm_hbc (n : Nat) (x : Dimm) : (d.setDimm n x).hbc = d.hbc := rfl
@[simp] theorem Die.setDimm_tens (n : Nat) (x : Dimm) : (d.setDimm n x).tens = d.tens := rfl
@[simp] theorem Die.setDimm_flt (n : Nat) (x : Dimm) : (d.setDimm n x).flt = d.flt := rfl
@[simp] theorem Die.setDimm_mgt (n : Nat) (x : Dimm) : (d.setDimm n x).mgt = d.mgt := rfl
@[simp] theorem Die.setDimm_dbl (n : Nat) (x : Dimm) : (d.setDimm n x).dbl = d.dbl := rfl
@[simp] theorem Die.setDimm_dbg (n : Nat) (x : Dimm) : (d.setDimm n x).dbg = d.dbg := rfl
@[simp] theorem Die.setDimm_pwr (n : Nat) (x : Dimm) : (d.setDimm n x).pwr = d.pwr := rfl
@[simp] theorem Die.setDimm_pmu (n : Nat) (x : Dimm) : (d.setDimm n x).pmu = d.pmu := rfl
@[simp] theorem Die.setDimm_kps (n : Nat) (x : Dimm) : (d.setDimm n x).kps = d.kps := rfl
@[simp] theorem Die.setDimm_boot (n : Nat) (x : Dimm) : (d.setDimm n x).boot = d.boot := rfl
@[simp] theorem Die.setDimm_jobs (n : Nat) (x : Dimm) : (d.setDimm n x).jobs = d.jobs := rfl
@[simp] theorem Die.setDimm_cxl (n : Nat) (x : Dimm) : (d.setDimm n x).cxl = d.cxl := rfl
@[simp] theorem Die.setDimm_ohmSeen (n : Nat) (x : Dimm) : (d.setDimm n x).ohmSeen = d.ohmSeen := rfl

@[simp] theorem Die.setSlot_time (k : Nat) (x : Slot) : (d.setSlot k x).time = d.time := rfl
@[simp] theorem Die.setSlot_draws (k : Nat) (x : Slot) : (d.setSlot k x).draws = d.draws := rfl
@[simp] theorem Die.setSlot_out (k : Nat) (x : Slot) : (d.setSlot k x).out = d.out := rfl
@[simp] theorem Die.setSlot_regs (k : Nat) (x : Slot) : (d.setSlot k x).regs = d.regs := rfl
@[simp] theorem Die.setSlot_ports (k : Nat) (x : Slot) : (d.setSlot k x).ports = d.ports := rfl
@[simp] theorem Die.setSlot_egr (k : Nat) (x : Slot) : (d.setSlot k x).egr = d.egr := rfl
@[simp] theorem Die.setSlot_trs (k : Nat) (x : Slot) : (d.setSlot k x).trs = d.trs := rfl
@[simp] theorem Die.setSlot_lv (k : Nat) (x : Slot) : (d.setSlot k x).lv = d.lv := rfl
@[simp] theorem Die.setSlot_dimms (k : Nat) (x : Slot) : (d.setSlot k x).dimms = d.dimms := rfl
@[simp] theorem Die.setSlot_chans (k : Nat) (x : Slot) : (d.setSlot k x).chans = d.chans := rfl
@[simp] theorem Die.setSlot_setChans (k : Nat) (x : Slot) : (d.setSlot k x).setChans = d.setChans := rfl
@[simp] theorem Die.setSlot_seq (k : Nat) (x : Slot) : (d.setSlot k x).seq = d.seq := rfl
@[simp] theorem Die.setSlot_xfers (k : Nat) (x : Slot) : (d.setSlot k x).xfers = d.xfers := rfl
@[simp] theorem Die.setSlot_be (k : Nat) (x : Slot) : (d.setSlot k x).be = d.be := rfl
@[simp] theorem Die.setSlot_wops (k : Nat) (x : Slot) : (d.setSlot k x).wops = d.wops := rfl
@[simp] theorem Die.setSlot_lane (k : Nat) (x : Slot) : (d.setSlot k x).lane = d.lane := rfl
@[simp] theorem Die.setSlot_wq (k : Nat) (x : Slot) : (d.setSlot k x).wq = d.wq := rfl
@[simp] theorem Die.setSlot_dram (k : Nat) (x : Slot) : (d.setSlot k x).dram = d.dram := rfl
@[simp] theorem Die.setSlot_home (k : Nat) (x : Slot) : (d.setSlot k x).home = d.home := rfl
@[simp] theorem Die.setSlot_itr (k : Nat) (x : Slot) : (d.setSlot k x).itr = d.itr := rfl
@[simp] theorem Die.setSlot_pmap (k : Nat) (x : Slot) : (d.setSlot k x).pmap = d.pmap := rfl
@[simp] theorem Die.setSlot_tir (k : Nat) (x : Slot) : (d.setSlot k x).tir = d.tir := rfl
@[simp] theorem Die.setSlot_hbc (k : Nat) (x : Slot) : (d.setSlot k x).hbc = d.hbc := rfl
@[simp] theorem Die.setSlot_tens (k : Nat) (x : Slot) : (d.setSlot k x).tens = d.tens := rfl
@[simp] theorem Die.setSlot_flt (k : Nat) (x : Slot) : (d.setSlot k x).flt = d.flt := rfl
@[simp] theorem Die.setSlot_mgt (k : Nat) (x : Slot) : (d.setSlot k x).mgt = d.mgt := rfl
@[simp] theorem Die.setSlot_dbl (k : Nat) (x : Slot) : (d.setSlot k x).dbl = d.dbl := rfl
@[simp] theorem Die.setSlot_dbg (k : Nat) (x : Slot) : (d.setSlot k x).dbg = d.dbg := rfl
@[simp] theorem Die.setSlot_pwr (k : Nat) (x : Slot) : (d.setSlot k x).pwr = d.pwr := rfl
@[simp] theorem Die.setSlot_pmu (k : Nat) (x : Slot) : (d.setSlot k x).pmu = d.pmu := rfl
@[simp] theorem Die.setSlot_kps (k : Nat) (x : Slot) : (d.setSlot k x).kps = d.kps := rfl
@[simp] theorem Die.setSlot_boot (k : Nat) (x : Slot) : (d.setSlot k x).boot = d.boot := rfl
@[simp] theorem Die.setSlot_jobs (k : Nat) (x : Slot) : (d.setSlot k x).jobs = d.jobs := rfl
@[simp] theorem Die.setSlot_cxl (k : Nat) (x : Slot) : (d.setSlot k x).cxl = d.cxl := rfl
@[simp] theorem Die.setSlot_ohmSeen (k : Nat) (x : Slot) : (d.setSlot k x).ohmSeen = d.ohmSeen := rfl

@[simp] theorem Die.setTen_time (t : Nat) (x : Ten) : (d.setTen t x).time = d.time := rfl
@[simp] theorem Die.setTen_draws (t : Nat) (x : Ten) : (d.setTen t x).draws = d.draws := rfl
@[simp] theorem Die.setTen_out (t : Nat) (x : Ten) : (d.setTen t x).out = d.out := rfl
@[simp] theorem Die.setTen_regs (t : Nat) (x : Ten) : (d.setTen t x).regs = d.regs := rfl
@[simp] theorem Die.setTen_ports (t : Nat) (x : Ten) : (d.setTen t x).ports = d.ports := rfl
@[simp] theorem Die.setTen_egr (t : Nat) (x : Ten) : (d.setTen t x).egr = d.egr := rfl
@[simp] theorem Die.setTen_trs (t : Nat) (x : Ten) : (d.setTen t x).trs = d.trs := rfl
@[simp] theorem Die.setTen_lv (t : Nat) (x : Ten) : (d.setTen t x).lv = d.lv := rfl
@[simp] theorem Die.setTen_dimms (t : Nat) (x : Ten) : (d.setTen t x).dimms = d.dimms := rfl
@[simp] theorem Die.setTen_chans (t : Nat) (x : Ten) : (d.setTen t x).chans = d.chans := rfl
@[simp] theorem Die.setTen_setChans (t : Nat) (x : Ten) : (d.setTen t x).setChans = d.setChans := rfl
@[simp] theorem Die.setTen_seq (t : Nat) (x : Ten) : (d.setTen t x).seq = d.seq := rfl
@[simp] theorem Die.setTen_xfers (t : Nat) (x : Ten) : (d.setTen t x).xfers = d.xfers := rfl
@[simp] theorem Die.setTen_be (t : Nat) (x : Ten) : (d.setTen t x).be = d.be := rfl
@[simp] theorem Die.setTen_wops (t : Nat) (x : Ten) : (d.setTen t x).wops = d.wops := rfl
@[simp] theorem Die.setTen_lane (t : Nat) (x : Ten) : (d.setTen t x).lane = d.lane := rfl
@[simp] theorem Die.setTen_wq (t : Nat) (x : Ten) : (d.setTen t x).wq = d.wq := rfl
@[simp] theorem Die.setTen_dram (t : Nat) (x : Ten) : (d.setTen t x).dram = d.dram := rfl
@[simp] theorem Die.setTen_home (t : Nat) (x : Ten) : (d.setTen t x).home = d.home := rfl
@[simp] theorem Die.setTen_itr (t : Nat) (x : Ten) : (d.setTen t x).itr = d.itr := rfl
@[simp] theorem Die.setTen_keys (t : Nat) (x : Ten) : (d.setTen t x).keys = d.keys := rfl
@[simp] theorem Die.setTen_pmap (t : Nat) (x : Ten) : (d.setTen t x).pmap = d.pmap := rfl
@[simp] theorem Die.setTen_tir (t : Nat) (x : Ten) : (d.setTen t x).tir = d.tir := rfl
@[simp] theorem Die.setTen_hbc (t : Nat) (x : Ten) : (d.setTen t x).hbc = d.hbc := rfl
@[simp] theorem Die.setTen_flt (t : Nat) (x : Ten) : (d.setTen t x).flt = d.flt := rfl
@[simp] theorem Die.setTen_mgt (t : Nat) (x : Ten) : (d.setTen t x).mgt = d.mgt := rfl
@[simp] theorem Die.setTen_dbl (t : Nat) (x : Ten) : (d.setTen t x).dbl = d.dbl := rfl
@[simp] theorem Die.setTen_dbg (t : Nat) (x : Ten) : (d.setTen t x).dbg = d.dbg := rfl
@[simp] theorem Die.setTen_pwr (t : Nat) (x : Ten) : (d.setTen t x).pwr = d.pwr := rfl
@[simp] theorem Die.setTen_pmu (t : Nat) (x : Ten) : (d.setTen t x).pmu = d.pmu := rfl
@[simp] theorem Die.setTen_kps (t : Nat) (x : Ten) : (d.setTen t x).kps = d.kps := rfl
@[simp] theorem Die.setTen_boot (t : Nat) (x : Ten) : (d.setTen t x).boot = d.boot := rfl
@[simp] theorem Die.setTen_jobs (t : Nat) (x : Ten) : (d.setTen t x).jobs = d.jobs := rfl
@[simp] theorem Die.setTen_cxl (t : Nat) (x : Ten) : (d.setTen t x).cxl = d.cxl := rfl
@[simp] theorem Die.setTen_ohmSeen (t : Nat) (x : Ten) : (d.setTen t x).ohmSeen = d.ohmSeen := rfl

@[simp] theorem Die.setBt_time (e : Nat) (x : Bt) : (d.setBt e x).time = d.time := rfl
@[simp] theorem Die.setBt_draws (e : Nat) (x : Bt) : (d.setBt e x).draws = d.draws := rfl
@[simp] theorem Die.setBt_out (e : Nat) (x : Bt) : (d.setBt e x).out = d.out := rfl
@[simp] theorem Die.setBt_regs (e : Nat) (x : Bt) : (d.setBt e x).regs = d.regs := rfl
@[simp] theorem Die.setBt_ports (e : Nat) (x : Bt) : (d.setBt e x).ports = d.ports := rfl
@[simp] theorem Die.setBt_egr (e : Nat) (x : Bt) : (d.setBt e x).egr = d.egr := rfl
@[simp] theorem Die.setBt_trs (e : Nat) (x : Bt) : (d.setBt e x).trs = d.trs := rfl
@[simp] theorem Die.setBt_lv (e : Nat) (x : Bt) : (d.setBt e x).lv = d.lv := rfl
@[simp] theorem Die.setBt_dimms (e : Nat) (x : Bt) : (d.setBt e x).dimms = d.dimms := rfl
@[simp] theorem Die.setBt_chans (e : Nat) (x : Bt) : (d.setBt e x).chans = d.chans := rfl
@[simp] theorem Die.setBt_setChans (e : Nat) (x : Bt) : (d.setBt e x).setChans = d.setChans := rfl
@[simp] theorem Die.setBt_seq (e : Nat) (x : Bt) : (d.setBt e x).seq = d.seq := rfl
@[simp] theorem Die.setBt_xfers (e : Nat) (x : Bt) : (d.setBt e x).xfers = d.xfers := rfl
@[simp] theorem Die.setBt_be (e : Nat) (x : Bt) : (d.setBt e x).be = d.be := rfl
@[simp] theorem Die.setBt_wops (e : Nat) (x : Bt) : (d.setBt e x).wops = d.wops := rfl
@[simp] theorem Die.setBt_lane (e : Nat) (x : Bt) : (d.setBt e x).lane = d.lane := rfl
@[simp] theorem Die.setBt_wq (e : Nat) (x : Bt) : (d.setBt e x).wq = d.wq := rfl
@[simp] theorem Die.setBt_dram (e : Nat) (x : Bt) : (d.setBt e x).dram = d.dram := rfl
@[simp] theorem Die.setBt_home (e : Nat) (x : Bt) : (d.setBt e x).home = d.home := rfl
@[simp] theorem Die.setBt_itr (e : Nat) (x : Bt) : (d.setBt e x).itr = d.itr := rfl
@[simp] theorem Die.setBt_keys (e : Nat) (x : Bt) : (d.setBt e x).keys = d.keys := rfl
@[simp] theorem Die.setBt_pmap (e : Nat) (x : Bt) : (d.setBt e x).pmap = d.pmap := rfl
@[simp] theorem Die.setBt_tir (e : Nat) (x : Bt) : (d.setBt e x).tir = d.tir := rfl
@[simp] theorem Die.setBt_hbc (e : Nat) (x : Bt) : (d.setBt e x).hbc = d.hbc := rfl
@[simp] theorem Die.setBt_flt (e : Nat) (x : Bt) : (d.setBt e x).flt = d.flt := rfl
@[simp] theorem Die.setBt_mgt (e : Nat) (x : Bt) : (d.setBt e x).mgt = d.mgt := rfl
@[simp] theorem Die.setBt_dbl (e : Nat) (x : Bt) : (d.setBt e x).dbl = d.dbl := rfl
@[simp] theorem Die.setBt_dbg (e : Nat) (x : Bt) : (d.setBt e x).dbg = d.dbg := rfl
@[simp] theorem Die.setBt_pwr (e : Nat) (x : Bt) : (d.setBt e x).pwr = d.pwr := rfl
@[simp] theorem Die.setBt_pmu (e : Nat) (x : Bt) : (d.setBt e x).pmu = d.pmu := rfl
@[simp] theorem Die.setBt_kps (e : Nat) (x : Bt) : (d.setBt e x).kps = d.kps := rfl
@[simp] theorem Die.setBt_boot (e : Nat) (x : Bt) : (d.setBt e x).boot = d.boot := rfl
@[simp] theorem Die.setBt_jobs (e : Nat) (x : Bt) : (d.setBt e x).jobs = d.jobs := rfl
@[simp] theorem Die.setBt_cxl (e : Nat) (x : Bt) : (d.setBt e x).cxl = d.cxl := rfl
@[simp] theorem Die.setBt_ohmSeen (e : Nat) (x : Bt) : (d.setBt e x).ohmSeen = d.ohmSeen := rfl

@[simp] theorem Die.setBay_time (b : Nat) (x : BayRec) : (d.setBay b x).time = d.time := rfl
@[simp] theorem Die.setBay_draws (b : Nat) (x : BayRec) : (d.setBay b x).draws = d.draws := rfl
@[simp] theorem Die.setBay_out (b : Nat) (x : BayRec) : (d.setBay b x).out = d.out := rfl
@[simp] theorem Die.setBay_regs (b : Nat) (x : BayRec) : (d.setBay b x).regs = d.regs := rfl
@[simp] theorem Die.setBay_ports (b : Nat) (x : BayRec) : (d.setBay b x).ports = d.ports := rfl
@[simp] theorem Die.setBay_egr (b : Nat) (x : BayRec) : (d.setBay b x).egr = d.egr := rfl
@[simp] theorem Die.setBay_trs (b : Nat) (x : BayRec) : (d.setBay b x).trs = d.trs := rfl
@[simp] theorem Die.setBay_lv (b : Nat) (x : BayRec) : (d.setBay b x).lv = d.lv := rfl
@[simp] theorem Die.setBay_dimms (b : Nat) (x : BayRec) : (d.setBay b x).dimms = d.dimms := rfl
@[simp] theorem Die.setBay_chans (b : Nat) (x : BayRec) : (d.setBay b x).chans = d.chans := rfl
@[simp] theorem Die.setBay_setChans (b : Nat) (x : BayRec) : (d.setBay b x).setChans = d.setChans := rfl
@[simp] theorem Die.setBay_seq (b : Nat) (x : BayRec) : (d.setBay b x).seq = d.seq := rfl
@[simp] theorem Die.setBay_xfers (b : Nat) (x : BayRec) : (d.setBay b x).xfers = d.xfers := rfl
@[simp] theorem Die.setBay_be (b : Nat) (x : BayRec) : (d.setBay b x).be = d.be := rfl
@[simp] theorem Die.setBay_wops (b : Nat) (x : BayRec) : (d.setBay b x).wops = d.wops := rfl
@[simp] theorem Die.setBay_lane (b : Nat) (x : BayRec) : (d.setBay b x).lane = d.lane := rfl
@[simp] theorem Die.setBay_wq (b : Nat) (x : BayRec) : (d.setBay b x).wq = d.wq := rfl
@[simp] theorem Die.setBay_dram (b : Nat) (x : BayRec) : (d.setBay b x).dram = d.dram := rfl
@[simp] theorem Die.setBay_home (b : Nat) (x : BayRec) : (d.setBay b x).home = d.home := rfl
@[simp] theorem Die.setBay_itr (b : Nat) (x : BayRec) : (d.setBay b x).itr = d.itr := rfl
@[simp] theorem Die.setBay_keys (b : Nat) (x : BayRec) : (d.setBay b x).keys = d.keys := rfl
@[simp] theorem Die.setBay_pmap (b : Nat) (x : BayRec) : (d.setBay b x).pmap = d.pmap := rfl
@[simp] theorem Die.setBay_tir (b : Nat) (x : BayRec) : (d.setBay b x).tir = d.tir := rfl
@[simp] theorem Die.setBay_hbc (b : Nat) (x : BayRec) : (d.setBay b x).hbc = d.hbc := rfl
@[simp] theorem Die.setBay_flt (b : Nat) (x : BayRec) : (d.setBay b x).flt = d.flt := rfl
@[simp] theorem Die.setBay_mgt (b : Nat) (x : BayRec) : (d.setBay b x).mgt = d.mgt := rfl
@[simp] theorem Die.setBay_dbl (b : Nat) (x : BayRec) : (d.setBay b x).dbl = d.dbl := rfl
@[simp] theorem Die.setBay_dbg (b : Nat) (x : BayRec) : (d.setBay b x).dbg = d.dbg := rfl
@[simp] theorem Die.setBay_pwr (b : Nat) (x : BayRec) : (d.setBay b x).pwr = d.pwr := rfl
@[simp] theorem Die.setBay_pmu (b : Nat) (x : BayRec) : (d.setBay b x).pmu = d.pmu := rfl
@[simp] theorem Die.setBay_kps (b : Nat) (x : BayRec) : (d.setBay b x).kps = d.kps := rfl
@[simp] theorem Die.setBay_boot (b : Nat) (x : BayRec) : (d.setBay b x).boot = d.boot := rfl
@[simp] theorem Die.setBay_jobs (b : Nat) (x : BayRec) : (d.setBay b x).jobs = d.jobs := rfl
@[simp] theorem Die.setBay_cxl (b : Nat) (x : BayRec) : (d.setBay b x).cxl = d.cxl := rfl
@[simp] theorem Die.setBay_ohmSeen (b : Nat) (x : BayRec) : (d.setBay b x).ohmSeen = d.ohmSeen := rfl

@[simp] theorem Die.setCredit_time (t : Nat) (x : Credit) : (d.setCredit t x).time = d.time := rfl
@[simp] theorem Die.setCredit_draws (t : Nat) (x : Credit) : (d.setCredit t x).draws = d.draws := rfl
@[simp] theorem Die.setCredit_out (t : Nat) (x : Credit) : (d.setCredit t x).out = d.out := rfl
@[simp] theorem Die.setCredit_regs (t : Nat) (x : Credit) : (d.setCredit t x).regs = d.regs := rfl
@[simp] theorem Die.setCredit_ports (t : Nat) (x : Credit) : (d.setCredit t x).ports = d.ports := rfl
@[simp] theorem Die.setCredit_egr (t : Nat) (x : Credit) : (d.setCredit t x).egr = d.egr := rfl
@[simp] theorem Die.setCredit_lv (t : Nat) (x : Credit) : (d.setCredit t x).lv = d.lv := rfl
@[simp] theorem Die.setCredit_dimms (t : Nat) (x : Credit) : (d.setCredit t x).dimms = d.dimms := rfl
@[simp] theorem Die.setCredit_chans (t : Nat) (x : Credit) : (d.setCredit t x).chans = d.chans := rfl
@[simp] theorem Die.setCredit_setChans (t : Nat) (x : Credit) : (d.setCredit t x).setChans = d.setChans := rfl
@[simp] theorem Die.setCredit_seq (t : Nat) (x : Credit) : (d.setCredit t x).seq = d.seq := rfl
@[simp] theorem Die.setCredit_xfers (t : Nat) (x : Credit) : (d.setCredit t x).xfers = d.xfers := rfl
@[simp] theorem Die.setCredit_be (t : Nat) (x : Credit) : (d.setCredit t x).be = d.be := rfl
@[simp] theorem Die.setCredit_wops (t : Nat) (x : Credit) : (d.setCredit t x).wops = d.wops := rfl
@[simp] theorem Die.setCredit_lane (t : Nat) (x : Credit) : (d.setCredit t x).lane = d.lane := rfl
@[simp] theorem Die.setCredit_wq (t : Nat) (x : Credit) : (d.setCredit t x).wq = d.wq := rfl
@[simp] theorem Die.setCredit_dram (t : Nat) (x : Credit) : (d.setCredit t x).dram = d.dram := rfl
@[simp] theorem Die.setCredit_home (t : Nat) (x : Credit) : (d.setCredit t x).home = d.home := rfl
@[simp] theorem Die.setCredit_itr (t : Nat) (x : Credit) : (d.setCredit t x).itr = d.itr := rfl
@[simp] theorem Die.setCredit_keys (t : Nat) (x : Credit) : (d.setCredit t x).keys = d.keys := rfl
@[simp] theorem Die.setCredit_pmap (t : Nat) (x : Credit) : (d.setCredit t x).pmap = d.pmap := rfl
@[simp] theorem Die.setCredit_tir (t : Nat) (x : Credit) : (d.setCredit t x).tir = d.tir := rfl
@[simp] theorem Die.setCredit_hbc (t : Nat) (x : Credit) : (d.setCredit t x).hbc = d.hbc := rfl
@[simp] theorem Die.setCredit_tens (t : Nat) (x : Credit) : (d.setCredit t x).tens = d.tens := rfl
@[simp] theorem Die.setCredit_flt (t : Nat) (x : Credit) : (d.setCredit t x).flt = d.flt := rfl
@[simp] theorem Die.setCredit_mgt (t : Nat) (x : Credit) : (d.setCredit t x).mgt = d.mgt := rfl
@[simp] theorem Die.setCredit_dbl (t : Nat) (x : Credit) : (d.setCredit t x).dbl = d.dbl := rfl
@[simp] theorem Die.setCredit_dbg (t : Nat) (x : Credit) : (d.setCredit t x).dbg = d.dbg := rfl
@[simp] theorem Die.setCredit_pwr (t : Nat) (x : Credit) : (d.setCredit t x).pwr = d.pwr := rfl
@[simp] theorem Die.setCredit_pmu (t : Nat) (x : Credit) : (d.setCredit t x).pmu = d.pmu := rfl
@[simp] theorem Die.setCredit_kps (t : Nat) (x : Credit) : (d.setCredit t x).kps = d.kps := rfl
@[simp] theorem Die.setCredit_boot (t : Nat) (x : Credit) : (d.setCredit t x).boot = d.boot := rfl
@[simp] theorem Die.setCredit_jobs (t : Nat) (x : Credit) : (d.setCredit t x).jobs = d.jobs := rfl
@[simp] theorem Die.setCredit_cxl (t : Nat) (x : Credit) : (d.setCredit t x).cxl = d.cxl := rfl
@[simp] theorem Die.setCredit_ohmSeen (t : Nat) (x : Credit) : (d.setCredit t x).ohmSeen = d.ohmSeen := rfl

@[simp] theorem Die.setGranule_time (g : Nat) (x : Granule) : (d.setGranule g x).time = d.time := rfl
@[simp] theorem Die.setGranule_draws (g : Nat) (x : Granule) : (d.setGranule g x).draws = d.draws := rfl
@[simp] theorem Die.setGranule_out (g : Nat) (x : Granule) : (d.setGranule g x).out = d.out := rfl
@[simp] theorem Die.setGranule_regs (g : Nat) (x : Granule) : (d.setGranule g x).regs = d.regs := rfl
@[simp] theorem Die.setGranule_ports (g : Nat) (x : Granule) : (d.setGranule g x).ports = d.ports := rfl
@[simp] theorem Die.setGranule_egr (g : Nat) (x : Granule) : (d.setGranule g x).egr = d.egr := rfl
@[simp] theorem Die.setGranule_trs (g : Nat) (x : Granule) : (d.setGranule g x).trs = d.trs := rfl
@[simp] theorem Die.setGranule_lv (g : Nat) (x : Granule) : (d.setGranule g x).lv = d.lv := rfl
@[simp] theorem Die.setGranule_dimms (g : Nat) (x : Granule) : (d.setGranule g x).dimms = d.dimms := rfl
@[simp] theorem Die.setGranule_chans (g : Nat) (x : Granule) : (d.setGranule g x).chans = d.chans := rfl
@[simp] theorem Die.setGranule_setChans (g : Nat) (x : Granule) : (d.setGranule g x).setChans = d.setChans := rfl
@[simp] theorem Die.setGranule_seq (g : Nat) (x : Granule) : (d.setGranule g x).seq = d.seq := rfl
@[simp] theorem Die.setGranule_xfers (g : Nat) (x : Granule) : (d.setGranule g x).xfers = d.xfers := rfl
@[simp] theorem Die.setGranule_be (g : Nat) (x : Granule) : (d.setGranule g x).be = d.be := rfl
@[simp] theorem Die.setGranule_wops (g : Nat) (x : Granule) : (d.setGranule g x).wops = d.wops := rfl
@[simp] theorem Die.setGranule_lane (g : Nat) (x : Granule) : (d.setGranule g x).lane = d.lane := rfl
@[simp] theorem Die.setGranule_wq (g : Nat) (x : Granule) : (d.setGranule g x).wq = d.wq := rfl
@[simp] theorem Die.setGranule_home (g : Nat) (x : Granule) : (d.setGranule g x).home = d.home := rfl
@[simp] theorem Die.setGranule_itr (g : Nat) (x : Granule) : (d.setGranule g x).itr = d.itr := rfl
@[simp] theorem Die.setGranule_keys (g : Nat) (x : Granule) : (d.setGranule g x).keys = d.keys := rfl
@[simp] theorem Die.setGranule_pmap (g : Nat) (x : Granule) : (d.setGranule g x).pmap = d.pmap := rfl
@[simp] theorem Die.setGranule_tir (g : Nat) (x : Granule) : (d.setGranule g x).tir = d.tir := rfl
@[simp] theorem Die.setGranule_hbc (g : Nat) (x : Granule) : (d.setGranule g x).hbc = d.hbc := rfl
@[simp] theorem Die.setGranule_tens (g : Nat) (x : Granule) : (d.setGranule g x).tens = d.tens := rfl
@[simp] theorem Die.setGranule_flt (g : Nat) (x : Granule) : (d.setGranule g x).flt = d.flt := rfl
@[simp] theorem Die.setGranule_mgt (g : Nat) (x : Granule) : (d.setGranule g x).mgt = d.mgt := rfl
@[simp] theorem Die.setGranule_dbl (g : Nat) (x : Granule) : (d.setGranule g x).dbl = d.dbl := rfl
@[simp] theorem Die.setGranule_dbg (g : Nat) (x : Granule) : (d.setGranule g x).dbg = d.dbg := rfl
@[simp] theorem Die.setGranule_pwr (g : Nat) (x : Granule) : (d.setGranule g x).pwr = d.pwr := rfl
@[simp] theorem Die.setGranule_pmu (g : Nat) (x : Granule) : (d.setGranule g x).pmu = d.pmu := rfl
@[simp] theorem Die.setGranule_kps (g : Nat) (x : Granule) : (d.setGranule g x).kps = d.kps := rfl
@[simp] theorem Die.setGranule_boot (g : Nat) (x : Granule) : (d.setGranule g x).boot = d.boot := rfl
@[simp] theorem Die.setGranule_jobs (g : Nat) (x : Granule) : (d.setGranule g x).jobs = d.jobs := rfl
@[simp] theorem Die.setGranule_cxl (g : Nat) (x : Granule) : (d.setGranule g x).cxl = d.cxl := rfl
@[simp] theorem Die.setGranule_ohmSeen (g : Nat) (x : Granule) : (d.setGranule g x).ohmSeen = d.ohmSeen := rfl

@[simp] theorem Die.setTxn_time (x : Txn) : (d.setTxn x).time = d.time := rfl
@[simp] theorem Die.setTxn_draws (x : Txn) : (d.setTxn x).draws = d.draws := rfl
@[simp] theorem Die.setTxn_out (x : Txn) : (d.setTxn x).out = d.out := rfl
@[simp] theorem Die.setTxn_regs (x : Txn) : (d.setTxn x).regs = d.regs := rfl
@[simp] theorem Die.setTxn_ports (x : Txn) : (d.setTxn x).ports = d.ports := rfl
@[simp] theorem Die.setTxn_egr (x : Txn) : (d.setTxn x).egr = d.egr := rfl
@[simp] theorem Die.setTxn_trs (x : Txn) : (d.setTxn x).trs = d.trs := rfl
@[simp] theorem Die.setTxn_lv (x : Txn) : (d.setTxn x).lv = d.lv := rfl
@[simp] theorem Die.setTxn_dimms (x : Txn) : (d.setTxn x).dimms = d.dimms := rfl
@[simp] theorem Die.setTxn_chans (x : Txn) : (d.setTxn x).chans = d.chans := rfl
@[simp] theorem Die.setTxn_setChans (x : Txn) : (d.setTxn x).setChans = d.setChans := rfl
@[simp] theorem Die.setTxn_seq (x : Txn) : (d.setTxn x).seq = d.seq := rfl
@[simp] theorem Die.setTxn_xfers (x : Txn) : (d.setTxn x).xfers = d.xfers := rfl
@[simp] theorem Die.setTxn_be (x : Txn) : (d.setTxn x).be = d.be := rfl
@[simp] theorem Die.setTxn_wops (x : Txn) : (d.setTxn x).wops = d.wops := rfl
@[simp] theorem Die.setTxn_lane (x : Txn) : (d.setTxn x).lane = d.lane := rfl
@[simp] theorem Die.setTxn_wq (x : Txn) : (d.setTxn x).wq = d.wq := rfl
@[simp] theorem Die.setTxn_dram (x : Txn) : (d.setTxn x).dram = d.dram := rfl
@[simp] theorem Die.setTxn_itr (x : Txn) : (d.setTxn x).itr = d.itr := rfl
@[simp] theorem Die.setTxn_keys (x : Txn) : (d.setTxn x).keys = d.keys := rfl
@[simp] theorem Die.setTxn_pmap (x : Txn) : (d.setTxn x).pmap = d.pmap := rfl
@[simp] theorem Die.setTxn_tir (x : Txn) : (d.setTxn x).tir = d.tir := rfl
@[simp] theorem Die.setTxn_hbc (x : Txn) : (d.setTxn x).hbc = d.hbc := rfl
@[simp] theorem Die.setTxn_tens (x : Txn) : (d.setTxn x).tens = d.tens := rfl
@[simp] theorem Die.setTxn_flt (x : Txn) : (d.setTxn x).flt = d.flt := rfl
@[simp] theorem Die.setTxn_mgt (x : Txn) : (d.setTxn x).mgt = d.mgt := rfl
@[simp] theorem Die.setTxn_dbl (x : Txn) : (d.setTxn x).dbl = d.dbl := rfl
@[simp] theorem Die.setTxn_dbg (x : Txn) : (d.setTxn x).dbg = d.dbg := rfl
@[simp] theorem Die.setTxn_pwr (x : Txn) : (d.setTxn x).pwr = d.pwr := rfl
@[simp] theorem Die.setTxn_pmu (x : Txn) : (d.setTxn x).pmu = d.pmu := rfl
@[simp] theorem Die.setTxn_kps (x : Txn) : (d.setTxn x).kps = d.kps := rfl
@[simp] theorem Die.setTxn_boot (x : Txn) : (d.setTxn x).boot = d.boot := rfl
@[simp] theorem Die.setTxn_jobs (x : Txn) : (d.setTxn x).jobs = d.jobs := rfl
@[simp] theorem Die.setTxn_cxl (x : Txn) : (d.setTxn x).cxl = d.cxl := rfl
@[simp] theorem Die.setTxn_ohmSeen (x : Txn) : (d.setTxn x).ohmSeen = d.ohmSeen := rfl

@[simp] theorem Die.dropTxn_time (i : Nat) : (d.dropTxn i).time = d.time := rfl
@[simp] theorem Die.dropTxn_draws (i : Nat) : (d.dropTxn i).draws = d.draws := rfl
@[simp] theorem Die.dropTxn_out (i : Nat) : (d.dropTxn i).out = d.out := rfl
@[simp] theorem Die.dropTxn_regs (i : Nat) : (d.dropTxn i).regs = d.regs := rfl
@[simp] theorem Die.dropTxn_ports (i : Nat) : (d.dropTxn i).ports = d.ports := rfl
@[simp] theorem Die.dropTxn_egr (i : Nat) : (d.dropTxn i).egr = d.egr := rfl
@[simp] theorem Die.dropTxn_trs (i : Nat) : (d.dropTxn i).trs = d.trs := rfl
@[simp] theorem Die.dropTxn_lv (i : Nat) : (d.dropTxn i).lv = d.lv := rfl
@[simp] theorem Die.dropTxn_dimms (i : Nat) : (d.dropTxn i).dimms = d.dimms := rfl
@[simp] theorem Die.dropTxn_chans (i : Nat) : (d.dropTxn i).chans = d.chans := rfl
@[simp] theorem Die.dropTxn_setChans (i : Nat) : (d.dropTxn i).setChans = d.setChans := rfl
@[simp] theorem Die.dropTxn_seq (i : Nat) : (d.dropTxn i).seq = d.seq := rfl
@[simp] theorem Die.dropTxn_xfers (i : Nat) : (d.dropTxn i).xfers = d.xfers := rfl
@[simp] theorem Die.dropTxn_be (i : Nat) : (d.dropTxn i).be = d.be := rfl
@[simp] theorem Die.dropTxn_wops (i : Nat) : (d.dropTxn i).wops = d.wops := rfl
@[simp] theorem Die.dropTxn_lane (i : Nat) : (d.dropTxn i).lane = d.lane := rfl
@[simp] theorem Die.dropTxn_wq (i : Nat) : (d.dropTxn i).wq = d.wq := rfl
@[simp] theorem Die.dropTxn_dram (i : Nat) : (d.dropTxn i).dram = d.dram := rfl
@[simp] theorem Die.dropTxn_itr (i : Nat) : (d.dropTxn i).itr = d.itr := rfl
@[simp] theorem Die.dropTxn_keys (i : Nat) : (d.dropTxn i).keys = d.keys := rfl
@[simp] theorem Die.dropTxn_pmap (i : Nat) : (d.dropTxn i).pmap = d.pmap := rfl
@[simp] theorem Die.dropTxn_tir (i : Nat) : (d.dropTxn i).tir = d.tir := rfl
@[simp] theorem Die.dropTxn_hbc (i : Nat) : (d.dropTxn i).hbc = d.hbc := rfl
@[simp] theorem Die.dropTxn_tens (i : Nat) : (d.dropTxn i).tens = d.tens := rfl
@[simp] theorem Die.dropTxn_flt (i : Nat) : (d.dropTxn i).flt = d.flt := rfl
@[simp] theorem Die.dropTxn_mgt (i : Nat) : (d.dropTxn i).mgt = d.mgt := rfl
@[simp] theorem Die.dropTxn_dbl (i : Nat) : (d.dropTxn i).dbl = d.dbl := rfl
@[simp] theorem Die.dropTxn_dbg (i : Nat) : (d.dropTxn i).dbg = d.dbg := rfl
@[simp] theorem Die.dropTxn_pwr (i : Nat) : (d.dropTxn i).pwr = d.pwr := rfl
@[simp] theorem Die.dropTxn_pmu (i : Nat) : (d.dropTxn i).pmu = d.pmu := rfl
@[simp] theorem Die.dropTxn_kps (i : Nat) : (d.dropTxn i).kps = d.kps := rfl
@[simp] theorem Die.dropTxn_boot (i : Nat) : (d.dropTxn i).boot = d.boot := rfl
@[simp] theorem Die.dropTxn_jobs (i : Nat) : (d.dropTxn i).jobs = d.jobs := rfl
@[simp] theorem Die.dropTxn_cxl (i : Nat) : (d.dropTxn i).cxl = d.cxl := rfl
@[simp] theorem Die.dropTxn_ohmSeen (i : Nat) : (d.dropTxn i).ohmSeen = d.ohmSeen := rfl

@[simp] theorem Die.keepLast_time (e : Endp) (l : Last) : (d.keepLast e l).time = d.time := rfl
@[simp] theorem Die.keepLast_draws (e : Endp) (l : Last) : (d.keepLast e l).draws = d.draws := rfl
@[simp] theorem Die.keepLast_out (e : Endp) (l : Last) : (d.keepLast e l).out = d.out := rfl
@[simp] theorem Die.keepLast_regs (e : Endp) (l : Last) : (d.keepLast e l).regs = d.regs := rfl
@[simp] theorem Die.keepLast_ports (e : Endp) (l : Last) : (d.keepLast e l).ports = d.ports := rfl
@[simp] theorem Die.keepLast_egr (e : Endp) (l : Last) : (d.keepLast e l).egr = d.egr := rfl
@[simp] theorem Die.keepLast_trs (e : Endp) (l : Last) : (d.keepLast e l).trs = d.trs := rfl
@[simp] theorem Die.keepLast_lv (e : Endp) (l : Last) : (d.keepLast e l).lv = d.lv := rfl
@[simp] theorem Die.keepLast_dimms (e : Endp) (l : Last) : (d.keepLast e l).dimms = d.dimms := rfl
@[simp] theorem Die.keepLast_chans (e : Endp) (l : Last) : (d.keepLast e l).chans = d.chans := rfl
@[simp] theorem Die.keepLast_setChans (e : Endp) (l : Last) : (d.keepLast e l).setChans = d.setChans := rfl
@[simp] theorem Die.keepLast_seq (e : Endp) (l : Last) : (d.keepLast e l).seq = d.seq := rfl
@[simp] theorem Die.keepLast_xfers (e : Endp) (l : Last) : (d.keepLast e l).xfers = d.xfers := rfl
@[simp] theorem Die.keepLast_be (e : Endp) (l : Last) : (d.keepLast e l).be = d.be := rfl
@[simp] theorem Die.keepLast_wops (e : Endp) (l : Last) : (d.keepLast e l).wops = d.wops := rfl
@[simp] theorem Die.keepLast_lane (e : Endp) (l : Last) : (d.keepLast e l).lane = d.lane := rfl
@[simp] theorem Die.keepLast_wq (e : Endp) (l : Last) : (d.keepLast e l).wq = d.wq := rfl
@[simp] theorem Die.keepLast_dram (e : Endp) (l : Last) : (d.keepLast e l).dram = d.dram := rfl
@[simp] theorem Die.keepLast_home (e : Endp) (l : Last) : (d.keepLast e l).home = d.home := rfl
@[simp] theorem Die.keepLast_itr (e : Endp) (l : Last) : (d.keepLast e l).itr = d.itr := rfl
@[simp] theorem Die.keepLast_keys (e : Endp) (l : Last) : (d.keepLast e l).keys = d.keys := rfl
@[simp] theorem Die.keepLast_pmap (e : Endp) (l : Last) : (d.keepLast e l).pmap = d.pmap := rfl
@[simp] theorem Die.keepLast_tir (e : Endp) (l : Last) : (d.keepLast e l).tir = d.tir := rfl
@[simp] theorem Die.keepLast_hbc (e : Endp) (l : Last) : (d.keepLast e l).hbc = d.hbc := rfl
@[simp] theorem Die.keepLast_tens (e : Endp) (l : Last) : (d.keepLast e l).tens = d.tens := rfl
@[simp] theorem Die.keepLast_flt (e : Endp) (l : Last) : (d.keepLast e l).flt = d.flt := rfl
@[simp] theorem Die.keepLast_dbl (e : Endp) (l : Last) : (d.keepLast e l).dbl = d.dbl := rfl
@[simp] theorem Die.keepLast_dbg (e : Endp) (l : Last) : (d.keepLast e l).dbg = d.dbg := rfl
@[simp] theorem Die.keepLast_pwr (e : Endp) (l : Last) : (d.keepLast e l).pwr = d.pwr := rfl
@[simp] theorem Die.keepLast_pmu (e : Endp) (l : Last) : (d.keepLast e l).pmu = d.pmu := rfl
@[simp] theorem Die.keepLast_kps (e : Endp) (l : Last) : (d.keepLast e l).kps = d.kps := rfl
@[simp] theorem Die.keepLast_boot (e : Endp) (l : Last) : (d.keepLast e l).boot = d.boot := rfl
@[simp] theorem Die.keepLast_jobs (e : Endp) (l : Last) : (d.keepLast e l).jobs = d.jobs := rfl
@[simp] theorem Die.keepLast_cxl (e : Endp) (l : Last) : (d.keepLast e l).cxl = d.cxl := rfl
@[simp] theorem Die.keepLast_ohmSeen (e : Endp) (l : Last) : (d.keepLast e l).ohmSeen = d.ohmSeen := rfl

@[simp] theorem Die.setRing_time (k : Nat) (x : Ring) : (d.setRing k x).time = d.time := rfl
@[simp] theorem Die.setRing_draws (k : Nat) (x : Ring) : (d.setRing k x).draws = d.draws := rfl
@[simp] theorem Die.setRing_out (k : Nat) (x : Ring) : (d.setRing k x).out = d.out := rfl
@[simp] theorem Die.setRing_regs (k : Nat) (x : Ring) : (d.setRing k x).regs = d.regs := rfl
@[simp] theorem Die.setRing_ports (k : Nat) (x : Ring) : (d.setRing k x).ports = d.ports := rfl
@[simp] theorem Die.setRing_egr (k : Nat) (x : Ring) : (d.setRing k x).egr = d.egr := rfl
@[simp] theorem Die.setRing_trs (k : Nat) (x : Ring) : (d.setRing k x).trs = d.trs := rfl
@[simp] theorem Die.setRing_lv (k : Nat) (x : Ring) : (d.setRing k x).lv = d.lv := rfl
@[simp] theorem Die.setRing_dimms (k : Nat) (x : Ring) : (d.setRing k x).dimms = d.dimms := rfl
@[simp] theorem Die.setRing_chans (k : Nat) (x : Ring) : (d.setRing k x).chans = d.chans := rfl
@[simp] theorem Die.setRing_setChans (k : Nat) (x : Ring) : (d.setRing k x).setChans = d.setChans := rfl
@[simp] theorem Die.setRing_seq (k : Nat) (x : Ring) : (d.setRing k x).seq = d.seq := rfl
@[simp] theorem Die.setRing_xfers (k : Nat) (x : Ring) : (d.setRing k x).xfers = d.xfers := rfl
@[simp] theorem Die.setRing_be (k : Nat) (x : Ring) : (d.setRing k x).be = d.be := rfl
@[simp] theorem Die.setRing_wops (k : Nat) (x : Ring) : (d.setRing k x).wops = d.wops := rfl
@[simp] theorem Die.setRing_lane (k : Nat) (x : Ring) : (d.setRing k x).lane = d.lane := rfl
@[simp] theorem Die.setRing_wq (k : Nat) (x : Ring) : (d.setRing k x).wq = d.wq := rfl
@[simp] theorem Die.setRing_dram (k : Nat) (x : Ring) : (d.setRing k x).dram = d.dram := rfl
@[simp] theorem Die.setRing_home (k : Nat) (x : Ring) : (d.setRing k x).home = d.home := rfl
@[simp] theorem Die.setRing_itr (k : Nat) (x : Ring) : (d.setRing k x).itr = d.itr := rfl
@[simp] theorem Die.setRing_keys (k : Nat) (x : Ring) : (d.setRing k x).keys = d.keys := rfl
@[simp] theorem Die.setRing_pmap (k : Nat) (x : Ring) : (d.setRing k x).pmap = d.pmap := rfl
@[simp] theorem Die.setRing_tir (k : Nat) (x : Ring) : (d.setRing k x).tir = d.tir := rfl
@[simp] theorem Die.setRing_hbc (k : Nat) (x : Ring) : (d.setRing k x).hbc = d.hbc := rfl
@[simp] theorem Die.setRing_tens (k : Nat) (x : Ring) : (d.setRing k x).tens = d.tens := rfl
@[simp] theorem Die.setRing_flt (k : Nat) (x : Ring) : (d.setRing k x).flt = d.flt := rfl
@[simp] theorem Die.setRing_dbl (k : Nat) (x : Ring) : (d.setRing k x).dbl = d.dbl := rfl
@[simp] theorem Die.setRing_dbg (k : Nat) (x : Ring) : (d.setRing k x).dbg = d.dbg := rfl
@[simp] theorem Die.setRing_pwr (k : Nat) (x : Ring) : (d.setRing k x).pwr = d.pwr := rfl
@[simp] theorem Die.setRing_pmu (k : Nat) (x : Ring) : (d.setRing k x).pmu = d.pmu := rfl
@[simp] theorem Die.setRing_kps (k : Nat) (x : Ring) : (d.setRing k x).kps = d.kps := rfl
@[simp] theorem Die.setRing_boot (k : Nat) (x : Ring) : (d.setRing k x).boot = d.boot := rfl
@[simp] theorem Die.setRing_jobs (k : Nat) (x : Ring) : (d.setRing k x).jobs = d.jobs := rfl
@[simp] theorem Die.setRing_cxl (k : Nat) (x : Ring) : (d.setRing k x).cxl = d.cxl := rfl
@[simp] theorem Die.setRing_ohmSeen (k : Nat) (x : Ring) : (d.setRing k x).ohmSeen = d.ohmSeen := rfl

@[simp] theorem Die.setCon_time (c : Contract) : (d.setCon c).time = d.time := rfl
@[simp] theorem Die.setCon_draws (c : Contract) : (d.setCon c).draws = d.draws := rfl
@[simp] theorem Die.setCon_out (c : Contract) : (d.setCon c).out = d.out := rfl
@[simp] theorem Die.setCon_regs (c : Contract) : (d.setCon c).regs = d.regs := rfl
@[simp] theorem Die.setCon_ports (c : Contract) : (d.setCon c).ports = d.ports := rfl
@[simp] theorem Die.setCon_egr (c : Contract) : (d.setCon c).egr = d.egr := rfl
@[simp] theorem Die.setCon_lv (c : Contract) : (d.setCon c).lv = d.lv := rfl
@[simp] theorem Die.setCon_dimms (c : Contract) : (d.setCon c).dimms = d.dimms := rfl
@[simp] theorem Die.setCon_chans (c : Contract) : (d.setCon c).chans = d.chans := rfl
@[simp] theorem Die.setCon_setChans (c : Contract) : (d.setCon c).setChans = d.setChans := rfl
@[simp] theorem Die.setCon_seq (c : Contract) : (d.setCon c).seq = d.seq := rfl
@[simp] theorem Die.setCon_xfers (c : Contract) : (d.setCon c).xfers = d.xfers := rfl
@[simp] theorem Die.setCon_be (c : Contract) : (d.setCon c).be = d.be := rfl
@[simp] theorem Die.setCon_wops (c : Contract) : (d.setCon c).wops = d.wops := rfl
@[simp] theorem Die.setCon_lane (c : Contract) : (d.setCon c).lane = d.lane := rfl
@[simp] theorem Die.setCon_wq (c : Contract) : (d.setCon c).wq = d.wq := rfl
@[simp] theorem Die.setCon_dram (c : Contract) : (d.setCon c).dram = d.dram := rfl
@[simp] theorem Die.setCon_home (c : Contract) : (d.setCon c).home = d.home := rfl
@[simp] theorem Die.setCon_itr (c : Contract) : (d.setCon c).itr = d.itr := rfl
@[simp] theorem Die.setCon_keys (c : Contract) : (d.setCon c).keys = d.keys := rfl
@[simp] theorem Die.setCon_pmap (c : Contract) : (d.setCon c).pmap = d.pmap := rfl
@[simp] theorem Die.setCon_tir (c : Contract) : (d.setCon c).tir = d.tir := rfl
@[simp] theorem Die.setCon_hbc (c : Contract) : (d.setCon c).hbc = d.hbc := rfl
@[simp] theorem Die.setCon_tens (c : Contract) : (d.setCon c).tens = d.tens := rfl
@[simp] theorem Die.setCon_flt (c : Contract) : (d.setCon c).flt = d.flt := rfl
@[simp] theorem Die.setCon_mgt (c : Contract) : (d.setCon c).mgt = d.mgt := rfl
@[simp] theorem Die.setCon_dbl (c : Contract) : (d.setCon c).dbl = d.dbl := rfl
@[simp] theorem Die.setCon_dbg (c : Contract) : (d.setCon c).dbg = d.dbg := rfl
@[simp] theorem Die.setCon_pwr (c : Contract) : (d.setCon c).pwr = d.pwr := rfl
@[simp] theorem Die.setCon_pmu (c : Contract) : (d.setCon c).pmu = d.pmu := rfl
@[simp] theorem Die.setCon_kps (c : Contract) : (d.setCon c).kps = d.kps := rfl
@[simp] theorem Die.setCon_boot (c : Contract) : (d.setCon c).boot = d.boot := rfl
@[simp] theorem Die.setCon_jobs (c : Contract) : (d.setCon c).jobs = d.jobs := rfl
@[simp] theorem Die.setCon_cxl (c : Contract) : (d.setCon c).cxl = d.cxl := rfl
@[simp] theorem Die.setCon_ohmSeen (c : Contract) : (d.setCon c).ohmSeen = d.ohmSeen := rfl

@[simp] theorem Die.setDbl_time (x : Dbl) : (d.setDbl x).time = d.time := rfl
@[simp] theorem Die.setDbl_draws (x : Dbl) : (d.setDbl x).draws = d.draws := rfl
@[simp] theorem Die.setDbl_out (x : Dbl) : (d.setDbl x).out = d.out := rfl
@[simp] theorem Die.setDbl_regs (x : Dbl) : (d.setDbl x).regs = d.regs := rfl
@[simp] theorem Die.setDbl_ports (x : Dbl) : (d.setDbl x).ports = d.ports := rfl
@[simp] theorem Die.setDbl_egr (x : Dbl) : (d.setDbl x).egr = d.egr := rfl
@[simp] theorem Die.setDbl_trs (x : Dbl) : (d.setDbl x).trs = d.trs := rfl
@[simp] theorem Die.setDbl_lv (x : Dbl) : (d.setDbl x).lv = d.lv := rfl
@[simp] theorem Die.setDbl_dimms (x : Dbl) : (d.setDbl x).dimms = d.dimms := rfl
@[simp] theorem Die.setDbl_chans (x : Dbl) : (d.setDbl x).chans = d.chans := rfl
@[simp] theorem Die.setDbl_setChans (x : Dbl) : (d.setDbl x).setChans = d.setChans := rfl
@[simp] theorem Die.setDbl_seq (x : Dbl) : (d.setDbl x).seq = d.seq := rfl
@[simp] theorem Die.setDbl_xfers (x : Dbl) : (d.setDbl x).xfers = d.xfers := rfl
@[simp] theorem Die.setDbl_be (x : Dbl) : (d.setDbl x).be = d.be := rfl
@[simp] theorem Die.setDbl_wops (x : Dbl) : (d.setDbl x).wops = d.wops := rfl
@[simp] theorem Die.setDbl_lane (x : Dbl) : (d.setDbl x).lane = d.lane := rfl
@[simp] theorem Die.setDbl_wq (x : Dbl) : (d.setDbl x).wq = d.wq := rfl
@[simp] theorem Die.setDbl_dram (x : Dbl) : (d.setDbl x).dram = d.dram := rfl
@[simp] theorem Die.setDbl_home (x : Dbl) : (d.setDbl x).home = d.home := rfl
@[simp] theorem Die.setDbl_itr (x : Dbl) : (d.setDbl x).itr = d.itr := rfl
@[simp] theorem Die.setDbl_keys (x : Dbl) : (d.setDbl x).keys = d.keys := rfl
@[simp] theorem Die.setDbl_pmap (x : Dbl) : (d.setDbl x).pmap = d.pmap := rfl
@[simp] theorem Die.setDbl_tir (x : Dbl) : (d.setDbl x).tir = d.tir := rfl
@[simp] theorem Die.setDbl_hbc (x : Dbl) : (d.setDbl x).hbc = d.hbc := rfl
@[simp] theorem Die.setDbl_tens (x : Dbl) : (d.setDbl x).tens = d.tens := rfl
@[simp] theorem Die.setDbl_flt (x : Dbl) : (d.setDbl x).flt = d.flt := rfl
@[simp] theorem Die.setDbl_mgt (x : Dbl) : (d.setDbl x).mgt = d.mgt := rfl
@[simp] theorem Die.setDbl_dbg (x : Dbl) : (d.setDbl x).dbg = d.dbg := rfl
@[simp] theorem Die.setDbl_pwr (x : Dbl) : (d.setDbl x).pwr = d.pwr := rfl
@[simp] theorem Die.setDbl_pmu (x : Dbl) : (d.setDbl x).pmu = d.pmu := rfl
@[simp] theorem Die.setDbl_kps (x : Dbl) : (d.setDbl x).kps = d.kps := rfl
@[simp] theorem Die.setDbl_boot (x : Dbl) : (d.setDbl x).boot = d.boot := rfl
@[simp] theorem Die.setDbl_jobs (x : Dbl) : (d.setDbl x).jobs = d.jobs := rfl
@[simp] theorem Die.setDbl_cxl (x : Dbl) : (d.setDbl x).cxl = d.cxl := rfl
@[simp] theorem Die.setDbl_ohmSeen (x : Dbl) : (d.setDbl x).ohmSeen = d.ohmSeen := rfl

@[simp] theorem Die.setJob_time (q : Nat) (x : JobQ) : (d.setJob q x).time = d.time := rfl
@[simp] theorem Die.setJob_draws (q : Nat) (x : JobQ) : (d.setJob q x).draws = d.draws := rfl
@[simp] theorem Die.setJob_out (q : Nat) (x : JobQ) : (d.setJob q x).out = d.out := rfl
@[simp] theorem Die.setJob_regs (q : Nat) (x : JobQ) : (d.setJob q x).regs = d.regs := rfl
@[simp] theorem Die.setJob_ports (q : Nat) (x : JobQ) : (d.setJob q x).ports = d.ports := rfl
@[simp] theorem Die.setJob_egr (q : Nat) (x : JobQ) : (d.setJob q x).egr = d.egr := rfl
@[simp] theorem Die.setJob_trs (q : Nat) (x : JobQ) : (d.setJob q x).trs = d.trs := rfl
@[simp] theorem Die.setJob_lv (q : Nat) (x : JobQ) : (d.setJob q x).lv = d.lv := rfl
@[simp] theorem Die.setJob_dimms (q : Nat) (x : JobQ) : (d.setJob q x).dimms = d.dimms := rfl
@[simp] theorem Die.setJob_chans (q : Nat) (x : JobQ) : (d.setJob q x).chans = d.chans := rfl
@[simp] theorem Die.setJob_setChans (q : Nat) (x : JobQ) : (d.setJob q x).setChans = d.setChans := rfl
@[simp] theorem Die.setJob_seq (q : Nat) (x : JobQ) : (d.setJob q x).seq = d.seq := rfl
@[simp] theorem Die.setJob_xfers (q : Nat) (x : JobQ) : (d.setJob q x).xfers = d.xfers := rfl
@[simp] theorem Die.setJob_be (q : Nat) (x : JobQ) : (d.setJob q x).be = d.be := rfl
@[simp] theorem Die.setJob_wops (q : Nat) (x : JobQ) : (d.setJob q x).wops = d.wops := rfl
@[simp] theorem Die.setJob_lane (q : Nat) (x : JobQ) : (d.setJob q x).lane = d.lane := rfl
@[simp] theorem Die.setJob_wq (q : Nat) (x : JobQ) : (d.setJob q x).wq = d.wq := rfl
@[simp] theorem Die.setJob_dram (q : Nat) (x : JobQ) : (d.setJob q x).dram = d.dram := rfl
@[simp] theorem Die.setJob_home (q : Nat) (x : JobQ) : (d.setJob q x).home = d.home := rfl
@[simp] theorem Die.setJob_itr (q : Nat) (x : JobQ) : (d.setJob q x).itr = d.itr := rfl
@[simp] theorem Die.setJob_keys (q : Nat) (x : JobQ) : (d.setJob q x).keys = d.keys := rfl
@[simp] theorem Die.setJob_pmap (q : Nat) (x : JobQ) : (d.setJob q x).pmap = d.pmap := rfl
@[simp] theorem Die.setJob_tir (q : Nat) (x : JobQ) : (d.setJob q x).tir = d.tir := rfl
@[simp] theorem Die.setJob_hbc (q : Nat) (x : JobQ) : (d.setJob q x).hbc = d.hbc := rfl
@[simp] theorem Die.setJob_tens (q : Nat) (x : JobQ) : (d.setJob q x).tens = d.tens := rfl
@[simp] theorem Die.setJob_flt (q : Nat) (x : JobQ) : (d.setJob q x).flt = d.flt := rfl
@[simp] theorem Die.setJob_mgt (q : Nat) (x : JobQ) : (d.setJob q x).mgt = d.mgt := rfl
@[simp] theorem Die.setJob_dbl (q : Nat) (x : JobQ) : (d.setJob q x).dbl = d.dbl := rfl
@[simp] theorem Die.setJob_dbg (q : Nat) (x : JobQ) : (d.setJob q x).dbg = d.dbg := rfl
@[simp] theorem Die.setJob_pwr (q : Nat) (x : JobQ) : (d.setJob q x).pwr = d.pwr := rfl
@[simp] theorem Die.setJob_pmu (q : Nat) (x : JobQ) : (d.setJob q x).pmu = d.pmu := rfl
@[simp] theorem Die.setJob_kps (q : Nat) (x : JobQ) : (d.setJob q x).kps = d.kps := rfl
@[simp] theorem Die.setJob_boot (q : Nat) (x : JobQ) : (d.setJob q x).boot = d.boot := rfl
@[simp] theorem Die.setJob_cxl (q : Nat) (x : JobQ) : (d.setJob q x).cxl = d.cxl := rfl
@[simp] theorem Die.setJob_ohmSeen (q : Nat) (x : JobQ) : (d.setJob q x).ohmSeen = d.ohmSeen := rfl

@[simp] theorem Die.setEgress_time (p : Nat) (x : Egress) : (d.setEgress p x).time = d.time := rfl
@[simp] theorem Die.setEgress_draws (p : Nat) (x : Egress) : (d.setEgress p x).draws = d.draws := rfl
@[simp] theorem Die.setEgress_out (p : Nat) (x : Egress) : (d.setEgress p x).out = d.out := rfl
@[simp] theorem Die.setEgress_regs (p : Nat) (x : Egress) : (d.setEgress p x).regs = d.regs := rfl
@[simp] theorem Die.setEgress_ports (p : Nat) (x : Egress) : (d.setEgress p x).ports = d.ports := rfl
@[simp] theorem Die.setEgress_trs (p : Nat) (x : Egress) : (d.setEgress p x).trs = d.trs := rfl
@[simp] theorem Die.setEgress_lv (p : Nat) (x : Egress) : (d.setEgress p x).lv = d.lv := rfl
@[simp] theorem Die.setEgress_dimms (p : Nat) (x : Egress) : (d.setEgress p x).dimms = d.dimms := rfl
@[simp] theorem Die.setEgress_chans (p : Nat) (x : Egress) : (d.setEgress p x).chans = d.chans := rfl
@[simp] theorem Die.setEgress_setChans (p : Nat) (x : Egress) : (d.setEgress p x).setChans = d.setChans := rfl
@[simp] theorem Die.setEgress_seq (p : Nat) (x : Egress) : (d.setEgress p x).seq = d.seq := rfl
@[simp] theorem Die.setEgress_xfers (p : Nat) (x : Egress) : (d.setEgress p x).xfers = d.xfers := rfl
@[simp] theorem Die.setEgress_be (p : Nat) (x : Egress) : (d.setEgress p x).be = d.be := rfl
@[simp] theorem Die.setEgress_wops (p : Nat) (x : Egress) : (d.setEgress p x).wops = d.wops := rfl
@[simp] theorem Die.setEgress_lane (p : Nat) (x : Egress) : (d.setEgress p x).lane = d.lane := rfl
@[simp] theorem Die.setEgress_wq (p : Nat) (x : Egress) : (d.setEgress p x).wq = d.wq := rfl
@[simp] theorem Die.setEgress_dram (p : Nat) (x : Egress) : (d.setEgress p x).dram = d.dram := rfl
@[simp] theorem Die.setEgress_home (p : Nat) (x : Egress) : (d.setEgress p x).home = d.home := rfl
@[simp] theorem Die.setEgress_itr (p : Nat) (x : Egress) : (d.setEgress p x).itr = d.itr := rfl
@[simp] theorem Die.setEgress_keys (p : Nat) (x : Egress) : (d.setEgress p x).keys = d.keys := rfl
@[simp] theorem Die.setEgress_pmap (p : Nat) (x : Egress) : (d.setEgress p x).pmap = d.pmap := rfl
@[simp] theorem Die.setEgress_tir (p : Nat) (x : Egress) : (d.setEgress p x).tir = d.tir := rfl
@[simp] theorem Die.setEgress_hbc (p : Nat) (x : Egress) : (d.setEgress p x).hbc = d.hbc := rfl
@[simp] theorem Die.setEgress_tens (p : Nat) (x : Egress) : (d.setEgress p x).tens = d.tens := rfl
@[simp] theorem Die.setEgress_flt (p : Nat) (x : Egress) : (d.setEgress p x).flt = d.flt := rfl
@[simp] theorem Die.setEgress_mgt (p : Nat) (x : Egress) : (d.setEgress p x).mgt = d.mgt := rfl
@[simp] theorem Die.setEgress_dbl (p : Nat) (x : Egress) : (d.setEgress p x).dbl = d.dbl := rfl
@[simp] theorem Die.setEgress_dbg (p : Nat) (x : Egress) : (d.setEgress p x).dbg = d.dbg := rfl
@[simp] theorem Die.setEgress_pwr (p : Nat) (x : Egress) : (d.setEgress p x).pwr = d.pwr := rfl
@[simp] theorem Die.setEgress_pmu (p : Nat) (x : Egress) : (d.setEgress p x).pmu = d.pmu := rfl
@[simp] theorem Die.setEgress_kps (p : Nat) (x : Egress) : (d.setEgress p x).kps = d.kps := rfl
@[simp] theorem Die.setEgress_boot (p : Nat) (x : Egress) : (d.setEgress p x).boot = d.boot := rfl
@[simp] theorem Die.setEgress_jobs (p : Nat) (x : Egress) : (d.setEgress p x).jobs = d.jobs := rfl
@[simp] theorem Die.setEgress_cxl (p : Nat) (x : Egress) : (d.setEgress p x).cxl = d.cxl := rfl
@[simp] theorem Die.setEgress_ohmSeen (p : Nat) (x : Egress) : (d.setEgress p x).ohmSeen = d.ohmSeen := rfl

@[simp] theorem Die.setLouvre_time (v : Nat) (x : Lv) : (d.setLouvre v x).time = d.time := rfl
@[simp] theorem Die.setLouvre_draws (v : Nat) (x : Lv) : (d.setLouvre v x).draws = d.draws := rfl
@[simp] theorem Die.setLouvre_out (v : Nat) (x : Lv) : (d.setLouvre v x).out = d.out := rfl
@[simp] theorem Die.setLouvre_regs (v : Nat) (x : Lv) : (d.setLouvre v x).regs = d.regs := rfl
@[simp] theorem Die.setLouvre_ports (v : Nat) (x : Lv) : (d.setLouvre v x).ports = d.ports := rfl
@[simp] theorem Die.setLouvre_egr (v : Nat) (x : Lv) : (d.setLouvre v x).egr = d.egr := rfl
@[simp] theorem Die.setLouvre_trs (v : Nat) (x : Lv) : (d.setLouvre v x).trs = d.trs := rfl
@[simp] theorem Die.setLouvre_dimms (v : Nat) (x : Lv) : (d.setLouvre v x).dimms = d.dimms := rfl
@[simp] theorem Die.setLouvre_chans (v : Nat) (x : Lv) : (d.setLouvre v x).chans = d.chans := rfl
@[simp] theorem Die.setLouvre_setChans (v : Nat) (x : Lv) : (d.setLouvre v x).setChans = d.setChans := rfl
@[simp] theorem Die.setLouvre_seq (v : Nat) (x : Lv) : (d.setLouvre v x).seq = d.seq := rfl
@[simp] theorem Die.setLouvre_xfers (v : Nat) (x : Lv) : (d.setLouvre v x).xfers = d.xfers := rfl
@[simp] theorem Die.setLouvre_be (v : Nat) (x : Lv) : (d.setLouvre v x).be = d.be := rfl
@[simp] theorem Die.setLouvre_wops (v : Nat) (x : Lv) : (d.setLouvre v x).wops = d.wops := rfl
@[simp] theorem Die.setLouvre_lane (v : Nat) (x : Lv) : (d.setLouvre v x).lane = d.lane := rfl
@[simp] theorem Die.setLouvre_wq (v : Nat) (x : Lv) : (d.setLouvre v x).wq = d.wq := rfl
@[simp] theorem Die.setLouvre_dram (v : Nat) (x : Lv) : (d.setLouvre v x).dram = d.dram := rfl
@[simp] theorem Die.setLouvre_home (v : Nat) (x : Lv) : (d.setLouvre v x).home = d.home := rfl
@[simp] theorem Die.setLouvre_itr (v : Nat) (x : Lv) : (d.setLouvre v x).itr = d.itr := rfl
@[simp] theorem Die.setLouvre_keys (v : Nat) (x : Lv) : (d.setLouvre v x).keys = d.keys := rfl
@[simp] theorem Die.setLouvre_pmap (v : Nat) (x : Lv) : (d.setLouvre v x).pmap = d.pmap := rfl
@[simp] theorem Die.setLouvre_tir (v : Nat) (x : Lv) : (d.setLouvre v x).tir = d.tir := rfl
@[simp] theorem Die.setLouvre_hbc (v : Nat) (x : Lv) : (d.setLouvre v x).hbc = d.hbc := rfl
@[simp] theorem Die.setLouvre_tens (v : Nat) (x : Lv) : (d.setLouvre v x).tens = d.tens := rfl
@[simp] theorem Die.setLouvre_flt (v : Nat) (x : Lv) : (d.setLouvre v x).flt = d.flt := rfl
@[simp] theorem Die.setLouvre_mgt (v : Nat) (x : Lv) : (d.setLouvre v x).mgt = d.mgt := rfl
@[simp] theorem Die.setLouvre_dbl (v : Nat) (x : Lv) : (d.setLouvre v x).dbl = d.dbl := rfl
@[simp] theorem Die.setLouvre_dbg (v : Nat) (x : Lv) : (d.setLouvre v x).dbg = d.dbg := rfl
@[simp] theorem Die.setLouvre_pwr (v : Nat) (x : Lv) : (d.setLouvre v x).pwr = d.pwr := rfl
@[simp] theorem Die.setLouvre_pmu (v : Nat) (x : Lv) : (d.setLouvre v x).pmu = d.pmu := rfl
@[simp] theorem Die.setLouvre_kps (v : Nat) (x : Lv) : (d.setLouvre v x).kps = d.kps := rfl
@[simp] theorem Die.setLouvre_boot (v : Nat) (x : Lv) : (d.setLouvre v x).boot = d.boot := rfl
@[simp] theorem Die.setLouvre_jobs (v : Nat) (x : Lv) : (d.setLouvre v x).jobs = d.jobs := rfl
@[simp] theorem Die.setLouvre_cxl (v : Nat) (x : Lv) : (d.setLouvre v x).cxl = d.cxl := rfl
@[simp] theorem Die.setLouvre_ohmSeen (v : Nat) (x : Lv) : (d.setLouvre v x).ohmSeen = d.ohmSeen := rfl

@[simp] theorem Die.setBlock_time (b : Nat) (x : Block) : (d.setBlock b x).time = d.time := rfl
@[simp] theorem Die.setBlock_draws (b : Nat) (x : Block) : (d.setBlock b x).draws = d.draws := rfl
@[simp] theorem Die.setBlock_out (b : Nat) (x : Block) : (d.setBlock b x).out = d.out := rfl
@[simp] theorem Die.setBlock_regs (b : Nat) (x : Block) : (d.setBlock b x).regs = d.regs := rfl
@[simp] theorem Die.setBlock_ports (b : Nat) (x : Block) : (d.setBlock b x).ports = d.ports := rfl
@[simp] theorem Die.setBlock_egr (b : Nat) (x : Block) : (d.setBlock b x).egr = d.egr := rfl
@[simp] theorem Die.setBlock_trs (b : Nat) (x : Block) : (d.setBlock b x).trs = d.trs := rfl
@[simp] theorem Die.setBlock_lv (b : Nat) (x : Block) : (d.setBlock b x).lv = d.lv := rfl
@[simp] theorem Die.setBlock_dimms (b : Nat) (x : Block) : (d.setBlock b x).dimms = d.dimms := rfl
@[simp] theorem Die.setBlock_chans (b : Nat) (x : Block) : (d.setBlock b x).chans = d.chans := rfl
@[simp] theorem Die.setBlock_setChans (b : Nat) (x : Block) : (d.setBlock b x).setChans = d.setChans := rfl
@[simp] theorem Die.setBlock_seq (b : Nat) (x : Block) : (d.setBlock b x).seq = d.seq := rfl
@[simp] theorem Die.setBlock_xfers (b : Nat) (x : Block) : (d.setBlock b x).xfers = d.xfers := rfl
@[simp] theorem Die.setBlock_be (b : Nat) (x : Block) : (d.setBlock b x).be = d.be := rfl
@[simp] theorem Die.setBlock_wops (b : Nat) (x : Block) : (d.setBlock b x).wops = d.wops := rfl
@[simp] theorem Die.setBlock_lane (b : Nat) (x : Block) : (d.setBlock b x).lane = d.lane := rfl
@[simp] theorem Die.setBlock_wq (b : Nat) (x : Block) : (d.setBlock b x).wq = d.wq := rfl
@[simp] theorem Die.setBlock_dram (b : Nat) (x : Block) : (d.setBlock b x).dram = d.dram := rfl
@[simp] theorem Die.setBlock_home (b : Nat) (x : Block) : (d.setBlock b x).home = d.home := rfl
@[simp] theorem Die.setBlock_keys (b : Nat) (x : Block) : (d.setBlock b x).keys = d.keys := rfl
@[simp] theorem Die.setBlock_pmap (b : Nat) (x : Block) : (d.setBlock b x).pmap = d.pmap := rfl
@[simp] theorem Die.setBlock_tir (b : Nat) (x : Block) : (d.setBlock b x).tir = d.tir := rfl
@[simp] theorem Die.setBlock_hbc (b : Nat) (x : Block) : (d.setBlock b x).hbc = d.hbc := rfl
@[simp] theorem Die.setBlock_tens (b : Nat) (x : Block) : (d.setBlock b x).tens = d.tens := rfl
@[simp] theorem Die.setBlock_flt (b : Nat) (x : Block) : (d.setBlock b x).flt = d.flt := rfl
@[simp] theorem Die.setBlock_mgt (b : Nat) (x : Block) : (d.setBlock b x).mgt = d.mgt := rfl
@[simp] theorem Die.setBlock_dbl (b : Nat) (x : Block) : (d.setBlock b x).dbl = d.dbl := rfl
@[simp] theorem Die.setBlock_dbg (b : Nat) (x : Block) : (d.setBlock b x).dbg = d.dbg := rfl
@[simp] theorem Die.setBlock_pwr (b : Nat) (x : Block) : (d.setBlock b x).pwr = d.pwr := rfl
@[simp] theorem Die.setBlock_pmu (b : Nat) (x : Block) : (d.setBlock b x).pmu = d.pmu := rfl
@[simp] theorem Die.setBlock_kps (b : Nat) (x : Block) : (d.setBlock b x).kps = d.kps := rfl
@[simp] theorem Die.setBlock_boot (b : Nat) (x : Block) : (d.setBlock b x).boot = d.boot := rfl
@[simp] theorem Die.setBlock_jobs (b : Nat) (x : Block) : (d.setBlock b x).jobs = d.jobs := rfl
@[simp] theorem Die.setBlock_cxl (b : Nat) (x : Block) : (d.setBlock b x).cxl = d.cxl := rfl
@[simp] theorem Die.setBlock_ohmSeen (b : Nat) (x : Block) : (d.setBlock b x).ohmSeen = d.ohmSeen := rfl

@[simp] theorem Die.setSweep_time (i : Nat) (x : Sweep) : (d.setSweep i x).time = d.time := rfl
@[simp] theorem Die.setSweep_draws (i : Nat) (x : Sweep) : (d.setSweep i x).draws = d.draws := rfl
@[simp] theorem Die.setSweep_out (i : Nat) (x : Sweep) : (d.setSweep i x).out = d.out := rfl
@[simp] theorem Die.setSweep_regs (i : Nat) (x : Sweep) : (d.setSweep i x).regs = d.regs := rfl
@[simp] theorem Die.setSweep_ports (i : Nat) (x : Sweep) : (d.setSweep i x).ports = d.ports := rfl
@[simp] theorem Die.setSweep_egr (i : Nat) (x : Sweep) : (d.setSweep i x).egr = d.egr := rfl
@[simp] theorem Die.setSweep_trs (i : Nat) (x : Sweep) : (d.setSweep i x).trs = d.trs := rfl
@[simp] theorem Die.setSweep_lv (i : Nat) (x : Sweep) : (d.setSweep i x).lv = d.lv := rfl
@[simp] theorem Die.setSweep_dimms (i : Nat) (x : Sweep) : (d.setSweep i x).dimms = d.dimms := rfl
@[simp] theorem Die.setSweep_chans (i : Nat) (x : Sweep) : (d.setSweep i x).chans = d.chans := rfl
@[simp] theorem Die.setSweep_setChans (i : Nat) (x : Sweep) : (d.setSweep i x).setChans = d.setChans := rfl
@[simp] theorem Die.setSweep_seq (i : Nat) (x : Sweep) : (d.setSweep i x).seq = d.seq := rfl
@[simp] theorem Die.setSweep_xfers (i : Nat) (x : Sweep) : (d.setSweep i x).xfers = d.xfers := rfl
@[simp] theorem Die.setSweep_be (i : Nat) (x : Sweep) : (d.setSweep i x).be = d.be := rfl
@[simp] theorem Die.setSweep_wops (i : Nat) (x : Sweep) : (d.setSweep i x).wops = d.wops := rfl
@[simp] theorem Die.setSweep_lane (i : Nat) (x : Sweep) : (d.setSweep i x).lane = d.lane := rfl
@[simp] theorem Die.setSweep_wq (i : Nat) (x : Sweep) : (d.setSweep i x).wq = d.wq := rfl
@[simp] theorem Die.setSweep_dram (i : Nat) (x : Sweep) : (d.setSweep i x).dram = d.dram := rfl
@[simp] theorem Die.setSweep_itr (i : Nat) (x : Sweep) : (d.setSweep i x).itr = d.itr := rfl
@[simp] theorem Die.setSweep_keys (i : Nat) (x : Sweep) : (d.setSweep i x).keys = d.keys := rfl
@[simp] theorem Die.setSweep_pmap (i : Nat) (x : Sweep) : (d.setSweep i x).pmap = d.pmap := rfl
@[simp] theorem Die.setSweep_tir (i : Nat) (x : Sweep) : (d.setSweep i x).tir = d.tir := rfl
@[simp] theorem Die.setSweep_hbc (i : Nat) (x : Sweep) : (d.setSweep i x).hbc = d.hbc := rfl
@[simp] theorem Die.setSweep_tens (i : Nat) (x : Sweep) : (d.setSweep i x).tens = d.tens := rfl
@[simp] theorem Die.setSweep_flt (i : Nat) (x : Sweep) : (d.setSweep i x).flt = d.flt := rfl
@[simp] theorem Die.setSweep_mgt (i : Nat) (x : Sweep) : (d.setSweep i x).mgt = d.mgt := rfl
@[simp] theorem Die.setSweep_dbl (i : Nat) (x : Sweep) : (d.setSweep i x).dbl = d.dbl := rfl
@[simp] theorem Die.setSweep_dbg (i : Nat) (x : Sweep) : (d.setSweep i x).dbg = d.dbg := rfl
@[simp] theorem Die.setSweep_pwr (i : Nat) (x : Sweep) : (d.setSweep i x).pwr = d.pwr := rfl
@[simp] theorem Die.setSweep_pmu (i : Nat) (x : Sweep) : (d.setSweep i x).pmu = d.pmu := rfl
@[simp] theorem Die.setSweep_kps (i : Nat) (x : Sweep) : (d.setSweep i x).kps = d.kps := rfl
@[simp] theorem Die.setSweep_boot (i : Nat) (x : Sweep) : (d.setSweep i x).boot = d.boot := rfl
@[simp] theorem Die.setSweep_jobs (i : Nat) (x : Sweep) : (d.setSweep i x).jobs = d.jobs := rfl
@[simp] theorem Die.setSweep_cxl (i : Nat) (x : Sweep) : (d.setSweep i x).cxl = d.cxl := rfl
@[simp] theorem Die.setSweep_ohmSeen (i : Nat) (x : Sweep) : (d.setSweep i x).ohmSeen = d.ohmSeen := rfl

@[simp] theorem Die.setCore_time (k : Nat) (c : Core) : (d.setCore k c).time = d.time := rfl
@[simp] theorem Die.setCore_draws (k : Nat) (c : Core) : (d.setCore k c).draws = d.draws := rfl
@[simp] theorem Die.setCore_out (k : Nat) (c : Core) : (d.setCore k c).out = d.out := rfl
@[simp] theorem Die.setCore_regs (k : Nat) (c : Core) : (d.setCore k c).regs = d.regs := rfl
@[simp] theorem Die.setCore_ports (k : Nat) (c : Core) : (d.setCore k c).ports = d.ports := rfl
@[simp] theorem Die.setCore_egr (k : Nat) (c : Core) : (d.setCore k c).egr = d.egr := rfl
@[simp] theorem Die.setCore_trs (k : Nat) (c : Core) : (d.setCore k c).trs = d.trs := rfl
@[simp] theorem Die.setCore_lv (k : Nat) (c : Core) : (d.setCore k c).lv = d.lv := rfl
@[simp] theorem Die.setCore_dimms (k : Nat) (c : Core) : (d.setCore k c).dimms = d.dimms := rfl
@[simp] theorem Die.setCore_chans (k : Nat) (c : Core) : (d.setCore k c).chans = d.chans := rfl
@[simp] theorem Die.setCore_setChans (k : Nat) (c : Core) : (d.setCore k c).setChans = d.setChans := rfl
@[simp] theorem Die.setCore_seq (k : Nat) (c : Core) : (d.setCore k c).seq = d.seq := rfl
@[simp] theorem Die.setCore_xfers (k : Nat) (c : Core) : (d.setCore k c).xfers = d.xfers := rfl
@[simp] theorem Die.setCore_be (k : Nat) (c : Core) : (d.setCore k c).be = d.be := rfl
@[simp] theorem Die.setCore_wops (k : Nat) (c : Core) : (d.setCore k c).wops = d.wops := rfl
@[simp] theorem Die.setCore_lane (k : Nat) (c : Core) : (d.setCore k c).lane = d.lane := rfl
@[simp] theorem Die.setCore_wq (k : Nat) (c : Core) : (d.setCore k c).wq = d.wq := rfl
@[simp] theorem Die.setCore_dram (k : Nat) (c : Core) : (d.setCore k c).dram = d.dram := rfl
@[simp] theorem Die.setCore_home (k : Nat) (c : Core) : (d.setCore k c).home = d.home := rfl
@[simp] theorem Die.setCore_itr (k : Nat) (c : Core) : (d.setCore k c).itr = d.itr := rfl
@[simp] theorem Die.setCore_keys (k : Nat) (c : Core) : (d.setCore k c).keys = d.keys := rfl
@[simp] theorem Die.setCore_pmap (k : Nat) (c : Core) : (d.setCore k c).pmap = d.pmap := rfl
@[simp] theorem Die.setCore_tir (k : Nat) (c : Core) : (d.setCore k c).tir = d.tir := rfl
@[simp] theorem Die.setCore_hbc (k : Nat) (c : Core) : (d.setCore k c).hbc = d.hbc := rfl
@[simp] theorem Die.setCore_tens (k : Nat) (c : Core) : (d.setCore k c).tens = d.tens := rfl
@[simp] theorem Die.setCore_flt (k : Nat) (c : Core) : (d.setCore k c).flt = d.flt := rfl
@[simp] theorem Die.setCore_mgt (k : Nat) (c : Core) : (d.setCore k c).mgt = d.mgt := rfl
@[simp] theorem Die.setCore_dbl (k : Nat) (c : Core) : (d.setCore k c).dbl = d.dbl := rfl
@[simp] theorem Die.setCore_pwr (k : Nat) (c : Core) : (d.setCore k c).pwr = d.pwr := rfl
@[simp] theorem Die.setCore_pmu (k : Nat) (c : Core) : (d.setCore k c).pmu = d.pmu := rfl
@[simp] theorem Die.setCore_kps (k : Nat) (c : Core) : (d.setCore k c).kps = d.kps := rfl
@[simp] theorem Die.setCore_boot (k : Nat) (c : Core) : (d.setCore k c).boot = d.boot := rfl
@[simp] theorem Die.setCore_jobs (k : Nat) (c : Core) : (d.setCore k c).jobs = d.jobs := rfl
@[simp] theorem Die.setCore_cxl (k : Nat) (c : Core) : (d.setCore k c).cxl = d.cxl := rfl
@[simp] theorem Die.setCore_ohmSeen (k : Nat) (c : Core) : (d.setCore k c).ohmSeen = d.ohmSeen := rfl

theorem Die.emit_out (m : Out) : (d.emit m).out = m :: d.out := rfl

end Sys2Proof.Machine
end

