-- ==== Sys2Proof/Laws/Outcome.lean ====
section
/-! SUPPORT. Laws/Outcome.lean: what the shared frames of the meanings answer (on the main die, on running blocks, for an
accepted packet command), so that no proof about one command unfolds them. -/

namespace Sys2Proof.Machine

theorem onDie_released {s : State} (h : s.ohm.released = true) (f : Die → Die) :
    onDie s f = .next { s with die := f s.die } := by simp [onDie, h]

theorem onLive_runs {s : State} (h : s.runs = true) (f : Die → Die) : onLive s f = .next { s with die := f s.die } := by
  unfold State.runs at h
  simp only [Bool.and_eq_true] at h
  simp [onLive, onDie, h.1, h.2]

theorem onCmd_runs {s : State} (h : s.runs = true) (f : Die → Die) : onCmd s f = .next { s with die := f s.die } := by
  unfold State.runs at h
  simp only [Bool.and_eq_true] at h
  simp [onCmd, onDie, h.1, h.2]

theorem onMover_runs {s : State} (h : s.runs = true) (hm : s.die.moverRuns = true) (f : Die → Die) :
    onMover s f = .next { s with die := f s.die } := by
  unfold onMover; rw [onLive_runs h]; simp [hm]

theorem onMailbox_runs {s : State} (h : s.runs = true) {p ld : Nat} (hm : s.die.hasMailbox p ld = true) (f : Die → Die) :
    onMailbox s p ld f = .next { s with die := f s.die.active } := by
  unfold onMailbox; rw [onLive_runs h]; simp [hm]

theorem onMailbox_takes {s : State} {p ld : Nat} (h : s.takesMailbox p ld = true) (f : Die → Die) :
    onMailbox s p ld f = .next { s with die := f s.die.active } := by
  simp only [State.takesMailbox, Bool.and_eq_true] at h
  exact onMailbox_runs h.1 h.2 f

/-- An SPDM request that reaches its responder runs its own body on the die that took it. -/
theorem onSpdm_takes {s : State} {ch : SpdmCh} (h : s.takesSpdm ch = true) (f : Die → Die) :
    onSpdm s ch f = .next { s with die := f (s.die.spdmIn ch) } := by
  unfold onSpdm
  cases ch <;> simp only [State.takesSpdm, Bool.and_eq_true] at h <;> rw [onLive_runs h.1] <;> simp [h.2]

theorem onWindow_window {s : State} {src : Src} (h : s.window src = true) (f ld : Die → Die) :
    onWindow s src f ld = .next { s with die := f s.die } := by
  simp only [State.window, Bool.and_eq_true, Bool.not_eq_true'] at h
  unfold onWindow; rw [onLive_runs h.1]; simp [h.2]

/-- An access through a tenant LD's BAR0 reaches that LD's window. -/
theorem onWindow_ld {s : State} {src : Src} (h : s.runs = true) (hl : s.die.ldBar src = true) (f ld : Die → Die) :
    onWindow s src f ld = .next { s with die := ld s.die } := by
  unfold onWindow; rw [onLive_runs h]; simp [hl]

/-- What a meaning of the main die leaves: the queue, the Ohmoux die and the link. -/
theorem onDie_keeps {s t : State} {f : Die → Die} (h : onDie s f = .next t) :
    t.pending = s.pending ∧ t.ohm = s.ohm ∧ t.link = s.link := by
  unfold onDie at h; split at h <;> cases h <;> exact ⟨rfl, rfl, rfl⟩

/-- The same in reset: nothing changes. -/
theorem onDie_reset {s : State} (h : s.ohm.released = false) (f : Die → Die) : onDie s f = .next s := by simp [onDie, h]

/-- What a pin's change leaves. -/
theorem pinChange_keeps {s t : State} {p : Nat} {b : Bool} {f : Die → Die} (h : pinChange s p b f = .next t) :
    t.pending = s.pending ∧ t.ohm = s.ohm ∧ t.link = s.link := by
  unfold pinChange at h; cases h; exact ⟨rfl, rfl, rfl⟩

/-- An accepted packet command runs its own body on the die that took it. -/
theorem command_of_accepts {d d1 : Die} {h : Hdr} {op want : Nat} {roles : List Role}
    (ha : d.accepts h op roles want = some d1) (body : Die → Die) : d.command h op roles want body = body d1 := by
  unfold Die.accepts at ha
  unfold Die.command
  split at ha
  · cases ha
  · split at ha
    · cases ha
    · rename_i d0 he hr
      dsimp only at ha
      split at ha
      · cases ha
      · rename_i hn
        cases ha
        simp only [Option.not_isSome_iff_eq_none] at hn
        simp [he, hr, hn]

theorem accepts_of_long {d d1 : Die} {h : Hdr} {op want : Nat} {roles : List Role}
    (ha : d.acceptsLong h op roles want = some d1) :
    d.accepts h op roles want = some d1 ∧ d1.mailboxBusy h.via = false := by
  unfold Die.acceptsLong at ha
  split at ha
  · split at ha
    · cases ha
    · rename_i h1 h2; cases ha; exact ⟨h1, by simpa using h2⟩
  · cases ha

theorem longCommand_of_accepts {d d1 : Die} {h : Hdr} {op want : Nat} {roles : List Role}
    (ha : d.acceptsLong h op roles want = some d1) (body : Die → Die) : d.longCommand h op roles want body = body d1 := by
  obtain ⟨h1, h2⟩ := accepts_of_long ha
  unfold Die.longCommand
  rw [command_of_accepts h1]
  simp [h2]

theorem onCmd_takes {s : State} {h : Hdr} {op want : Nat} {roles : List Role} {d : Die}
    (ht : s.takes h op roles want d) (body : Die → Die) :
    onCmd s (fun d => d.command h op roles want body) = .next { s with die := body d } := by
  rw [onCmd_runs ht.1, command_of_accepts ht.2]

theorem onCmd_takesLong {s : State} {h : Hdr} {op want : Nat} {roles : List Role} {d : Die}
    (ht : s.takesLong h op roles want d) (body : Die → Die) :
    onCmd s (fun d => d.longCommand h op roles want body) = .next { s with die := body d } := by
  rw [onCmd_runs ht.1, longCommand_of_accepts ht.2]

theorem withOhm_keeps (s : State) (o : Ohm) : (s.withOhm o).pending = s.pending ∧ (s.withOhm o).ohm = { o with tripNow := none } := by
  unfold State.withOhm; split <;> exact ⟨rfl, rfl⟩

theorem sendFrame_keeps (s : State) : s.sendFrame.pending = s.pending ∧ s.sendFrame.die = s.die := by
  unfold State.sendFrame; split <;> exact ⟨rfl, rfl⟩

/-- A reply off the rings goes out as the newest message, and nothing but the endpoints' bookkeeping changes beside it. -/
theorem sendReply_offRing (d : Die) (r : Reply) (h : offRing r.via = true) : d.sendReply r = d.emit (.reply r) := by
  unfold Die.sendReply
  cases hv : r.via <;> simp_all [offRing]

end Sys2Proof.Machine
end

