-- ==== Sys2Proof/WellFormed.lean ====
section
/-! DEFINITION. WellFormed.lean: which commands are well formed: every operand fits the width the spec gives it (R387, R400
for packet commands; the address widths of R1, R20 and R281 and the instance ranges of R15, R16 and R496 for the others).
A well-formed command may still be refused by the device: that is its effect. -/

namespace Sys2Proof

/-- `x` fits `n` bits. -/
def ub (n x : Nat) : Bool := decide (x < 2 ^ n)
/-- `x` is below `n`. -/
def lt (n x : Nat) : Bool := decide (x < n)
/-- A list of u16 with its u16 count (R388). -/
def u16s (l : List Nat) : Bool := ub 16 l.length && l.all (ub 16)
/-- A list of pairs of u16. -/
def u16pairs (l : List (Nat × Nat)) : Bool := ub 16 l.length && l.all fun p => ub 16 p.1 && ub 16 p.2

/-- The transport names an endpoint there is. -/
def Via.wf : Via → Bool
  | .mailbox p => lt 6 p
  | .ldMailbox p ld => lt 6 p && lt 16 ld
  | .mctp eid _ => ub 8 eid
  | .steward p => lt 6 p
  | .ring k => lt 8 k

/-- The header's fields fit their bytes (R387). -/
def Hdr.wf (h : Hdr) : Bool :=
  h.via.wf && ub 16 h.seq && ub 16 h.tenWord && ub 16 h.flags && ub 32 h.plen && ub 32 h.rsvd && ub 16 h.cxlOp

/-- The request extension's fields fit their bits (R52). -/
def Ext.wf (e : Ext) : Bool := ub 16 e.gen && ub 10 e.ttag && ub 12 e.kidx && ub 3 e.dcode && ub 4 e.coh

/-- A request header's fields fit. -/
def M2S.wf (m : M2S) : Bool := lt 6 m.port && lt 16 m.ld && ub 16 m.tag && ub 52 m.ta && m.ext.wf

/-- An access comes from a master of R15; a host port names its port; LDs are 0 to 15, 31 the FM-owned one. -/
def Src.wf (s : Src) : Bool := ub 4 s.master && lt 6 s.port && (decide (6 ≤ s.master) || decide (s.master = s.port)) &&
  (lt 16 s.ld || decide (s.ld = 31))

def Terms.wf (t : Terms) : Bool :=
  ub 8 t.cls && ub 16 t.rd && ub 16 t.wr && ub 8 t.prec && ub 8 t.peak && ub 8 t.fetch && u16s t.bays

def BayAddP.wf (p : BayAddP) : Bool :=
  ub 16 p.ten && ub 16 p.bay && ub 8 p.mode && ub 8 p.cache && ub 16 p.defKey && ub 8 p.set && ub 8 p.policy &&
  ub 16 p.primary && ub 16 p.secondary && ub 32 p.quota

def MemCfgP.wf (p : MemCfgP) : Bool := ub 32 p.tir && ub 32 p.map && ub 32 p.hbc && ub 32 p.itr && ub 32 p.cje

def LinkInfo.wf (l : LinkInfo) : Bool := lt 6 l.speed && lt 4 l.flit
def optLink : Option LinkInfo → Bool
  | none => true
  | some l => l.wf
def Straps.wf (s : Straps) : Bool := lt 8 s.trip && lt 8 s.soa && lt 8 s.retry && lt 8 s.cool
def DimmReading.wf (r : DimmReading) : Bool := ub 8 r.temp && ub 10 r.power
def UnitErr.wf (e : UnitErr) : Bool := ub 9 e.unit && ub 16 e.code && ub 64 e.addr && ub 32 e.syndrome
def SpdmCh.wf : SpdmCh → Bool
  | .doe p => lt 6 p
  | .sideband => true
def Group.wf : Group → Bool
  | .hpt p => lt 6 p
  | _ => true
def LatchPair.wf : LatchPair → Bool
  | .pwrRes k => lt 7 k
  | .pmuCtr k => lt 512 k
  | _ => true

/-- A command is well formed. -/
def Instr.wf : Instr → Bool
  | .transomBoundary => true
  | .getIdentity h => h.wf
  | .getCapacity h => h.wf
  | .getNotices h max => h.wf && ub 16 max
  | .setNoticeRoute h mask eid ring => h.wf && ub 8 mask && ub 8 eid && ub 8 ring
  | .ringSetup h ring role ten bay offset log2 vector => h.wf && ub 8 ring && ub 8 role && ub 16 ten && ub 16 bay && ub 32 offset && ub 8 log2 && ub 8 vector
  | .tenCreate h ten port ld segLen => h.wf && ub 16 ten && ub 8 port && ub 8 ld && ub 16 segLen
  | .tenSet h ten cls louvre => h.wf && ub 16 ten && ub 8 cls && ub 8 louvre
  | .tenReset h ten scrub => h.wf && ub 16 ten && ub 8 scrub
  | .tenRemove h ten => h.wf && ub 16 ten
  | .tenResize h ten segLen => h.wf && ub 16 ten && ub 16 segLen
  | .tenLog h ten en entry => h.wf && ub 16 ten && ub 8 en && ub 16 entry
  | .tenHarvest h ten => h.wf && ub 16 ten
  | .tenQuery h ten => h.wf && ub 16 ten
  | .portSet h port cfg => h.wf && ub 8 port && ub 32 cfg
  | .lvrSet h louvre shape target => h.wf && ub 8 louvre && ub 32 shape && ub 32 target
  | .lvrGlobal h cfg therm pmic map0 map1 => h.wf && ub 32 cfg && ub 32 therm && ub 32 pmic && ub 32 map0 && ub 32 map1
  | .bayAdd h p => h.wf && p.wf
  | .bayRemove h ten bay force waitMs => h.wf && ub 16 ten && ub 16 bay && ub 8 force && ub 32 waitMs
  | .baySet h ten bay cache policy quota => h.wf && ub 16 ten && ub 16 bay && ub 8 cache && ub 8 policy && ub 32 quota
  | .bayQuery h ten bay => h.wf && ub 16 ten && ub 16 bay
  | .storeAdd h set => h.wf && ub 8 set
  | .storeRelease h store => h.wf && ub 16 store
  | .tierSet h policy value => h.wf && ub 8 policy && ub 32 value
  | .memCfg h p => h.wf && p.wf
  | .conCreate h ten t => h.wf && ub 16 ten && t.wf
  | .conChange h con t => h.wf && ub 16 con && t.wf
  | .conReadmit h con => h.wf && ub 16 con
  | .conDelete h con => h.wf && ub 16 con
  | .conQuery h con => h.wf && ub 16 con
  | .capQuery h => h.wf
  | .conDefaults h cfg => h.wf && ub 32 cfg
  | .keyAllow h ten list => h.wf && ub 16 ten && u16s list
  | .keyRetire h a mode phys target list => h.wf && ub 16 a && ub 8 mode && ub 8 phys && ub 16 target && u16pairs list
  | .keyQuery h k => h.wf && ub 16 k
  | .domCreate h dom snpTo members => h.wf && ub 8 dom && ub 16 snpTo && u16s members
  | .domJoin h dom ten list => h.wf && ub 8 dom && ub 16 ten && u16s list
  | .domLeave h dom ten => h.wf && ub 8 dom && ub 16 ten
  | .domDestroy h dom ten => h.wf && ub 8 dom && ub 16 ten
  | .domRebuild h dom members => h.wf && ub 8 dom && u16s members
  | .domAddBay h dom owner bay list => h.wf && ub 8 dom && ub 16 owner && ub 16 bay && u16pairs list
  | .domQuery h dom => h.wf && ub 8 dom
  | .qSetup h q cfg key sq cq => h.wf && ub 8 q && ub 32 cfg && ub 32 key && ub 32 sq && ub 32 cq
  | .qRestart h q => h.wf && ub 8 q
  | .qDisable h q => h.wf && ub 8 q
  | .qQuery h q => h.wf && ub 8 q
  | .pwrLevel h level => h.wf && ub 8 level
  | .pwrSleep h state mask => h.wf && ub 8 state && ub 32 mask
  | .pwrQuery h => h.wf
  | .ohmQuery h => h.wf
  | .ohmClear h => h.wf
  | .fltGet h unit max => h.wf && ub 16 unit && ub 16 max
  | .fltClear h unit => h.wf && ub 16 unit
  | .fltInject h unit kind => h.wf && ub 16 unit && ub 16 kind
  | .eventEnable h base value => h.wf && ub 32 base && ub 32 value
  | .chReadmit h ch => h.wf && ub 8 ch
  | .telCfg h entry period => h.wf && ub 16 entry && ub 8 period
  | .pmuSelect h ctr event chain => h.wf && ub 16 ctr && ub 32 event && ub 8 chain
  | .telWindow h ten allow => h.wf && ub 16 ten && ub 8 allow
  | .pmuRead h first count => h.wf && ub 16 first && ub 16 count
  | .dimmQuery h ch => h.wf && ub 8 ch
  | .fwInfo h => h.wf
  | .fwWrite h image offset data => h.wf && ub 8 image && ub 32 offset && decide (data.length < 2 ^ 32)
  | .fwVerify h image => h.wf && ub 8 image
  | .fwSelect h image => h.wf && ub 8 image
  | .keepRead h first count => h.wf && ub 16 first && ub 16 count
  | .keepWrite h k value => h.wf && ub 16 k && ub 32 value
  | .deviceRestart h => h.wf
  | .dbgNormal h invasive peephole => h.wf && ub 8 invasive && ub 8 peephole
  | .dbgBind h ten => h.wf && ub 16 ten
  | .dbgQuery h => h.wf
  | .dblClaim h secret stewardPort => h.wf && ub 384 secret && ub 8 stewardPort
  | .dblPropose h kind body => h.wf && ub 16 kind && decide (body.length < 2 ^ 32)
  | .dblGet h id => h.wf && ub 32 id
  | .dblSign h id hmac => h.wf && ub 32 id && ub 384 hmac
  | .dblWithdraw h id => h.wf && ub 32 id
  | .dblStatus h => h.wf
  | .unknownOpcode h opcode => h.wf && ub 16 opcode
  | .identify port ld => lt 6 port && lt 16 ld
  | .getHealthInfo port ld => lt 6 port && lt 16 ld
  | .getTimestamp port ld => lt 6 port && lt 16 ld
  | .setTimestamp port ld value => lt 6 port && lt 16 ld && ub 64 value
  | .getPoisonList port ld ta lines => lt 6 port && lt 16 ld && ub 43 ta && ub 43 lines
  | .injectPoison port ld ta => lt 6 port && lt 16 ld && ub 43 ta
  | .clearPoison port ld ta _ => lt 6 port && lt 16 ld && ub 43 ta
  | .sanitize port ld => lt 6 port && lt 16 ld
  | .secureErase port ld => lt 6 port && lt 16 ld
  | .getLdInfo port => lt 6 port
  | .getLdAllocations port => lt 6 port
  | .setLdAllocations port => lt 6 port
  | .getMhdInfo port => lt 6 port
  | .getCertificate ch slot => ch.wf && lt 8 slot
  | .challenge ch slot nonce => ch.wf && lt 8 slot && ub 256 nonce
  | .getMeasurements ch nonce => ch.wf && ub 256 nonce
  | .keyExchange ch _ => ch.wf
  | .finish ch session _ => ch.wf && ub 32 session
  | .keyUpdate ch session => ch.wf && ub 32 session
  | .heartbeat ch session => ch.wf && ub 32 session
  | .pskExchange ch => ch.wf
  | .ideKm port session _ => lt 6 port && ub 32 session
  | .commitGo src g => src.wf && g.wf
  | .fcxRequest port ld _ => lt 6 port && lt 16 ld
  | .memEnable port ld _ => lt 6 port && lt 16 ld
  | .jobDoorbell src q tail => src.wf && ub 6 q && ub 32 tail
  | .ringTailWrite src k tail => src.wf && ub 10 k && ub 32 tail
  | .secureWindowAccess src offset _ value => src.wf && ub 24 offset && ub 64 value
  | .latchingRead src p => src.wf && p.wf
  | .registerWrite src offset size value => src.wf && ub 24 offset && ub 32 size && ub 64 value
  | .memRd m => m.wf
  | .memWr m _ => m.wf
  | .memWrPartial m _ _ => m.wf
  | .rdShared m => m.wf
  | .rdOwn m => m.wf
  | .rdOwnNoData m => m.wf
  | .rdCur m => m.wf
  | .wrBack m _ => m.wf
  | .cleanEvict m => m.wf
  | .compAck m => m.wf
  | .waitlistStart dla => ub 43 dla
  | .snpData m _ => m.wf
  | .biRsp m _ _ => m.wf
  | .memInv m => m.wf
  | .biConflict m => m.wf
  | .biConflictAck m => m.wf
  | .snoopLate dla port => ub 43 dla && lt 6 port
  | .memberTimeout dla port => ub 43 dla && lt 6 port
  | .directorySweepDone _ => true
  | .beQueueEntryTake _ => true
  | .beCrossbarEntry _ => true
  | .channelReplan ch overhead refresh blocked => lt 16 ch && ub 16 overhead && ub 16 refresh && ub 16 blocked
  | .granuleReadReturn _ dga _ => ub 43 dga
  | .nodeFetchReturn level index _ => ub 2 level && ub 32 index
  | .dirtyWriteback => true
  | .laneStore ch => lt 16 ch
  | .reencryptGranule page slot _ => ub 31 page && lt 64 slot
  | .leafFillDone block => ub 7 block
  | .unpinWritebackDone block => ub 7 block
  | .revalSweepDone => true
  | .paneOperation page _ => ub 31 page
  | .holdReceived slice page => lt 8 slice && ub 31 page
  | .holdAnswer slice page => lt 8 slice && ub 31 page
  | .releaseReceived slice page => lt 8 slice && ub 31 page
  | .scanStart bay => ub 14 bay
  | .scanStep bay lines => ub 14 bay && ub 43 lines
  | .moveCopy page _ => ub 31 page
  | .moveCommit page => ub 31 page
  | .rekeyOperation a dga _ => ub 12 a && ub 43 dga
  | .paneRekeyOperation a page pane _ => ub 12 a && ub 31 page && ub 3 pane
  | .eraseLeafReset a bay => ub 12 a && ub 14 bay
  | .physFill a bay => ub 12 a && ub 14 bay
  | .scrubPage bay page => ub 14 bay && ub 31 page
  | .retireDrainEnd a => ub 12 a
  | .flushPartDone a _ => ub 12 a
  | .cacheFlushWalkDone => true
  | .bayDrainEnd bay => ub 14 bay
  | .hostExtentRelease port ta => lt 6 port && ub 43 ta
  | .releaseWaitTimeout entry => ub 14 entry
  | .logBufferOr i => ub 11 i
  | .jobFetch q => ub 6 q
  | .jobComplete q => ub 6 q
  | .debugAccess ta _ x => ub 43 ta && x.key.all (ub 12)
  | .jtagAccess offset _ _ value => ub 24 offset && ub 64 value
  | .debugHalt core => lt 4 core
  | .gateEntry core offset returnAddr => lt 4 core && ub 24 offset && ub 64 returnAddr
  | .gateExit core offset => lt 4 core && ub 24 offset
  | .claimTimeout => true
  | .keepWriteDone => true
  | .perstAssert port ns => lt 6 port && ub 32 ns
  | .perstDeassert port => lt 6 port
  | .linkDown port => lt 6 port
  | .linkTrainingDone port link => lt 6 port && optLink link
  | .linkRetrain port link => lt 6 port && link.wf
  | .ideIntegrityFail port => lt 6 port
  | .dimmReading ch slot r => lt 16 ch && lt 2 slot && r.wf
  | .spdInterrupt ch slot => lt 16 ch && lt 2 slot
  | .dieSensorReading sensor _ => ub 3 sensor
  | .vsettleDone => true
  | .sl1ClockStop => true
  | .sl2Entry => true
  | .sl3Entry step => ub 3 step
  | .wakeSource source => ub 5 source
  | .wakeTimer => true
  | .sl2ExitDone => true
  | .sl3ExitDone _ => true
  | .dumpSnapshot => true
  | .dumpRecordDone slot => ub 32 slot
  | .counterWrap k n => ub 10 k && ub 48 n
  | .lineTestDone _ dga _ => ub 43 dga
  | .rowTestDone ch slot _ _ r => lt 16 ch && lt 2 slot && r.lost.all (ub 43)
  | .rankSpareDone x => lt 16 x.ch && x.lost.all (ub 43)
  | .engineTestDone unit _ => ub 9 unit
  | .doorstopDrainEnd => true
  | .testSkip seq => ub 16 seq
  | .watchdogHang unit => ub 9 unit
  | .ifTimeout unit => ub 9 unit
  | .substitutionDone unit _ => ub 9 unit
  | .staleOutput unit epoch => ub 9 unit && ub 4 epoch
  | .quarantineTestStart unit => ub 9 unit
  | .shadowEnd unit => ub 9 unit
  | .interruptionEnd unit => ub 9 unit
  | .channelReadmitDone ch _ => lt 16 ch
  | .fltSelfParity => true
  | .injectWindowClose => true
  | .ohmStatusFrame => true
  | .ohmLinkLost => true
  | .entryLoss => true
  | .startupStepDone _ => true
  | .stepWatchdog => true
  | .vbusRise mv straps _ => ub 16 mv && straps.wf
  | .vbusFall mv => ub 16 mv
  | .vbusOvervoltage mv => ub 16 mv
  | .vbusOvResume mv => ub 16 mv
  | .presenceDebounced cdhMv => ub 16 cdhMv
  | .prsntRise => true
  | .orderlyShutdown => true
  | .entryGood voutMv => ub 16 voutMv
  | .seqEnable => true
  | .mainDieRelease => true
  | .fastTrip => true
  | .soaTrip => true
  | .rampTimeout => true
  | .pgTimeout => true
  | .pgLost k => ub 10 k
  | .cooldownEnd cdhMv => ub 16 cdhMv
  | .goodRunClear => true
  | .presenceCycle => true
  | .fetShortDetect voutMv => ub 16 voutMv
  | .fetShortRecheck voutMv => ub 16 voutMv
  | .oringReverse _ => true
  | .oringTurnOn _ => true
  | .feedLost _ => true
  | .statusFrameSend => true
  | .standbyOhmClear seq => ub 16 seq
  | .standbyOhmQuery seq => ub 16 seq
  | .configRequest port ld => lt 6 port && (lt 16 ld || decide (ld = 31))
  | .directorySweepStep _ => true
  | .cacheFlushWalkStep => true
  | .directoryFetchReturn dla _ => ub 43 dla
  | .pageMapFetchReturn slice page _ => lt 8 slice && ub 31 page
  | .unitErrorDetected e => e.wf

end Sys2Proof
end

