-- ==== Sys2Proof/Laws/PerInstr.lean ====
section
/-! SUPPORT. Laws/PerInstr.lean: the family `Packet`: a well-formed packet command has a well-formed header and is an event of
neither the Ohmoux die, nor a PERST# pin, nor the link between the dies; one lemma per command of the table. -/

namespace Sys2Proof.Laws.Packet

open Sys2Proof Sys2Proof.Machine

/-- The family's statement about one command. -/
def Statement (i : Instr) : Prop :=
  ∀ p : Machine.Packet, packetRow i = some p → i.wf = true →
    p.hdr.wf = true ∧ ofOhmoux i = false ∧ ofPerst i = false ∧ ofLink i = false

/-- A command that is no packet command meets it. -/
theorem of_none {i : Instr} (h : packetRow i = none) : Statement i := by
  intro p hp _
  rw [h] at hp
  cases hp

/-- A packet command whose well-formedness includes its header's meets it. -/
theorem of_some {i : Instr} {q : Machine.Packet} (h : packetRow i = some q) (hw : i.wf = true → q.hdr.wf = true)
    (h1 : ofOhmoux i = false) (h2 : ofPerst i = false) (h3 : ofLink i = false) : Statement i := by
  intro p hp hi
  rw [h] at hp
  cases hp
  exact ⟨hw hi, h1, h2, h3⟩

theorem transomBoundary : Statement (.transomBoundary) := of_none rfl
theorem getIdentity (h : Hdr) : Statement (.getIdentity h) := of_some rfl (fun hw => hw) rfl rfl rfl
theorem getCapacity (h : Hdr) : Statement (.getCapacity h) := of_some rfl (fun hw => hw) rfl rfl rfl
theorem getNotices (h : Hdr) (max : Nat) : Statement (.getNotices h max) := of_some rfl (fun hw => (Bool.and_eq_true_iff.mp hw).1) rfl rfl rfl
theorem setNoticeRoute (h : Hdr) (mask eid ring : Nat) : Statement (.setNoticeRoute h mask eid ring) := of_some rfl (fun hw => (Bool.and_eq_true_iff.mp (Bool.and_eq_true_iff.mp (Bool.and_eq_true_iff.mp hw).1).1).1) rfl rfl rfl
theorem ringSetup (h : Hdr) (ring role ten bay offset log2 vector : Nat) : Statement (.ringSetup h ring role ten bay offset log2 vector) := of_some rfl (fun hw => (Bool.and_eq_true_iff.mp (Bool.and_eq_true_iff.mp (Bool.and_eq_true_iff.mp (Bool.and_eq_true_iff.mp (Bool.and_eq_true_iff.mp (Bool.and_eq_true_iff.mp (Bool.and_eq_true_iff.mp hw).1).1).1).1).1).1).1) rfl rfl rfl
theorem tenCreate (h : Hdr) (ten port ld segLen : Nat) : Statement (.tenCreate h ten port ld segLen) := of_some rfl (fun hw => (Bool.and_eq_true_iff.mp (Bool.and_eq_true_iff.mp (Bool.and_eq_true_iff.mp (Bool.and_eq_true_iff.mp hw).1).1).1).1) rfl rfl rfl
theorem tenSet (h : Hdr) (ten cls louvre : Nat) : Statement (.tenSet h ten cls louvre) := of_some rfl (fun hw => (Bool.and_eq_true_iff.mp (Bool.and_eq_true_iff.mp (Bool.and_eq_true_iff.mp hw).1).1).1) rfl rfl rfl
theorem tenReset (h : Hdr) (ten scrub : Nat) : Statement (.tenReset h ten scrub) := of_some rfl (fun hw => (Bool.and_eq_true_iff.mp (Bool.and_eq_true_iff.mp hw).1).1) rfl rfl rfl
theorem tenRemove (h : Hdr) (ten : Nat) : Statement (.tenRemove h ten) := of_some rfl (fun hw => (Bool.and_eq_true_iff.mp hw).1) rfl rfl rfl
theorem tenResize (h : Hdr) (ten segLen : Nat) : Statement (.tenResize h ten segLen) := of_some rfl (fun hw => (Bool.and_eq_true_iff.mp (Bool.and_eq_true_iff.mp hw).1).1) rfl rfl rfl
theorem tenLog (h : Hdr) (ten en entry : Nat) : Statement (.tenLog h ten en entry) := of_some rfl (fun hw => (Bool.and_eq_true_iff.mp (Bool.and_eq_true_iff.mp (Bool.and_eq_true_iff.mp hw).1).1).1) rfl rfl rfl
theorem tenHarvest (h : Hdr) (ten : Nat) : Statement (.tenHarvest h ten) := of_some rfl (fun hw => (Bool.and_eq_true_iff.mp hw).1) rfl rfl rfl
theorem tenQuery (h : Hdr) (ten : Nat) : Statement (.tenQuery h ten) := of_some rfl (fun hw => (Bool.and_eq_true_iff.mp hw).1) rfl rfl rfl
theorem portSet (h : Hdr) (port cfg : Nat) : Statement (.portSet h port cfg) := of_some rfl (fun hw => (Bool.and_eq_true_iff.mp (Bool.and_eq_true_iff.mp hw).1).1) rfl rfl rfl
theorem lvrSet (h : Hdr) (louvre shape target : Nat) : Statement (.lvrSet h louvre shape target) := of_some rfl (fun hw => (Bool.and_eq_true_iff.mp (Bool.and_eq_true_iff.mp (Bool.and_eq_true_iff.mp hw).1).1).1) rfl rfl rfl
theorem lvrGlobal (h : Hdr) (cfg therm pmic map0 map1 : Nat) : Statement (.lvrGlobal h cfg therm pmic map0 map1) := of_some rfl (fun hw => (Bool.and_eq_true_iff.mp (Bool.and_eq_true_iff.mp (Bool.and_eq_true_iff.mp (Bool.and_eq_true_iff.mp (Bool.and_eq_true_iff.mp hw).1).1).1).1).1) rfl rfl rfl
theorem bayAdd (h : Hdr) (p : BayAddP) : Statement (.bayAdd h p) := of_some rfl (fun hw => (Bool.and_eq_true_iff.mp hw).1) rfl rfl rfl
theorem bayRemove (h : Hdr) (ten bay force waitMs : Nat) : Statement (.bayRemove h ten bay force waitMs) := of_some rfl (fun hw => (Bool.and_eq_true_iff.mp (Bool.and_eq_true_iff.mp (Bool.and_eq_true_iff.mp (Bool.and_eq_true_iff.mp hw).1).1).1).1) rfl rfl rfl
theorem baySet (h : Hdr) (ten bay cache policy quota : Nat) : Statement (.baySet h ten bay cache policy quota) := of_some rfl (fun hw => (Bool.and_eq_true_iff.mp (Bool.and_eq_true_iff.mp (Bool.and_eq_true_iff.mp (Bool.and_eq_true_iff.mp (Bool.and_eq_true_iff.mp hw).1).1).1).1).1) rfl rfl rfl
theorem bayQuery (h : Hdr) (ten bay : Nat) : Statement (.bayQuery h ten bay) := of_some rfl (fun hw => (Bool.and_eq_true_iff.mp (Bool.and_eq_true_iff.mp hw).1).1) rfl rfl rfl
theorem storeAdd (h : Hdr) (set : Nat) : Statement (.storeAdd h set) := of_some rfl (fun hw => (Bool.and_eq_true_iff.mp hw).1) rfl rfl rfl
theorem storeRelease (h : Hdr) (store : Nat) : Statement (.storeRelease h store) := of_some rfl (fun hw => (Bool.and_eq_true_iff.mp hw).1) rfl rfl rfl
theorem tierSet (h : Hdr) (policy value : Nat) : Statement (.tierSet h policy value) := of_some rfl (fun hw => (Bool.and_eq_true_iff.mp (Bool.and_eq_true_iff.mp hw).1).1) rfl rfl rfl
theorem memCfg (h : Hdr) (p : MemCfgP) : Statement (.memCfg h p) := of_some rfl (fun hw => (Bool.and_eq_true_iff.mp hw).1) rfl rfl rfl
theorem conCreate (h : Hdr) (ten : Nat) (t : Terms) : Statement (.conCreate h ten t) := of_some rfl (fun hw => (Bool.and_eq_true_iff.mp (Bool.and_eq_true_iff.mp hw).1).1) rfl rfl rfl
theorem conChange (h : Hdr) (con : Nat) (t : Terms) : Statement (.conChange h con t) := of_some rfl (fun hw => (Bool.and_eq_true_iff.mp (Bool.and_eq_true_iff.mp hw).1).1) rfl rfl rfl
theorem conReadmit (h : Hdr) (con : Nat) : Statement (.conReadmit h con) := of_some rfl (fun hw => (Bool.and_eq_true_iff.mp hw).1) rfl rfl rfl
theorem conDelete (h : Hdr) (con : Nat) : Statement (.conDelete h con) := of_some rfl (fun hw => (Bool.and_eq_true_iff.mp hw).1) rfl rfl rfl
theorem conQuery (h : Hdr) (con : Nat) : Statement (.conQuery h con) := of_some rfl (fun hw => (Bool.and_eq_true_iff.mp hw).1) rfl rfl rfl
theorem capQuery (h : Hdr) : Statement (.capQuery h) := of_some rfl (fun hw => hw) rfl rfl rfl
theorem conDefaults (h : Hdr) (cfg : Nat) : Statement (.conDefaults h cfg) := of_some rfl (fun hw => (Bool.and_eq_true_iff.mp hw).1) rfl rfl rfl
theorem keyAllow (h : Hdr) (ten : Nat) (list : List Nat) : Statement (.keyAllow h ten list) := of_some rfl (fun hw => (Bool.and_eq_true_iff.mp (Bool.and_eq_true_iff.mp hw).1).1) rfl rfl rfl
theorem keyRetire (h : Hdr) (a mode phys target : Nat) (list : List (Nat × Nat)) : Statement (.keyRetire h a mode phys target list) := of_some rfl (fun hw => (Bool.and_eq_true_iff.mp (Bool.and_eq_true_iff.mp (Bool.and_eq_true_iff.mp (Bool.and_eq_true_iff.mp (Bool.and_eq_true_iff.mp hw).1).1).1).1).1) rfl rfl rfl
theorem keyQuery (h : Hdr) (k : Nat) : Statement (.keyQuery h k) := of_some rfl (fun hw => (Bool.and_eq_true_iff.mp hw).1) rfl rfl rfl
theorem domCreate (h : Hdr) (dom snpTo : Nat) (members : List Nat) : Statement (.domCreate h dom snpTo members) := of_some rfl (fun hw => (Bool.and_eq_true_iff.mp (Bool.and_eq_true_iff.mp (Bool.and_eq_true_iff.mp hw).1).1).1) rfl rfl rfl
theorem domJoin (h : Hdr) (dom ten : Nat) (list : List Nat) : Statement (.domJoin h dom ten list) := of_some rfl (fun hw => (Bool.and_eq_true_iff.mp (Bool.and_eq_true_iff.mp (Bool.and_eq_true_iff.mp hw).1).1).1) rfl rfl rfl
theorem domLeave (h : Hdr) (dom ten : Nat) : Statement (.domLeave h dom ten) := of_some rfl (fun hw => (Bool.and_eq_true_iff.mp (Bool.and_eq_true_iff.mp hw).1).1) rfl rfl rfl
theorem domDestroy (h : Hdr) (dom ten : Nat) : Statement (.domDestroy h dom ten) := of_some rfl (fun hw => (Bool.and_eq_true_iff.mp (Bool.and_eq_true_iff.mp hw).1).1) rfl rfl rfl
theorem domRebuild (h : Hdr) (dom : Nat) (members : List Nat) : Statement (.domRebuild h dom members) := of_some rfl (fun hw => (Bool.and_eq_true_iff.mp (Bool.and_eq_true_iff.mp hw).1).1) rfl rfl rfl
theorem domAddBay (h : Hdr) (dom owner bay : Nat) (list : List (Nat × Nat)) : Statement (.domAddBay h dom owner bay list) := of_some rfl (fun hw => (Bool.and_eq_true_iff.mp (Bool.and_eq_true_iff.mp (Bool.and_eq_true_iff.mp (Bool.and_eq_true_iff.mp hw).1).1).1).1) rfl rfl rfl
theorem domQuery (h : Hdr) (dom : Nat) : Statement (.domQuery h dom) := of_some rfl (fun hw => (Bool.and_eq_true_iff.mp hw).1) rfl rfl rfl
theorem qSetup (h : Hdr) (q cfg key sq cq : Nat) : Statement (.qSetup h q cfg key sq cq) := of_some rfl (fun hw => (Bool.and_eq_true_iff.mp (Bool.and_eq_true_iff.mp (Bool.and_eq_true_iff.mp (Bool.and_eq_true_iff.mp (Bool.and_eq_true_iff.mp hw).1).1).1).1).1) rfl rfl rfl
theorem qRestart (h : Hdr) (q : Nat) : Statement (.qRestart h q) := of_some rfl (fun hw => (Bool.and_eq_true_iff.mp hw).1) rfl rfl rfl
theorem qDisable (h : Hdr) (q : Nat) : Statement (.qDisable h q) := of_some rfl (fun hw => (Bool.and_eq_true_iff.mp hw).1) rfl rfl rfl
theorem qQuery (h : Hdr) (q : Nat) : Statement (.qQuery h q) := of_some rfl (fun hw => (Bool.and_eq_true_iff.mp hw).1) rfl rfl rfl
theorem pwrLevel (h : Hdr) (level : Nat) : Statement (.pwrLevel h level) := of_some rfl (fun hw => (Bool.and_eq_true_iff.mp hw).1) rfl rfl rfl
theorem pwrSleep (h : Hdr) (state mask : Nat) : Statement (.pwrSleep h state mask) := of_some rfl (fun hw => (Bool.and_eq_true_iff.mp (Bool.and_eq_true_iff.mp hw).1).1) rfl rfl rfl
theorem pwrQuery (h : Hdr) : Statement (.pwrQuery h) := of_some rfl (fun hw => hw) rfl rfl rfl
theorem ohmQuery (h : Hdr) : Statement (.ohmQuery h) := of_some rfl (fun hw => hw) rfl rfl rfl
theorem ohmClear (h : Hdr) : Statement (.ohmClear h) := of_some rfl (fun hw => hw) rfl rfl rfl
theorem fltGet (h : Hdr) (unit max : Nat) : Statement (.fltGet h unit max) := of_some rfl (fun hw => (Bool.and_eq_true_iff.mp (Bool.and_eq_true_iff.mp hw).1).1) rfl rfl rfl
theorem fltClear (h : Hdr) (unit : Nat) : Statement (.fltClear h unit) := of_some rfl (fun hw => (Bool.and_eq_true_iff.mp hw).1) rfl rfl rfl
theorem fltInject (h : Hdr) (unit kind : Nat) : Statement (.fltInject h unit kind) := of_some rfl (fun hw => (Bool.and_eq_true_iff.mp (Bool.and_eq_true_iff.mp hw).1).1) rfl rfl rfl
theorem eventEnable (h : Hdr) (base value : Nat) : Statement (.eventEnable h base value) := of_some rfl (fun hw => (Bool.and_eq_true_iff.mp (Bool.and_eq_true_iff.mp hw).1).1) rfl rfl rfl
theorem chReadmit (h : Hdr) (ch : Nat) : Statement (.chReadmit h ch) := of_some rfl (fun hw => (Bool.and_eq_true_iff.mp hw).1) rfl rfl rfl
theorem telCfg (h : Hdr) (entry period : Nat) : Statement (.telCfg h entry period) := of_some rfl (fun hw => (Bool.and_eq_true_iff.mp (Bool.and_eq_true_iff.mp hw).1).1) rfl rfl rfl
theorem pmuSelect (h : Hdr) (ctr event chain : Nat) : Statement (.pmuSelect h ctr event chain) := of_some rfl (fun hw => (Bool.and_eq_true_iff.mp (Bool.and_eq_true_iff.mp (Bool.and_eq_true_iff.mp hw).1).1).1) rfl rfl rfl
theorem telWindow (h : Hdr) (ten allow : Nat) : Statement (.telWindow h ten allow) := of_some rfl (fun hw => (Bool.and_eq_true_iff.mp (Bool.and_eq_true_iff.mp hw).1).1) rfl rfl rfl
theorem pmuRead (h : Hdr) (first count : Nat) : Statement (.pmuRead h first count) := of_some rfl (fun hw => (Bool.and_eq_true_iff.mp (Bool.and_eq_true_iff.mp hw).1).1) rfl rfl rfl
theorem dimmQuery (h : Hdr) (ch : Nat) : Statement (.dimmQuery h ch) := of_some rfl (fun hw => (Bool.and_eq_true_iff.mp hw).1) rfl rfl rfl
theorem fwInfo (h : Hdr) : Statement (.fwInfo h) := of_some rfl (fun hw => hw) rfl rfl rfl
theorem fwWrite (h : Hdr) (image offset : Nat) (data : List Byte) : Statement (.fwWrite h image offset data) := of_some rfl (fun hw => (Bool.and_eq_true_iff.mp (Bool.and_eq_true_iff.mp (Bool.and_eq_true_iff.mp hw).1).1).1) rfl rfl rfl
theorem fwVerify (h : Hdr) (image : Nat) : Statement (.fwVerify h image) := of_some rfl (fun hw => (Bool.and_eq_true_iff.mp hw).1) rfl rfl rfl
theorem fwSelect (h : Hdr) (image : Nat) : Statement (.fwSelect h image) := of_some rfl (fun hw => (Bool.and_eq_true_iff.mp hw).1) rfl rfl rfl
theorem keepRead (h : Hdr) (first count : Nat) : Statement (.keepRead h first count) := of_some rfl (fun hw => (Bool.and_eq_true_iff.mp (Bool.and_eq_true_iff.mp hw).1).1) rfl rfl rfl
theorem keepWrite (h : Hdr) (k value : Nat) : Statement (.keepWrite h k value) := of_some rfl (fun hw => (Bool.and_eq_true_iff.mp (Bool.and_eq_true_iff.mp hw).1).1) rfl rfl rfl
theorem deviceRestart (h : Hdr) : Statement (.deviceRestart h) := of_some rfl (fun hw => hw) rfl rfl rfl
theorem dbgNormal (h : Hdr) (invasive peephole : Nat) : Statement (.dbgNormal h invasive peephole) := of_some rfl (fun hw => (Bool.and_eq_true_iff.mp (Bool.and_eq_true_iff.mp hw).1).1) rfl rfl rfl
theorem dbgBind (h : Hdr) (ten : Nat) : Statement (.dbgBind h ten) := of_some rfl (fun hw => (Bool.and_eq_true_iff.mp hw).1) rfl rfl rfl
theorem dbgQuery (h : Hdr) : Statement (.dbgQuery h) := of_some rfl (fun hw => hw) rfl rfl rfl
theorem dblClaim (h : Hdr) (secret : Nat) (stewardPort : Nat) : Statement (.dblClaim h secret stewardPort) := of_some rfl (fun hw => (Bool.and_eq_true_iff.mp (Bool.and_eq_true_iff.mp hw).1).1) rfl rfl rfl
theorem dblPropose (h : Hdr) (kind : Nat) (body : List Byte) : Statement (.dblPropose h kind body) := of_some rfl (fun hw => (Bool.and_eq_true_iff.mp (Bool.and_eq_true_iff.mp hw).1).1) rfl rfl rfl
theorem dblGet (h : Hdr) (id : Nat) : Statement (.dblGet h id) := of_some rfl (fun hw => (Bool.and_eq_true_iff.mp hw).1) rfl rfl rfl
theorem dblSign (h : Hdr) (id hmac : Nat) : Statement (.dblSign h id hmac) := of_some rfl (fun hw => (Bool.and_eq_true_iff.mp (Bool.and_eq_true_iff.mp hw).1).1) rfl rfl rfl
theorem dblWithdraw (h : Hdr) (id : Nat) : Statement (.dblWithdraw h id) := of_some rfl (fun hw => (Bool.and_eq_true_iff.mp hw).1) rfl rfl rfl
theorem dblStatus (h : Hdr) : Statement (.dblStatus h) := of_some rfl (fun hw => hw) rfl rfl rfl
theorem unknownOpcode (h : Hdr) (opcode : Nat) : Statement (.unknownOpcode h opcode) := of_none rfl
theorem identify (port ld : Nat) : Statement (.identify port ld) := of_none rfl
theorem getHealthInfo (port ld : Nat) : Statement (.getHealthInfo port ld) := of_none rfl
theorem getTimestamp (port ld : Nat) : Statement (.getTimestamp port ld) := of_none rfl
theorem setTimestamp (port ld value : Nat) : Statement (.setTimestamp port ld value) := of_none rfl
theorem getPoisonList (port ld ta lines : Nat) : Statement (.getPoisonList port ld ta lines) := of_none rfl
theorem injectPoison (port ld ta : Nat) : Statement (.injectPoison port ld ta) := of_none rfl
theorem clearPoison (port ld ta : Nat) (data : Line) : Statement (.clearPoison port ld ta data) := of_none rfl
theorem sanitize (port ld : Nat) : Statement (.sanitize port ld) := of_none rfl
theorem secureErase (port ld : Nat) : Statement (.secureErase port ld) := of_none rfl
theorem getLdInfo (port : Nat) : Statement (.getLdInfo port) := of_none rfl
theorem getLdAllocations (port : Nat) : Statement (.getLdAllocations port) := of_none rfl
theorem setLdAllocations (port : Nat) : Statement (.setLdAllocations port) := of_none rfl
theorem getMhdInfo (port : Nat) : Statement (.getMhdInfo port) := of_none rfl
theorem getCertificate (ch : SpdmCh) (slot : Nat) : Statement (.getCertificate ch slot) := of_none rfl
theorem challenge (ch : SpdmCh) (slot nonce : Nat) : Statement (.challenge ch slot nonce) := of_none rfl
theorem getMeasurements (ch : SpdmCh) (nonce : Nat) : Statement (.getMeasurements ch nonce) := of_none rfl
theorem keyExchange (ch : SpdmCh) (mutualAuth : Bool) : Statement (.keyExchange ch mutualAuth) := of_none rfl
theorem finish (ch : SpdmCh) (session : Nat) (verifies : Bool) : Statement (.finish ch session verifies) := of_none rfl
theorem keyUpdate (ch : SpdmCh) (session : Nat) : Statement (.keyUpdate ch session) := of_none rfl
theorem heartbeat (ch : SpdmCh) (session : Nat) : Statement (.heartbeat ch session) := of_none rfl
theorem pskExchange (ch : SpdmCh) : Statement (.pskExchange ch) := of_none rfl
theorem ideKm (port session : Nat) (msg : IdeMsg) : Statement (.ideKm port session msg) := of_none rfl
theorem commitGo (src : Src) (g : Group) : Statement (.commitGo src g) := of_none rfl
theorem fcxRequest (port ld : Nat) (request : Bool) : Statement (.fcxRequest port ld request) := of_none rfl
theorem memEnable (port ld : Nat) (value : Bool) : Statement (.memEnable port ld value) := of_none rfl
theorem jobDoorbell (src : Src) (q tail : Nat) : Statement (.jobDoorbell src q tail) := of_none rfl
theorem ringTailWrite (src : Src) (k tail : Nat) : Statement (.ringTailWrite src k tail) := of_none rfl
theorem secureWindowAccess (src : Src) (offset : Nat) (write : Bool) (value : Nat) : Statement (.secureWindowAccess src offset write value) := of_none rfl
theorem latchingRead (src : Src) (p : LatchPair) : Statement (.latchingRead src p) := of_none rfl
theorem registerWrite (src : Src) (offset size value : Nat) : Statement (.registerWrite src offset size value) := of_none rfl
theorem memRd (m : M2S) : Statement (.memRd m) := of_none rfl
theorem memWr (m : M2S) (data : Line) : Statement (.memWr m data) := of_none rfl
theorem memWrPartial (m : M2S) (data : Line) (mask : BitVec 64) : Statement (.memWrPartial m data mask) := of_none rfl
theorem rdShared (m : M2S) : Statement (.rdShared m) := of_none rfl
theorem rdOwn (m : M2S) : Statement (.rdOwn m) := of_none rfl
theorem rdOwnNoData (m : M2S) : Statement (.rdOwnNoData m) := of_none rfl
theorem rdCur (m : M2S) : Statement (.rdCur m) := of_none rfl
theorem wrBack (m : M2S) (data : Line) : Statement (.wrBack m data) := of_none rfl
theorem cleanEvict (m : M2S) : Statement (.cleanEvict m) := of_none rfl
theorem compAck (m : M2S) : Statement (.compAck m) := of_none rfl
theorem waitlistStart (dla : Nat) : Statement (.waitlistStart dla) := of_none rfl
theorem snpData (m : M2S) (data : Line) : Statement (.snpData m data) := of_none rfl
theorem biRsp (m : M2S) (rsp : Rsp) (dirty : Bool) : Statement (.biRsp m rsp dirty) := of_none rfl
theorem memInv (m : M2S) : Statement (.memInv m) := of_none rfl
theorem biConflict (m : M2S) : Statement (.biConflict m) := of_none rfl
theorem biConflictAck (m : M2S) : Statement (.biConflictAck m) := of_none rfl
theorem snoopLate (dla port : Nat) : Statement (.snoopLate dla port) := of_none rfl
theorem memberTimeout (dla port : Nat) : Statement (.memberTimeout dla port) := of_none rfl
theorem directorySweepDone (sweep : Nat) : Statement (.directorySweepDone sweep) := of_none rfl
theorem beQueueEntryTake (txn : Nat) : Statement (.beQueueEntryTake txn) := of_none rfl
theorem beCrossbarEntry (txn : Nat) : Statement (.beCrossbarEntry txn) := of_none rfl
theorem channelReplan (ch overhead refresh blocked : Nat) : Statement (.channelReplan ch overhead refresh blocked) := of_none rfl
theorem granuleReadReturn (txn dga : Nat) (a : Arrival) : Statement (.granuleReadReturn txn dga a) := of_none rfl
theorem nodeFetchReturn (level index : Nat) (a : NodeArrival) : Statement (.nodeFetchReturn level index a) := of_none rfl
theorem dirtyWriteback : Statement (.dirtyWriteback) := of_none rfl
theorem laneStore (ch : Nat) : Statement (.laneStore ch) := of_none rfl
theorem reencryptGranule (page slot : Nat) (dist : List (Nat × Arrival)) : Statement (.reencryptGranule page slot dist) := of_none rfl
theorem leafFillDone (block : Nat) : Statement (.leafFillDone block) := of_none rfl
theorem unpinWritebackDone (block : Nat) : Statement (.unpinWritebackDone block) := of_none rfl
theorem revalSweepDone : Statement (.revalSweepDone) := of_none rfl
theorem paneOperation (page : Nat) (dist : List (Nat × Arrival)) : Statement (.paneOperation page dist) := of_none rfl
theorem holdReceived (slice page : Nat) : Statement (.holdReceived slice page) := of_none rfl
theorem holdAnswer (slice page : Nat) : Statement (.holdAnswer slice page) := of_none rfl
theorem releaseReceived (slice page : Nat) : Statement (.releaseReceived slice page) := of_none rfl
theorem scanStart (bay : Nat) : Statement (.scanStart bay) := of_none rfl
theorem scanStep (bay lines : Nat) : Statement (.scanStep bay lines) := of_none rfl
theorem moveCopy (page : Nat) (dist : List (Nat × Arrival)) : Statement (.moveCopy page dist) := of_none rfl
theorem moveCommit (page : Nat) : Statement (.moveCommit page) := of_none rfl
theorem rekeyOperation (a dga : Nat) (dist : List (Nat × Arrival)) : Statement (.rekeyOperation a dga dist) := of_none rfl
theorem paneRekeyOperation (a page pane : Nat) (dist : List (Nat × Arrival)) : Statement (.paneRekeyOperation a page pane dist) := of_none rfl
theorem eraseLeafReset (a bay : Nat) : Statement (.eraseLeafReset a bay) := of_none rfl
theorem physFill (a bay : Nat) : Statement (.physFill a bay) := of_none rfl
theorem scrubPage (bay page : Nat) : Statement (.scrubPage bay page) := of_none rfl
theorem retireDrainEnd (a : Nat) : Statement (.retireDrainEnd a) := of_none rfl
theorem flushPartDone (a : Nat) (part : FlushPart) : Statement (.flushPartDone a part) := of_none rfl
theorem cacheFlushWalkDone : Statement (.cacheFlushWalkDone) := of_none rfl
theorem bayDrainEnd (bay : Nat) : Statement (.bayDrainEnd bay) := of_none rfl
theorem hostExtentRelease (port ta : Nat) : Statement (.hostExtentRelease port ta) := of_none rfl
theorem releaseWaitTimeout (entry : Nat) : Statement (.releaseWaitTimeout entry) := of_none rfl
theorem logBufferOr (i : Nat) : Statement (.logBufferOr i) := of_none rfl
theorem jobFetch (q : Nat) : Statement (.jobFetch q) := of_none rfl
theorem jobComplete (q : Nat) : Statement (.jobComplete q) := of_none rfl
theorem debugAccess (ta : Nat) (write : Bool) (data : DbgData) : Statement (.debugAccess ta write data) := of_none rfl
theorem jtagAccess (offset : Nat) (secureHalted : Bool) (write : Bool) (value : Nat) : Statement (.jtagAccess offset secureHalted write value) := of_none rfl
theorem debugHalt (core : Nat) : Statement (.debugHalt core) := of_none rfl
theorem gateEntry (core offset returnAddr : Nat) : Statement (.gateEntry core offset returnAddr) := of_none rfl
theorem gateExit (core offset : Nat) : Statement (.gateExit core offset) := of_none rfl
theorem claimTimeout : Statement (.claimTimeout) := of_none rfl
theorem keepWriteDone : Statement (.keepWriteDone) := of_none rfl
theorem perstAssert (port ns : Nat) : Statement (.perstAssert port ns) := of_none rfl
theorem perstDeassert (port : Nat) : Statement (.perstDeassert port) := of_none rfl
theorem linkDown (port : Nat) : Statement (.linkDown port) := of_none rfl
theorem linkTrainingDone (port : Nat) (link : Option LinkInfo) : Statement (.linkTrainingDone port link) := of_none rfl
theorem linkRetrain (port : Nat) (link : LinkInfo) : Statement (.linkRetrain port link) := of_none rfl
theorem ideIntegrityFail (port : Nat) : Statement (.ideIntegrityFail port) := of_none rfl
theorem dimmReading (ch slot : Nat) (r : DimmReading) : Statement (.dimmReading ch slot r) := of_none rfl
theorem spdInterrupt (ch slot : Nat) : Statement (.spdInterrupt ch slot) := of_none rfl
theorem dieSensorReading (sensor : Nat) (temp : Int) : Statement (.dieSensorReading sensor temp) := of_none rfl
theorem vsettleDone : Statement (.vsettleDone) := of_none rfl
theorem sl1ClockStop : Statement (.sl1ClockStop) := of_none rfl
theorem sl2Entry : Statement (.sl2Entry) := of_none rfl
theorem sl3Entry (step : Nat) : Statement (.sl3Entry step) := of_none rfl
theorem wakeSource (source : Nat) : Statement (.wakeSource source) := of_none rfl
theorem wakeTimer : Statement (.wakeTimer) := of_none rfl
theorem sl2ExitDone : Statement (.sl2ExitDone) := of_none rfl
theorem sl3ExitDone (badImages : List (Nat × Bool)) : Statement (.sl3ExitDone badImages) := of_none rfl
theorem dumpSnapshot : Statement (.dumpSnapshot) := of_none rfl
theorem dumpRecordDone (slot : Nat) : Statement (.dumpRecordDone slot) := of_none rfl
theorem counterWrap (k n : Nat) : Statement (.counterWrap k n) := of_none rfl
theorem lineTestDone (txn dga : Nat) (a : Arrival) : Statement (.lineTestDone txn dga a) := of_none rfl
theorem rowTestDone (ch slot row : Nat) (passed : Bool) (repair : RowRepair) : Statement (.rowTestDone ch slot row passed repair) := of_none rfl
theorem rankSpareDone (c : SpareDone) : Statement (.rankSpareDone c) := of_none rfl
theorem engineTestDone (unit : Nat) (passed : Bool) : Statement (.engineTestDone unit passed) := of_none rfl
theorem doorstopDrainEnd : Statement (.doorstopDrainEnd) := of_none rfl
theorem testSkip (seq : Nat) : Statement (.testSkip seq) := of_none rfl
theorem watchdogHang (unit : Nat) : Statement (.watchdogHang unit) := of_none rfl
theorem ifTimeout (unit : Nat) : Statement (.ifTimeout unit) := of_none rfl
theorem substitutionDone (unit : Nat) (lost : List Nat) : Statement (.substitutionDone unit lost) := of_none rfl
theorem staleOutput (unit epoch : Nat) : Statement (.staleOutput unit epoch) := of_none rfl
theorem quarantineTestStart (unit : Nat) : Statement (.quarantineTestStart unit) := of_none rfl
theorem shadowEnd (unit : Nat) : Statement (.shadowEnd unit) := of_none rfl
theorem interruptionEnd (unit : Nat) : Statement (.interruptionEnd unit) := of_none rfl
theorem channelReadmitDone (ch : Nat) (passed : Bool) : Statement (.channelReadmitDone ch passed) := of_none rfl
theorem fltSelfParity : Statement (.fltSelfParity) := of_none rfl
theorem injectWindowClose : Statement (.injectWindowClose) := of_none rfl
theorem ohmStatusFrame : Statement (.ohmStatusFrame) := of_none rfl
theorem ohmLinkLost : Statement (.ohmLinkLost) := of_none rfl
theorem entryLoss : Statement (.entryLoss) := of_none rfl
theorem startupStepDone (info : StepInfo) : Statement (.startupStepDone info) := of_none rfl
theorem stepWatchdog : Statement (.stepWatchdog) := of_none rfl
theorem vbusRise (mv : Nat) (straps : Straps) (damaged : Option Nat) : Statement (.vbusRise mv straps damaged) := of_none rfl
theorem vbusFall (mv : Nat) : Statement (.vbusFall mv) := of_none rfl
theorem vbusOvervoltage (mv : Nat) : Statement (.vbusOvervoltage mv) := of_none rfl
theorem vbusOvResume (mv : Nat) : Statement (.vbusOvResume mv) := of_none rfl
theorem presenceDebounced (cdhMv : Nat) : Statement (.presenceDebounced cdhMv) := of_none rfl
theorem prsntRise : Statement (.prsntRise) := of_none rfl
theorem orderlyShutdown : Statement (.orderlyShutdown) := of_none rfl
theorem entryGood (voutMv : Nat) : Statement (.entryGood voutMv) := of_none rfl
theorem seqEnable : Statement (.seqEnable) := of_none rfl
theorem mainDieRelease : Statement (.mainDieRelease) := of_none rfl
theorem fastTrip : Statement (.fastTrip) := of_none rfl
theorem soaTrip : Statement (.soaTrip) := of_none rfl
theorem rampTimeout : Statement (.rampTimeout) := of_none rfl
theorem pgTimeout : Statement (.pgTimeout) := of_none rfl
theorem pgLost (k : Nat) : Statement (.pgLost k) := of_none rfl
theorem cooldownEnd (cdhMv : Nat) : Statement (.cooldownEnd cdhMv) := of_none rfl
theorem goodRunClear : Statement (.goodRunClear) := of_none rfl
theorem presenceCycle : Statement (.presenceCycle) := of_none rfl
theorem fetShortDetect (voutMv : Nat) : Statement (.fetShortDetect voutMv) := of_none rfl
theorem fetShortRecheck (voutMv : Nat) : Statement (.fetShortRecheck voutMv) := of_none rfl
theorem oringReverse (feedB : Bool) : Statement (.oringReverse feedB) := of_none rfl
theorem oringTurnOn (feedB : Bool) : Statement (.oringTurnOn feedB) := of_none rfl
theorem feedLost (feedB : Bool) : Statement (.feedLost feedB) := of_none rfl
theorem statusFrameSend : Statement (.statusFrameSend) := of_none rfl
theorem standbyOhmClear (seq : Nat) : Statement (.standbyOhmClear seq) := of_none rfl
theorem standbyOhmQuery (seq : Nat) : Statement (.standbyOhmQuery seq) := of_none rfl
theorem configRequest (port ld : Nat) : Statement (.configRequest port ld) := of_none rfl
theorem directorySweepStep (sweep : Nat) : Statement (.directorySweepStep sweep) := of_none rfl
theorem cacheFlushWalkStep : Statement (.cacheFlushWalkStep) := of_none rfl
theorem directoryFetchReturn (dla : Nat) (e : Ecc) : Statement (.directoryFetchReturn dla e) := of_none rfl
theorem pageMapFetchReturn (slice page : Nat) (e : Ecc) : Statement (.pageMapFetchReturn slice page e) := of_none rfl
theorem unitErrorDetected (e : UnitErr) : Statement (.unitErrorDetected e) := of_none rfl

end Sys2Proof.Laws.Packet
end

