-- ==== Sys2Proof/Tests/Slice0.lean ====
section
/-! SUPPORT. Tests/Slice0.lean: the model's own tests. An ill-formed command for each check of WellFormed; for each statement with
hypotheses a witness that meets them together (each clause at its own operands); a few one-step tests against the spec's worked
examples. -/

section

open Sys2Proof Sys2Proof.Machine

-- one theorem at a time: the witnesses' evaluations side by side would each hold a thread
set_option Elab.async false

/-! ## Small states -/

/-- A running block around a die: released, start-up over. -/
def runDie (d : Die) : State :=
  { State.reset with
    ohm := { Ohm.init with released := true }
    die := { d with boot := { d.boot with done := true, started := true, step := 15 } } }

/-- A command header from the keeper's MCTP endpoint, SEQ 1, the payload length given. -/
def hdr (plen : Nat) : Hdr :=
  { via := .mctp 9 false, seq := 1, tenWord := 0, flags := 0, plen := plen, rsvd := 0, cxlOp := 0 }

/-- The same from the steward on port 0, and from the MLD mailbox of the fabric manager's port. -/
def hdrS (plen : Nat) : Hdr := { hdr plen with via := .steward 0 }

/-- The accepted die meets `P`. -/
def acc (s : State) (h : Hdr) (op : Nat) (roles : List Role) (want : Nat) (P : Die → Bool) : Bool :=
  s.runs && (s.die.accepts h op roles want).any P

/-- The same for a long command. -/
def accL (s : State) (h : Hdr) (op : Nat) (roles : List Role) (want : Nat) (P : Die → Bool) : Bool :=
  s.runs && (s.die.acceptsLong h op roles want).any P

/-- What `acc` shows: a die the statements' premise names, with `P`. -/
theorem acc_takes {s : State} {h : Hdr} {op want : Nat} {roles : List Role} {P : Die → Bool}
    (ha : acc s h op roles want P = true) : ∃ d, s.takes h op roles want d ∧ P d = true := by
  unfold acc at ha
  rw [Bool.and_eq_true] at ha
  obtain ⟨d, hd, hp⟩ := (Option.any_eq_true P _).mp ha.2
  exact ⟨d, ⟨ha.1, hd⟩, hp⟩

theorem accL_takes {s : State} {h : Hdr} {op want : Nat} {roles : List Role} {P : Die → Bool}
    (ha : accL s h op roles want P = true) : ∃ d, s.takesLong h op roles want d ∧ P d = true := by
  unfold accL at ha
  rw [Bool.and_eq_true] at ha
  obtain ⟨d, hd, hp⟩ := (Option.any_eq_true P _).mp ha.2
  exact ⟨d, ⟨ha.1, hd⟩, hp⟩

/-- Both copies of a staged register. -/
def setAct (d : Die) (o v : Nat) : Die :=
  (d.regW o (BitVec.ofNat 32 v)).regW (o + mirrorGap o) (BitVec.ofNat 32 v)

/-- An ACTIVE tenancy. -/
def ten1 : Ten := { Ten.init with st := .active }

/-- A LIVE PLAIN entry of tenancy `t` on DLA bay `b` under index 5. -/
def bt1 (t b : Nat) : Bt := { Bt.empty with st := .live, defKey := 5, ten := t, dlaBay := b }

/-- Tenancies 0 and 1 ACTIVE on ports 0 and 1 with segments of 16 entries, tenancy 0's first entry LIVE on bay 0, index 5 LIVE,
interleave set 0 of one channel. -/
def small : Die :=
  let d : Die := { Die.init with
    dbl := { Dbl.init with owned := true, eid := 9 }
    tens := { Tens.init with recs := [(0, ten1), (1, ten1)], bt := [(0, bt1 0 0)] }
    keys := { Keys.init with slots := [(5, { st := .live, seq := 0, key := 77 })] }
    setChans := [(0, [0])]
    trs := { Trs.init with sched := [(0, 3000)], capQ := [(0, 2000)], capPort := [(0, 64)] }
    chans := [(0, { Chan.init 0 with trained := true, excluded := false, atStart := false, dimms := 1, gib := 64 })] }
  [(R.tenSeg 0, 16), (R.tenSeg 1, 16 * 2 ^ 16 + 16), (R.tenCfg 0, cfgWord 0 31 - 4 * 2 ^ 20), (R.tenCfg 1, cfgWord 1 31),
    (R.itrSetLo 0, 50 * 2 ^ 13), (R.itrSetHi 0, 2 ^ 31 + 64)].foldl (fun d x => setAct d x.1 x.2)
    (d.regW R.mgtFmPorts 0x41)

/-- A contract of tenancy 0 on its first bay. -/
def terms1 : Terms := { cls := 0, rd := 1, wr := 1, prec := 0, peak := 0, fetch := 0, bays := [0] }
def con1 (st : ConState) : Contract :=
  { id := 0, ten := 0, use := { t := terms1, set := 0, dla := [0], share := 2 }, st := st, acc := 0, eff := none, reply := none,
    changes := [], release := none, verdict := none }

/-- A running block around the small die, and one around an empty die. -/
def sm : State := runDie small
def w0 : State := runDie { Die.init with dbl := { Dbl.init with owned := true, eid := 9 } }

/-- The small block changed. -/
def smW (f : Die → Die) : State := runDie (f small)

/-- Firmware as the source of an access. -/
def srcFw : Src := { master := 13, port := 0, ld := fmLd, secure := false, jtag := false }

/-! ## Ill-formed commands -/

/-- Well-formed operands to spoil one at a time. -/
def wh : Hdr := hdr 0
def wm : M2S := { port := 0, ld := 0, tag := 0, ta := 0, ext := { gen := 0, ttag := 0, kidx := 0, ksel := false, dcode := 0, cc := false, coh := 0 }, metaV := 0 }
def ws : Src := { master := 13, port := 0, secure := false, jtag := false }
def wb : BayAddP :=
  { ten := 0, bay := 0, mode := 0, cache := 0, defKey := 0, set := 0, policy := 0, primary := 0, secondary := 0, quota := 0 }
def wc : MemCfgP := { tir := 0, map := 0, hbc := 0, itr := 0, cje := 0 }
def wt : Terms := { cls := 0, rd := 0, wr := 0, prec := 0, peak := 0, fetch := 0, bays := [] }
def wl : LinkInfo := { speed := 0, x8 := false, flit := 0 }
def wd : DimmReading := { ok := true, present := true, negative := false, temp := 0, power := 0, highTemp := false, critical := false }
def wst : Straps := { trip := 0, soa := 0, retry := 0, cool := 0 }
def wu : UnitErr := { unit := 0, code := 0, addr := 0, syndrome := 0 }
def wn : NodeArrival := { chk := .clean, altered := false }
def wi : StepInfo := { ok := true, unit := 0, secure := false, found := [], bits := [] }

/-- Each check of an operand structure refuses a value out of its range. -/
theorem test_wf_refuses_structures :
    ([wh] : List Hdr).all Hdr.wf = true ∧
    ([{ wh with via := .mailbox 6 }, { wh with via := .ldMailbox 6 0 }, { wh with via := .ldMailbox 0 16 }, { wh with via := .mctp 256 false },
      { wh with via := .steward 6 }, { wh with via := .ring 8 }, { wh with seq := 65536 }, { wh with tenWord := 65536 },
      { wh with flags := 65536 }, { wh with plen := 2 ^ 32 }, { wh with rsvd := 2 ^ 32 }, { wh with cxlOp := 65536 }] : List Hdr).all
        (fun h => !h.wf) = true ∧
    ([{ wm with port := 6 }, { wm with ld := 16 }, { wm with tag := 65536 }, { wm with ta := 2 ^ 52 },
      { wm with ext := { wm.ext with gen := 65536 } }, { wm with ext := { wm.ext with ttag := 1024 } },
      { wm with ext := { wm.ext with kidx := 4096 } }, { wm with ext := { wm.ext with dcode := 8 } },
      { wm with ext := { wm.ext with coh := 16 } }] : List M2S).all (fun m => !m.wf) = true ∧
    ([{ ws with master := 16 }, { ws with port := 6 }, { ws with master := 1 }] : List Src).all (fun m => !m.wf) = true ∧
    ([{ wt with cls := 256 }, { wt with rd := 65536 }, { wt with wr := 65536 }, { wt with prec := 256 }, { wt with peak := 256 },
      { wt with fetch := 256 }, { wt with bays := [65536] }] : List Terms).all (fun t => !t.wf) = true ∧
    ([{ wb with ten := 65536 }, { wb with bay := 65536 }, { wb with mode := 256 }, { wb with cache := 256 }, { wb with defKey := 65536 },
      { wb with set := 256 }, { wb with policy := 256 }, { wb with primary := 65536 }, { wb with secondary := 65536 },
      { wb with quota := 2 ^ 32 }] : List BayAddP).all (fun p => !p.wf) = true ∧
    ([{ wc with tir := 2 ^ 32 }, { wc with map := 2 ^ 32 }, { wc with hbc := 2 ^ 32 }, { wc with itr := 2 ^ 32 },
      { wc with cje := 2 ^ 32 }] : List MemCfgP).all (fun p => !p.wf) = true ∧
    ([{ wst with trip := 8 }, { wst with soa := 8 }, { wst with retry := 8 }, { wst with cool := 8 }] : List Straps).all (fun x => !x.wf) = true ∧
    ([{ wu with unit := 512 }, { wu with code := 65536 }, { wu with addr := 2 ^ 64 }, { wu with syndrome := 2 ^ 32 }] : List UnitErr).all
      (fun x => !x.wf) = true ∧
    LinkInfo.wf { wl with flit := 4 } = false ∧ DimmReading.wf { wd with power := 1024 } = false ∧ LatchPair.wf (.pmuCtr 512) = false := by
  decide

def wfOps0 : List Instr := [
    .transomBoundary, .getIdentity wh, .getCapacity wh, .getNotices wh 0, .setNoticeRoute wh 0 0 0, .ringSetup wh 0 0 0 0 0 0 0,
    .tenCreate wh 0 0 0 0, .tenSet wh 0 0 0, .tenReset wh 0 0, .tenRemove wh 0, .tenResize wh 0 0, .tenLog wh 0 0 0, .tenHarvest wh 0,
    .tenQuery wh 0, .portSet wh 0 0, .lvrSet wh 0 0 0, .lvrGlobal wh 0 0 0 0 0, .bayAdd wh wb, .bayRemove wh 0 0 0 0,
    .baySet wh 0 0 0 0 0, .bayQuery wh 0 0, .storeAdd wh 0, .storeRelease wh 0, .tierSet wh 0 0, .memCfg wh wc, .conCreate wh 0 wt,
    .conChange wh 0 wt, .conReadmit wh 0, .conDelete wh 0, .conQuery wh 0, .capQuery wh, .conDefaults wh 0, .keyAllow wh 0 [],
    .keyRetire wh 0 0 0 0 [], .keyQuery wh 0, .domCreate wh 0 0 [], .domJoin wh 0 0 [], .domLeave wh 0 0, .domDestroy wh 0 0,
    .domRebuild wh 0 []]
def wfOps1 : List Instr := [
    .domAddBay wh 0 0 0 [], .domQuery wh 0, .qSetup wh 0 0 0 0 0, .qRestart wh 0, .qDisable wh 0, .qQuery wh 0, .pwrLevel wh 0,
    .pwrSleep wh 0 0, .pwrQuery wh, .ohmQuery wh, .ohmClear wh, .fltGet wh 0 0, .fltClear wh 0, .fltInject wh 0 0, .eventEnable wh 0 0,
    .chReadmit wh 0, .telCfg wh 0 0, .pmuSelect wh 0 0 0, .telWindow wh 0 0, .pmuRead wh 0 0, .dimmQuery wh 0, .fwInfo wh,
    .fwWrite wh 0 0 [], .fwVerify wh 0, .fwSelect wh 0, .keepRead wh 0 0, .keepWrite wh 0 0, .deviceRestart wh, .dbgNormal wh 0 0,
    .dbgBind wh 0, .dbgQuery wh, .dblClaim wh 0 0, .dblPropose wh 0 [], .dblGet wh 0, .dblSign wh 0 0, .dblWithdraw wh 0, .dblStatus wh,
    .unknownOpcode wh 0, .identify 0 0, .getHealthInfo 0 0]
def wfOps2 : List Instr := [
    .getTimestamp 0 0, .setTimestamp 0 0 0, .getPoisonList 0 0 0 0, .injectPoison 0 0 0, .clearPoison 0 0 0 0, .sanitize 0 0,
    .secureErase 0 0, .getLdInfo 0, .getLdAllocations 0, .setLdAllocations 0, .getMhdInfo 0, .getCertificate .sideband 0,
    .challenge .sideband 0 0, .getMeasurements .sideband 0, .keyExchange .sideband true, .finish .sideband 0 true,
    .keyUpdate .sideband 0, .heartbeat .sideband 0, .pskExchange .sideband, .ideKm 0 0 (.stop true), .commitGo ws .trs,
    .fcxRequest 0 0 true, .memEnable 0 0 true, .jobDoorbell ws 0 0, .ringTailWrite ws 0 0, .secureWindowAccess ws 0 true 0,
    .latchingRead ws .genTime, .registerWrite ws 0 0 0, .memRd wm, .memWr wm 0, .memWrPartial wm 0 0, .rdShared wm, .rdOwn wm,
    .rdOwnNoData wm, .rdCur wm, .wrBack wm 0, .cleanEvict wm, .compAck wm, .waitlistStart 0, .snpData wm 0]
def wfOps3 : List Instr := [
    .biRsp wm .rspI true, .memInv wm, .biConflict wm, .biConflictAck wm, .snoopLate 0 0, .memberTimeout 0 0, .directorySweepDone 0,
    .beQueueEntryTake 0, .beCrossbarEntry 0, .channelReplan 0 0 0 0, .granuleReadReturn 0 0 Arrival.asStored, .nodeFetchReturn 0 0 wn,
    .dirtyWriteback, .laneStore 0, .reencryptGranule 0 0 [], .leafFillDone 0, .unpinWritebackDone 0, .revalSweepDone,
    .paneOperation 0 [], .holdReceived 0 0, .holdAnswer 0 0, .releaseReceived 0 0, .scanStart 0, .scanStep 0 0, .moveCopy 0 [],
    .moveCommit 0, .rekeyOperation 0 0 [], .paneRekeyOperation 0 0 0 [], .eraseLeafReset 0 0, .physFill 0 0, .scrubPage 0 0,
    .retireDrainEnd 0, .flushPartDone 0 .lanes, .cacheFlushWalkDone, .bayDrainEnd 0, .hostExtentRelease 0 0, .releaseWaitTimeout 0,
    .logBufferOr 0, .jobFetch 0, .jobComplete 0]
def wfOps4 : List Instr := [
    .debugAccess 0 true { line := 0, key := none }, .jtagAccess 0 true true 0, .debugHalt 0, .gateEntry 0 0 0, .gateExit 0 0, .claimTimeout, .keepWriteDone,
    .perstAssert 0 0, .perstDeassert 0, .linkDown 0, .linkTrainingDone 0 none, .linkRetrain 0 wl, .ideIntegrityFail 0,
    .dimmReading 0 0 wd, .spdInterrupt 0 0, .dieSensorReading 0 0, .vsettleDone, .sl1ClockStop, .sl2Entry, .sl3Entry 0, .wakeSource 0,
    .wakeTimer, .sl2ExitDone, .sl3ExitDone [], .dumpSnapshot, .dumpRecordDone 0, .counterWrap 0 0, .lineTestDone 0 0 Arrival.asStored,
    .rowTestDone 0 0 0 true { repairable := true, lost := [] }, .rankSpareDone { ch := 0, lost := [] }, .engineTestDone 0 true, .doorstopDrainEnd, .testSkip 0, .watchdogHang 0,
    .ifTimeout 0, .substitutionDone 0 [], .staleOutput 0 0, .quarantineTestStart 0, .shadowEnd 0, .interruptionEnd 0]
def wfOps5 : List Instr := [
    .channelReadmitDone 0 true, .fltSelfParity, .injectWindowClose, .ohmStatusFrame, .ohmLinkLost, .entryLoss, .startupStepDone wi,
    .stepWatchdog, .vbusRise 0 wst none, .vbusFall 0, .vbusOvervoltage 0, .vbusOvResume 0, .presenceDebounced 0, .prsntRise,
    .orderlyShutdown, .entryGood 0, .seqEnable, .mainDieRelease, .fastTrip, .soaTrip, .rampTimeout, .pgTimeout, .pgLost 0,
    .cooldownEnd 0, .goodRunClear, .presenceCycle, .fetShortDetect 0, .fetShortRecheck 0, .oringReverse true, .oringTurnOn true,
    .feedLost true, .statusFrameSend, .standbyOhmClear 0, .standbyOhmQuery 0, .configRequest 0 0, .directorySweepStep 0,
    .cacheFlushWalkStep, .directoryFetchReturn 0 .clean, .pageMapFetchReturn 0 0 .clean, .unitErrorDetected wu]

/-- A command of each row with small operands is well formed. -/
theorem test_wf_accepts :
    (wfOps0 ++ wfOps1 ++ wfOps2 ++ wfOps3 ++ wfOps4 ++ wfOps5).all (fun i => i.wf) = true := by decide +kernel

def illOps0 : List Instr := [
    .getIdentity { wh with seq := 65536 }, .getNotices wh 65536, .setNoticeRoute wh 256 0 0, .setNoticeRoute wh 0 256 0,
    .setNoticeRoute wh 0 0 256, .ringSetup wh 256 0 0 0 0 0 0, .ringSetup wh 0 256 0 0 0 0 0, .ringSetup wh 0 0 65536 0 0 0 0,
    .ringSetup wh 0 0 0 65536 0 0 0, .ringSetup wh 0 0 0 0 (2 ^ 32) 0 0, .ringSetup wh 0 0 0 0 0 256 0, .ringSetup wh 0 0 0 0 0 0 256,
    .tenCreate wh 65536 0 0 0, .tenCreate wh 0 256 0 0, .tenCreate wh 0 0 256 0, .tenCreate wh 0 0 0 65536, .tenSet wh 65536 0 0,
    .tenSet wh 0 256 0, .tenSet wh 0 0 256, .tenReset wh 65536 0, .tenReset wh 0 256, .tenRemove wh 65536, .tenResize wh 65536 0,
    .tenResize wh 0 65536, .tenLog wh 65536 0 0, .tenLog wh 0 256 0, .tenLog wh 0 0 65536, .tenHarvest wh 65536, .tenQuery wh 65536,
    .portSet wh 256 0, .portSet wh 0 (2 ^ 32), .lvrSet wh 256 0 0, .lvrSet wh 0 (2 ^ 32) 0, .lvrSet wh 0 0 (2 ^ 32),
    .lvrGlobal wh (2 ^ 32) 0 0 0 0, .lvrGlobal wh 0 (2 ^ 32) 0 0 0, .lvrGlobal wh 0 0 (2 ^ 32) 0 0, .lvrGlobal wh 0 0 0 (2 ^ 32) 0,
    .lvrGlobal wh 0 0 0 0 (2 ^ 32), .bayAdd wh { wb with ten := 65536 }]
def illOps1 : List Instr := [
    .bayRemove wh 65536 0 0 0, .bayRemove wh 0 65536 0 0, .bayRemove wh 0 0 256 0, .bayRemove wh 0 0 0 (2 ^ 32),
    .baySet wh 65536 0 0 0 0, .baySet wh 0 65536 0 0 0, .baySet wh 0 0 256 0 0, .baySet wh 0 0 0 256 0, .baySet wh 0 0 0 0 (2 ^ 32),
    .bayQuery wh 65536 0, .bayQuery wh 0 65536, .storeAdd wh 256, .storeRelease wh 65536, .tierSet wh 256 0, .tierSet wh 0 (2 ^ 32),
    .memCfg wh { wc with tir := 2 ^ 32 }, .conCreate wh 65536 wt, .conCreate wh 0 { wt with cls := 256 }, .conChange wh 65536 wt,
    .conChange wh 0 { wt with cls := 256 }, .conReadmit wh 65536, .conDelete wh 65536, .conQuery wh 65536, .conDefaults wh (2 ^ 32),
    .keyAllow wh 65536 [], .keyAllow wh 0 [65536], .keyRetire wh 65536 0 0 0 [], .keyRetire wh 0 256 0 0 [], .keyRetire wh 0 0 256 0 [],
    .keyRetire wh 0 0 0 65536 [], .keyRetire wh 0 0 0 0 [(0, 65536)], .keyQuery wh 65536, .domCreate wh 256 0 [],
    .domCreate wh 0 65536 [], .domCreate wh 0 0 [65536], .domJoin wh 256 0 [], .domJoin wh 0 65536 [], .domJoin wh 0 0 [65536],
    .domLeave wh 256 0, .domLeave wh 0 65536]
def illOps2 : List Instr := [
    .domDestroy wh 256 0, .domDestroy wh 0 65536, .domRebuild wh 256 [], .domRebuild wh 0 [65536], .domAddBay wh 256 0 0 [],
    .domAddBay wh 0 65536 0 [], .domAddBay wh 0 0 65536 [], .domAddBay wh 0 0 0 [(0, 65536)], .domQuery wh 256, .qSetup wh 256 0 0 0 0,
    .qSetup wh 0 (2 ^ 32) 0 0 0, .qSetup wh 0 0 (2 ^ 32) 0 0, .qSetup wh 0 0 0 (2 ^ 32) 0, .qSetup wh 0 0 0 0 (2 ^ 32), .qRestart wh 256,
    .qDisable wh 256, .qQuery wh 256, .pwrLevel wh 256, .pwrSleep wh 256 0, .pwrSleep wh 0 (2 ^ 32), .fltGet wh 65536 0,
    .fltGet wh 0 65536, .fltClear wh 65536, .fltInject wh 65536 0, .fltInject wh 0 65536, .eventEnable wh (2 ^ 32) 0,
    .eventEnable wh 0 (2 ^ 32), .chReadmit wh 256, .telCfg wh 65536 0, .telCfg wh 0 256, .pmuSelect wh 65536 0 0,
    .pmuSelect wh 0 (2 ^ 32) 0, .pmuSelect wh 0 0 256, .telWindow wh 65536 0, .telWindow wh 0 256, .pmuRead wh 65536 0,
    .pmuRead wh 0 65536, .dimmQuery wh 256, .fwWrite wh 256 0 [], .fwWrite wh 0 (2 ^ 32) []]
def illOps3 : List Instr := [
    .fwVerify wh 256, .fwSelect wh 256, .keepRead wh 65536 0, .keepRead wh 0 65536, .keepWrite wh 65536 0, .keepWrite wh 0 (2 ^ 32),
    .dbgNormal wh 256 0, .dbgNormal wh 0 256, .dbgBind wh 65536, .dblClaim wh (2 ^ 384) 0, .dblClaim wh 0 256, .dblPropose wh 65536 [],
    .dblGet wh (2 ^ 32), .dblSign wh (2 ^ 32) 0, .dblSign wh 0 (2 ^ 384), .dblWithdraw wh (2 ^ 32), .unknownOpcode wh 65536,
    .identify 6 0, .identify 0 16, .getHealthInfo 6 0, .getHealthInfo 0 16, .getTimestamp 6 0, .getTimestamp 0 16, .setTimestamp 6 0 0,
    .setTimestamp 0 16 0, .setTimestamp 0 0 (2 ^ 64), .getPoisonList 6 0 0 0, .getPoisonList 0 16 0 0, .getPoisonList 0 0 (2 ^ 43) 0,
    .getPoisonList 0 0 0 (2 ^ 43), .injectPoison 6 0 0, .injectPoison 0 16 0, .injectPoison 0 0 (2 ^ 43), .clearPoison 6 0 0 0,
    .clearPoison 0 16 0 0, .clearPoison 0 0 (2 ^ 43) 0, .sanitize 6 0, .sanitize 0 16, .secureErase 6 0, .secureErase 0 16]
def illOps4 : List Instr := [
    .getLdInfo 6, .getLdAllocations 6, .setLdAllocations 6, .getMhdInfo 6, .getCertificate (.doe 6) 0, .getCertificate .sideband 8,
    .challenge (.doe 6) 0 0, .challenge .sideband 8 0, .challenge .sideband 0 (2 ^ 256), .getMeasurements (.doe 6) 0,
    .getMeasurements .sideband (2 ^ 256), .keyExchange (.doe 6) true, .finish (.doe 6) 0 true, .finish .sideband (2 ^ 32) true,
    .keyUpdate (.doe 6) 0, .keyUpdate .sideband (2 ^ 32), .heartbeat (.doe 6) 0, .heartbeat .sideband (2 ^ 32), .pskExchange (.doe 6),
    .ideKm 6 0 (.stop true), .ideKm 0 (2 ^ 32) (.stop true), .commitGo { ws with port := 6 } .trs, .commitGo ws (.hpt 6),
    .fcxRequest 6 0 true, .fcxRequest 0 16 true, .memEnable 6 0 true, .memEnable 0 16 true, .jobDoorbell { ws with port := 6 } 0 0,
    .jobDoorbell ws 64 0, .jobDoorbell ws 0 (2 ^ 32), .ringTailWrite { ws with port := 6 } 0 0, .ringTailWrite ws 1024 0,
    .ringTailWrite ws 0 (2 ^ 32), .secureWindowAccess { ws with port := 6 } 0 true 0, .secureWindowAccess ws (2 ^ 24) true 0,
    .secureWindowAccess ws 0 true (2 ^ 64), .latchingRead { ws with port := 6 } .genTime, .latchingRead ws (.pwrRes 7),
    .registerWrite { ws with port := 6 } 0 0 0, .registerWrite ws (2 ^ 24) 0 0]
def illOps5 : List Instr := [
    .registerWrite ws 0 (2 ^ 32) 0, .registerWrite ws 0 0 (2 ^ 64), .memRd { wm with port := 6 }, .memWr { wm with port := 6 } 0,
    .memWrPartial { wm with port := 6 } 0 0, .rdShared { wm with port := 6 }, .rdOwn { wm with port := 6 },
    .rdOwnNoData { wm with port := 6 }, .rdCur { wm with port := 6 }, .wrBack { wm with port := 6 } 0, .cleanEvict { wm with port := 6 },
    .compAck { wm with port := 6 }, .waitlistStart (2 ^ 43), .snpData { wm with port := 6 } 0, .biRsp { wm with port := 6 } .rspI true,
    .memInv { wm with port := 6 }, .biConflict { wm with port := 6 }, .biConflictAck { wm with port := 6 }, .snoopLate (2 ^ 43) 0,
    .snoopLate 0 6, .memberTimeout (2 ^ 43) 0, .memberTimeout 0 6, .channelReplan 16 0 0 0, .channelReplan 0 65536 0 0,
    .channelReplan 0 0 65536 0, .channelReplan 0 0 0 65536, .granuleReadReturn 0 (2 ^ 43) Arrival.asStored, .nodeFetchReturn 4 0 wn,
    .nodeFetchReturn 0 (2 ^ 32) wn, .laneStore 16, .reencryptGranule (2 ^ 31) 0 [], .reencryptGranule 0 64 [], .leafFillDone 128,
    .unpinWritebackDone 128, .paneOperation (2 ^ 31) [], .holdReceived 8 0, .holdReceived 0 (2 ^ 31), .holdAnswer 8 0,
    .holdAnswer 0 (2 ^ 31), .releaseReceived 8 0]
def illOps6 : List Instr := [
    .releaseReceived 0 (2 ^ 31), .scanStart 16384, .scanStep 16384 0, .scanStep 0 (2 ^ 43), .moveCopy (2 ^ 31) [], .moveCommit (2 ^ 31),
    .rekeyOperation 4096 0 [], .rekeyOperation 0 (2 ^ 43) [], .paneRekeyOperation 4096 0 0 [], .paneRekeyOperation 0 (2 ^ 31) 0 [],
    .paneRekeyOperation 0 0 8 [], .eraseLeafReset 4096 0, .eraseLeafReset 0 16384, .physFill 4096 0, .physFill 0 16384,
    .scrubPage 16384 0, .scrubPage 0 (2 ^ 31), .retireDrainEnd 4096, .flushPartDone 4096 .lanes, .bayDrainEnd 16384,
    .hostExtentRelease 6 0, .hostExtentRelease 0 (2 ^ 43), .releaseWaitTimeout 16384, .logBufferOr 2048, .jobFetch 64, .jobComplete 64,
    .debugAccess (2 ^ 43) true { line := 0, key := none }, .debugAccess 0 true { line := 0, key := some 4096 }, .jtagAccess (2 ^ 24) true true 0, .jtagAccess 0 true true (2 ^ 64), .debugHalt 4, .gateEntry 4 0 0,
    .gateEntry 0 (2 ^ 24) 0, .gateEntry 0 0 (2 ^ 64), .gateExit 4 0, .gateExit 0 (2 ^ 24), .perstAssert 6 0, .perstAssert 0 (2 ^ 32),
    .perstDeassert 6, .linkDown 6, .linkTrainingDone 6 none]
def illOps7 : List Instr := [
    .linkTrainingDone 0 (some { wl with speed := 6 }), .linkRetrain 6 wl, .linkRetrain 0 { wl with speed := 6 }, .ideIntegrityFail 6,
    .dimmReading 16 0 wd, .dimmReading 0 2 wd, .dimmReading 0 0 { wd with temp := 256 }, .spdInterrupt 16 0, .spdInterrupt 0 2,
    .dieSensorReading 8 0, .sl3Entry 8, .wakeSource 32, .counterWrap 1024 0, .counterWrap 0 (2 ^ 48),
    .lineTestDone 0 (2 ^ 43) Arrival.asStored, .dumpRecordDone (2 ^ 32),
    .rowTestDone 16 0 0 true { repairable := true, lost := [] }, .rowTestDone 0 2 0 true { repairable := true, lost := [] },
    .rowTestDone 0 0 0 true { repairable := true, lost := [2 ^ 43] }, .rankSpareDone { ch := 16, lost := [] },
    .rankSpareDone { ch := 0, lost := [2 ^ 43] },
    .engineTestDone 512 true, .testSkip 65536, .watchdogHang 512, .ifTimeout 512, .substitutionDone 512 [], .staleOutput 512 0,
    .staleOutput 0 16, .quarantineTestStart 512, .shadowEnd 512, .interruptionEnd 512, .channelReadmitDone 16 true,
    .vbusRise 65536 wst none, .vbusRise 0 { wst with trip := 8 } none, .vbusFall 65536, .vbusOvervoltage 65536, .vbusOvResume 65536,
    .presenceDebounced 65536, .entryGood 65536, .pgLost 1024, .cooldownEnd 65536, .fetShortDetect 65536, .fetShortRecheck 65536]
def illOps8 : List Instr := [
    .standbyOhmClear 65536, .standbyOhmQuery 65536, .configRequest 6 0, .configRequest 0 16, .directoryFetchReturn (2 ^ 43) .clean,
    .pageMapFetchReturn 8 0 .clean, .pageMapFetchReturn 0 (2 ^ 31) .clean, .unitErrorDetected { wu with unit := 512 }]

/-- Each check of an operand refuses the least value out of its range. -/
theorem test_wf_refuses :
    (illOps0 ++ illOps1 ++ illOps2 ++ illOps3 ++ illOps4 ++ illOps5 ++ illOps6 ++ illOps7 ++ illOps8).all (fun i => !i.wf) = true := by decide +kernel

/-! ## Witnesses: packet commands -/

theorem witness_ManagementCommandsComplete :
    acc w0 (hdr 0) 0x0100 anyRole 0 (fun _ => true) = true ∧
    acc w0 (hdr 0) 0x0101 [.f, .k] 0 (fun _ => true) = true ∧
    acc w0 (hdr 2) 0x0102 [.f] 2 (fun d => d.lostOn 2 = 0) = true ∧
    acc w0 (hdr 3) 0x0103 [.f, .k] 3 (fun _ => !Nat.testBit 5 1) = true ∧
    acc (smW fun d => d.setRing 0 { Ring.init with valid := true, port := 0 }) (hdr 3) 0x0103 [.f, .k] 3
      (fun d => Nat.testBit 7 1 && (d.ring 0).valid && decide ((d.ring 0).role = 0) && d.fmPort (d.ring 0).port) = true ∧
    acc sm (hdr 12) 0x0104 [.f] 12 (fun _ => badRing 0 0 0 0 0 = none) = true ∧
    acc sm (hdr 12) 0x0104 [.f] 12 (fun d => decide (badRing 0 0 0 4 0 = none) && decide ((d.ten 0).st ≠ .free) &&
      d.fmPort (d.tenPort 0) && decide (0 < d.segLen 0) && d.plainEntry (d.segBase 0 + 0)) = true ∧
    acc w0 (hdr 0) 0x0803 [.f, .k] 0 (fun _ => true) = true ∧ acc w0 (hdr 0) 0x0804 [.k] 0 (fun _ => true) = true ∧
    acc w0 (hdr 8) 0x0903 [.f] 8 (fun _ => (eventEnOf 0xa80000).isSome &&
      decide (3 &&& regMask ((eventEnOf 0xa80000).getD 0) = 3)) = true ∧
    (w0.runs = true ∧ opcodes.contains 0x0fff = false ∧
      (w0.die.active.take (hdr 0) 0x0fff).any (fun d => !d.isRepeat (hdr 0) 0x0fff) = true) := by decide +kernel

theorem witness_TenancyCommandsComplete :
    acc sm (hdr 6) 0x0200 [.f] 6 (fun d => decide ((List.range 1024).find? (fun t => !d.tenTaken.contains t) = some 2) &&
      decide (d.tenTaken.find? (fun k => decide (3 ≠ 31) && decide (d.tenKey k = 2 * 32 + 3)) = none) &&
      decide (placeSeg (d.segsTaken d.tenTaken) 4096 = some 32)) = true ∧
    acc sm (hdr 6) 0x0200 [.f] 6 (fun d => !d.tenTaken.contains 1023 &&
      decide (placeSeg (d.segsTaken d.tenTaken) 1 = some 32)) = true ∧
    acc sm (hdr 4) 0x0201 [.f] 4 (fun d => decide ((d.ten 0).st ≠ .free) && decide (4 ≠ fld (d.future (R.tenCfg 0)) 22 20) &&
      !d.contracts.any (fun c => decide (c.ten = 0))) = true ∧
    acc (smW fun d => { d with trs := { d.trs with contracts := [(0, con1 .active)] } }) (hdr 4) 0x0201 [.f] 4
      (fun d => decide ((d.ten 0).st ≠ .free) && decide (4 ≠ fld (d.future (R.tenCfg 0)) 22 20) &&
        d.contracts.any (fun c => decide (c.ten = 0))) = true ∧
    acc sm (hdr 5) 0x0205 [.f] 5 (fun d => decide ((d.ten 0).st ≠ .free)) = true ∧
    accL sm (hdr 3) 0x0202 [.f] 3 (fun d => decide ((d.ten 0).st = .active) && !d.tenRunning 0 && !d.tens.adds.contains 0 &&
      !d.oldGen 0) = true ∧
    accL sm (hdr 2) 0x0203 [.f] 2 (fun d => decide ((d.ten 0).st = .active) && !d.tenRunning 0 &&
      !d.tens.adds.contains 0 && !d.oldGen 0 && decide ((d.segEntries 0).find? (fun e => decide ((d.bt e).st ≠ .empty) && (d.holdsRing e || d.holdsLog e (some 0))) = none)) = true ∧
    accL sm (hdr 4) 0x0204 [.f] 4 (fun d => decide ((d.ten 1).st = .active) &&
      !(d.tenEntries 1).any (fun e => decide ((d.bt e).st ≠ .live)) &&
      segFree (d.segsTaken (d.tenTaken.filter (· ≠ 1))) (d.segBase 1) 32) = true ∧
    accL sm (hdr 4) 0x0204 [.f] 4 (fun d => decide ((d.ten 0).st = .active) && !d.tenRunning 0 && decide (32 ≠ d.segBase 0) &&
      !(d.tenEntries 0).any (fun e => decide ((d.bt e).st ≠ .live)) &&
      !segFree (d.segsTaken (d.tenTaken.filter (· ≠ 0))) (d.segBase 0) 32 &&
      decide (placeSeg ((d.segBase 0, d.segLen 0) :: d.segsTaken (d.tenTaken.filter (· ≠ 0))) 32 = some 32)) = true ∧
    accL (smW fun d => setAct d (R.tenCfg 0) (cfgWord 0 31 + 2 ^ 19)) (hdr 2) 0x0206 [.f] 2 (fun d => d.logOn 0) = true ∧
    acc sm (hdr 2) 0x0207 [.f, .t] 2 (fun d => !d.asTenant (hdr 2) 0x0207) = true := by decide +kernel

/-- A private PLAIN bay under index 5 on set 0. -/
def bayP : BayAddP :=
  { ten := 0, bay := 0xffff, mode := 0, cache := 0, defKey := 5, set := 0, policy := 0, primary := 0xffff, secondary := 0xffff,
    quota := 0 }

theorem witness_BayCommandsComplete :
    acc sm (hdr 18) 0x0300 [.f] 18 (fun d => decide ((d.ten 0).st = .active) && decide (d.bayAddBad bayP = none) && d.live? 5 &&
      decide (d.freePhys 0 = some 1) && decide ((List.range (d.futureSeg 0).2).find? (d.indexFree 0) = some 1)) = true ∧
    acc sm (hdr 10) 0x0302 [.f] 10 (fun d => decide (d.bayEntry 0 0 = some 0) && decide ((d.bt 0).st = .live)) = true ∧
    accL sm (hdr 9) 0x0301 [.f] 9 (fun d => decide (d.bayEntry 0 0 = some 0) && decide (d.removeRefused 0 0 = none)) = true ∧
    acc sm (hdr 4) 0x0303 [.f, .t] 4 (fun d => !d.asTenant (hdr 4) 0x0303 && decide (15 < d.segLen 0) &&
      decide ((d.bt (d.segBase 0 + 15)).st = .empty)) = true ∧
    acc sm (hdr 4) 0x0303 [.f, .t] 4 (fun d => decide (0 < d.segLen 0) && decide ((d.bt (d.segBase 0 + 0)).st ≠ .empty)) = true := by
  decide +kernel

/-- The small block with store 0 in bay 7. -/
def smStore : State := smW fun d => { d with pmap := { d.pmap with stores := [(0, { bay := 7, low := false })] } }

theorem witness_MemoryAndPortCommandsComplete :
    acc sm (hdr 1) 0x0304 [.f] 1 (fun d => (d.setInfo 0).valid && decide (d.freePhys 0 = some 1) &&
      decide ((List.range 4096).find? (fun i => (d.pmap.stores.find? i).isNone) = some 0)) = true ∧
    acc smStore (hdr 2) 0x0305 [.f] 2 (fun d => decide (d.pmap.stores.find? 0 = some { bay := 7, low := false }) &&
      !d.usedEntries.any (fun e => mappedBay (d.bt e).dlaBay &&
        decide ((d.bay (d.bt e).dlaBay).primary = 0 ∨ (d.bay (d.bt e).dlaBay).secondary = 0)) && d.storeEmpty 0) = true ∧
    acc sm (hdr 5) 0x0306 [.f] 5 (fun _ => decide (firstRsv [(17, R.tirPolicy 15, 1)] = none)) = true ∧
    acc sm (hdr 20) 0x0307 [.f] 20 (fun _ =>
      let p : MemCfgP := { tir := 0x10, map := 0xffffffff, hbc := 0xffffffff, itr := 0xffffffff, cje := 0xffffffff }
      decide (firstRsv ((memParts p).map fun (x : Nat × Group × Nat × Nat) => (x.1, x.2.2)) = none) && decide (memParts p ≠ [])) = true ∧
    acc sm (hdr 20) 0x0307 [.f] 20 (fun _ => decide (memParts
      { tir := 0xffffffff, map := 0xffffffff, hbc := 0xffffffff, itr := 0xffffffff, cje := 0xffffffff } = [])) = true ∧
    acc sm (hdr 5) 0x0208 [.f] 5 (fun _ => decide (firstRsv [(17, R.hptPortCfg 5, 1)] = none)) = true ∧
    acc sm (hdr 9) 0x0209 [.f] 9 (fun _ => decide (firstRsv [(17, R.lvrShape 255, 1), (21, R.lvrTarget 255, 1)] = none)) = true ∧
    acc sm (hdr 20) 0x020a [.f] 20 (fun _ => decide (firstRsv [(16, R.lvrCfg, 0), (20, R.lvrTherm, 0), (24, R.lvrPmic, 0),
      (28, R.lvrMasterMap0, 0), (32, R.lvrMasterMap1, 0)] = none)) = true := by decide +kernel

/-- The small block with a contract in a state. -/
def smCon (st : ConState) : State := smW fun d => { d with trs := { d.trs with contracts := [(0, con1 st)] } }

theorem witness_ContractCommandsComplete :
    accL sm (hdr 14) 0x0400 [.f] (termsLen terms1) (fun d => !d.asTenant (hdr 14) 0x0400 && !d.mustWake (.conCreate (hdr 14) 0 terms1) && !d.conWaits &&
      decide ((d.ten 0).st = .active) && decide (d.validate 0 terms1 d.contracts = none) && decide (d.freeCon = some 0) &&
      decide ((d.contracts.filter fun c => decide (c.ten = 0)).length < 8) && !dryRun (hdr 14)) = true ∧
    accL sm { hdr 14 with flags := 2 } 0x0400 [.f] (termsLen terms1) (fun d => decide (d.validate 0 terms1 d.contracts = none) &&
      decide (d.freeCon = some 0) && dryRun { hdr 14 with flags := 2 }) = true ∧
    accL (smCon .active) (hdr 14) 0x0401 [.f] (termsLen terms1) (fun d => !d.mustWake (.conChange (hdr 14) 0 terms1) && !d.conWaits &&
      decide (d.con 0 = some (con1 .active)) &&
      decide (d.validate 0 terms1 (d.contracts.filter fun k => decide (k.id ≠ 0)) = none)) = true ∧
    accL (smCon .demoted) (hdr 2) 0x0402 [.f] 2 (fun d => !d.mustWake (.conReadmit (hdr 2) 0) && decide (d.con 0 = some (con1 .demoted)) &&
      decide (d.validate 0 terms1 (d.contracts.filter fun k => decide (k.id ≠ 0)) = none)) = true ∧
    acc (smCon .active) (hdr 2) 0x0403 [.f] 2 (fun d => !d.conWaits && decide (d.con 0 = some (con1 .active))) = true ∧
    acc (smCon .active) (hdr 2) 0x0404 [.f, .t] 2 (fun d => decide (d.con 0 = some (con1 .active)) && !d.asTenant (hdr 2) 0x0404) = true ∧
    acc sm (hdr 0) 0x0405 [.f, .k, .s] 0 (fun _ => true) = true ∧
    acc sm (hdr 4) 0x0406 [.f] 4 (fun _ => decide (4095 < 2 ^ 12)) = true ∧
    (((smCon .awaiting).die.filled { t := terms1, set := 0, dla := [], share := 2 } = true) ∧
      let s := smW fun d => { d with itr := { d.itr with blocks := [(3, { Block.init with bay := some 0, pins := [0], filling := true })] } }
      s.die.filled (con1 .awaiting).use = false) ∧
    (let s := smW fun d => { d with itr := { d.itr with blocks := [(3, { Block.init with bay := some 0, filling := true })] } }
     s.runs = true ∧ (s.die.itr.block 3).bay = some 0 ∧ (s.die.itr.block 3).filling = true ∧ s.die.fillRead 0 = true) ∧
    (let s := smW fun d => { d with trs := { d.trs with sweep := some 9 } }
     s.runs = true ∧ s.die.trs.sweep.isSome = true) := by decide +kernel

/-- A port serving memory in a mode. -/
def upP (m : PortMode) : Port :=
  { Port.init with perst := false, linkUp := true, speed := 5, flit := 2, memEn := 1, mode := some m, granted := true, memActive := true }

/-- The small die with ports 0 to 2 in FCX mode and tenancy 2 on port 2. -/
def small3 : Die :=
  [(R.tenSeg 2, 32 * 2 ^ 16 + 16), (R.tenCfg 2, cfgWord 2 31)].foldl (fun d x => setAct d x.1 x.2)
    { small with ports := [(0, upP .fcx), (1, upP .fcx), (2, upP .fcx)],
                 tens := { small.tens with recs := [(0, ten1), (1, ten1), (2, ten1)] } }

/-- It with domain 4 in a state, of tenancies 0 to `n` - 1. -/
def smDom (st n : Nat) (f : Die → Die) : State :=
  runDie (f ({ ([(R.cha0DomCfg 4, 2 ^ 31 + 2 ^ 30 + (2 ^ n - 1) * 2 ^ 24 + 10), (R.cha0DomTena 4, 2 ^ 10 + 2 ^ 21)].foldl
    (fun d x => setAct d x.1 x.2) small3) with home := { small3.home with domState := [(4, (st, 0, 7))] } }))

theorem witness_KeyAndDomainCommandsComplete :
    acc sm (hdr 6) 0x0500 [.f] 6 (fun d => decide ((d.ten 0).st ≠ .free) &&
      decide ((List.range 1).find? (fun i => decide (4095 < [5].getD i 0)) = none) && decide ([5].find? (d.keyElsewhere 0) = none)) = true ∧
    acc (smW fun d => { d with keys := { d.keys with slots := [(5, { st := .live, seq := 0, key := 77 }), (6, { st := .live, seq := 1, key := 78 })] } })
      (hdr 8) 0x0501 [.f] 8 (fun d => decide (d.retireRefused 5 false 6 [] = none)) = true ∧
    acc (smW fun d => { d with keys := { d.keys with slots := [(5, { st := .live, seq := 0, key := 77 }), (6, { st := .live, seq := 1, key := 78 })] } })
      (hdr 12) 0x0501 [.f] 12 (fun d => decide (d.retireRefused 5 true 0 [(0, 6)] = none)) = true ∧
    acc sm (hdr 2) 0x0502 [.f, .k, .s] 2 (fun d => decide (d.retire? 5 = none)) = true ∧
    acc (smW fun d => d.addRetire 5 true false 0 [(0, 6)] none) (hdr 2) 0x0502 [.f, .k, .s] 2
      (fun d => (d.retire? 5).isSome) = true ∧
    acc (runDie small3) (hdr 11) 0x0600 [.f] 11 (fun d => !d.domTaken 63 && decide (d.membersBad 63 21 [0, 1, 2] = none)) = true ∧
    acc (runDie small3) (hdr 11) 0x0600 [.f] 11 (fun d => decide ((List.range 64).find? (fun n => !d.domTaken n) = some 0) &&
      decide (d.membersBad 0 21 [0, 1, 2] = none)) = true ∧
    accL (smDom 1 2 id) (hdr 5) 0x0601 [.f] 5 (fun d => decide (d.needUp 4 = none) && decide ((d.ten 2).st = .active) &&
      !(d.members 4 ++ d.joining 4).any (fun m => decide (m.1 = d.tenPort 2)) && decide (d.domOfTen 2 = none) &&
      !(List.range 64).any (fun k => (d.joining k).any fun m => decide (m.2 = 2)) &&
      !(d.domFcx 4 && !(d.port (d.tenPort 2)).fcxActive) && decide ((d.domBaysSoon 4).length = 0) &&
      decide ((d.takeIndices 2 21 2 true []).2 = none)) = true ∧
    accL (smDom 1 3 id) (hdr 3) 0x0602 [.f] 3 (fun d => decide (d.needUp 4 = none) && decide (d.memberOf 4 2 = some 2) &&
      decide (2 < (d.members 4).length) &&
      decide (d.keyShared ((d.members 4).map Prod.snd) (fun t u => decide (t = 2 ∨ u = 2)) = none)) = true ∧
    accL (smDom 1 2 id) (hdr 3) 0x0603 [.f] 3 (fun d => decide (d.needUp 4 = none) && decide (d.memberOf 4 0 = some 0) &&
      decide (d.keyShared ((d.members 4).map Prod.snd) (fun _ _ => true) = none)) = true ∧
    accL (smDom 2 3 id) (hdr 7) 0x0604 [.f] 7 (fun d => decide ((d.domStat 4).1 ≠ 0) && d.domDown 4 && !d.rebuilding 4 &&
      decide (d.membersBad 4 19 [0, 1] = none) && decide (d.rebuildFull 4 [0, 1] = none) &&
      decide (d.keyShared (((d.members 4).map Prod.snd ++ [0, 1]).eraseDups) (fun t u => !([0, 1].contains t && [0, 1].contains u)) =
        none)) = true ∧
    acc (smDom 1 3 id) (hdr 15) 0x0605 [.f] 15 (fun d => decide (d.needUp 4 = none) &&
      (d.members 4).any (fun (m : Nat × Nat) => decide (m.2 = 0)) && decide (d.bayEntry 0 0 = some 0) &&
      (let others := (d.members 4 ++ d.joining 4).filter fun (m : Nat × Nat) => decide (m.2 ≠ 0)
       let list := [(1, 3), (2, 15)]
       (List.range 2).all (fun i => others.any (fun (m : Nat × Nat) => decide (m.2 = (list.getD i (0, 0)).1)) &&
         !(list.take i).any (fun (x : Nat × Nat) => decide (x.1 = (list.getD i (0, 0)).1)) &&
         decide ((d.takeIndices (list.getD i (0, 0)).1 (25 + 4 * i) 0 false [(list.getD i (0, 0)).2]).2 = none)) &&
       decide (list.length = others.length)) && decide ((d.bt 0).st = .live) && !(d.bt 0).inDom && !d.holdsRing 0 &&
      !d.holdsLog 0 none && !d.classBars 0 && !d.tenRunning 0) = true ∧
    acc (smDom 1 3 id) (hdr 1) 0x0606 [.f] 1 (fun _ => true) = true := by decide +kernel

/-- The small block with job queue 3 as given. -/
def smJob (j : JobQ) : State := smW fun d => { d with jobs := [(3, j)] }

/-- A job at its descriptor fetch. -/
def job1 : Job :=
  { idx := 0, desc := [], gen := 0, kidx := 5, phase := .fetch, got := [], wfail := false, barred := false, res := none, rerun := false }

theorem witness_QueueCommandsComplete :
    acc sm (hdr 17) 0x0700 [.f] 17 (fun d =>
      let cfg := 2 ^ 31 + 2 ^ 28
      decide (firstRsv [(17, R.cjeQcfg 3, cfg), (21, R.cjeQkey 3, 5), (25, R.cjeQsq 3, 0), (29, R.cjeQcq 3, 1)] = none) &&
      decide ((d.job 3).st = 0) && bit (BitVec.ofNat 32 cfg) 28 && decide (fld (BitVec.ofNat 32 cfg) 9 0 = 0) &&
      decide ((d.ten 0).st ≠ .free) && d.jobKeyOk (some 0) 5 && d.live? 5) = true ∧
    acc (smJob { JobQ.init with st := 2 }) (hdr 1) 0x0701 [.f, .t] 1 (fun d => !d.asTenant (hdr 1) 0x0701 &&
      decide ((d.job 3).st ≠ 0)) = true ∧
    accL (smJob { JobQ.init with st := 1, job := some job1 }) (hdr 1) 0x0702 [.f] 1 (fun d => decide ((d.job 3).st ≠ 0) &&
      decide ((d.job 3).disabling = none) && decide ((d.job 3).job ≠ none)) = true ∧
    accL (smJob { JobQ.init with st := 1 }) (hdr 1) 0x0702 [.f] 1 (fun d => decide ((d.job 3).st ≠ 0) &&
      decide ((d.job 3).disabling = none) && decide ((d.job 3).job = none)) = true ∧
    accL sm (hdr 1) 0x0702 [.f] 1 (fun d => decide ((d.job 63).st = 0)) = true ∧
    acc sm (hdr 1) 0x0703 [.f, .t] 1 (fun d => !d.asTenant (hdr 1) 0x0703) = true ∧
    (sm.window srcFw = true ∧ sm.die.active.memWake.jobTen 63 = none) := by decide +kernel

theorem witness_PowerAndTelemetryCommandsComplete :
    acc sm (hdr 1) 0x0800 [.f] 1 (fun d => d.levelOk 3) = true ∧ acc sm (hdr 5) 0x0801 [.f] 5 (fun d => !d.anyDomainUp) = true ∧
    (small.pwr.inflight = none ∧ small.pwr.pending = none ∧ small.secureHolds 7 = false) ∧
    acc sm (hdr 0) 0x0802 [.f, .k] 0 (fun _ => true) = true ∧
    acc sm (hdr 3) 0x0a00 [.f] 3 (fun d => d.plainEntry 0) = true ∧
    acc sm (hdr 7) 0x0a01 [.f] 7 (fun _ => decide (fld (BitVec.ofNat 32 1) 15 12 = 0) && selOk (BitVec.ofNat 32 1)) = true ∧
    acc sm (hdr 3) 0x0a02 [.f] 3 (fun d => decide ((d.ten 0).st ≠ .free)) = true ∧
    acc sm (hdr 4) 0x0a03 [.f, .t] 4 (fun d => !d.asTenant (hdr 4) 0x0a03) = true ∧
    acc sm (hdr 1) 0x0a04 [.f, .k] 1 (fun _ => true) = true := by decide +kernel

/-- The small block with channel 3 excluded after start-up, a readmission of it begun or not. -/
def smReadmit (c : Option Hdr) : State :=
  smW fun d => { d with chans := d.chans ++ [(3, { Chan.init 3 with trained := true, excluded := true, atStart := false, readmitCmd := c })] }

theorem witness_FaultCommandsComplete :
    acc sm (hdr 4) 0x0900 [.f, .k] 4 (fun _ => unitOk 0xf8) = true ∧ acc sm (hdr 2) 0x0901 [.f, .k] 2 (fun _ => unitOk 0) = true ∧
    acc (smW fun d => { d with dbg := { d.dbg with ni := true } }) (hdr 4) 0x0902 [.f] 4 (fun d => d.dbg.ni && unitOk 0x78 &&
      !notInjected 0x04 && (codesOf 0x78).contains 0x04) = true ∧
    accL (smReadmit none) (hdr 1) 0x0904 [.f] 1 (fun d => (d.chan 3).excluded && !(d.chan 3).atStart &&
      decide ((d.chan 3).readmitCmd = none) && !(d.chan 3).readmit) = true ∧
    ((smReadmit (some (hdr 1))).runs = true ∧ ((smReadmit (some (hdr 1))).die.chan 3).readmitCmd = some (hdr 1) ∧
      ((smReadmit (some (hdr 1))).die.chan 3).readmit = false) := by decide +kernel

theorem witness_FirmwareAndKeepCommandsComplete :
    acc sm (hdr 0) 0x0b00 [.f, .k] 0 (fun _ => true) = true ∧ acc sm (hdr 6) 0x0b01 [.k] 6 (fun d => decide (1 ≠ d.boot.image)) = true ∧
    accL sm (hdr 1) 0x0b02 [.k] 1 (fun _ => true) = true ∧
    acc (smW fun d => { d with boot := { d.boot with verified := [1] } }) (hdr 1) 0x0b03 [.k] 1 (fun d => d.boot.verified.contains 1) = true ∧
    acc sm (hdr 4) 0x0b04 [.f, .k] 4 (fun d => decide (0 + 256 ≤ d.keepSecBase)) = true ∧
    acc sm (hdr 6) 0x0b05 [.f, .k] 6 (fun d => decide (3 < d.keepSecBase) && keepMarked 3 && keepRsvOk 3 (BitVec.ofNat 32 2) &&
      decide (bit (BitVec.ofNat 32 2) 0 = bit (d.keep 3) 0)) = true ∧
    acc sm (hdr 6) 0x0b05 [.f, .k] 6 (fun d => decide (128 < d.keepSecBase) && keepMarked 128 && keepRsvOk 128 (BitVec.ofNat 32 9)) = true ∧
    ((smW fun d => { d with kps := { d.kps with queue := [{ k := 7, v := 1, hdr := none }] } }).runs = true ∧
      (smW fun d => { d with kps := { d.kps with queue := [{ k := 128, v := 1, hdr := some (hdr 6) }] } }).runs = true) ∧
    acc sm (hdr 0) 0x0b06 [.k] 0 (fun _ => true) = true := by decide +kernel

theorem witness_DebugCommandsComplete :
    acc (smW fun d => d.regW R.mulDbgPolicy 3) (hdr 2) 0x0c00 [.f] 2 (fun d => bit (d.regR R.mulDbgPolicy) 1 && bit (d.regR R.mulDbgPolicy) 0) = true ∧
    acc sm (hdr 2) 0x0c00 [.f] 2 (fun _ => true) = true ∧
    acc sm (hdr 2) 0x0c01 [.f] 2 (fun d => decide ((d.ten 1).st ≠ .free)) = true ∧ acc sm (hdr 0) 0x0c02 [.f, .k, .s] 0 (fun _ => true) = true := by
  decide +kernel

/-- An unowned block, with the keeper's claim standing or not and the steward's session on port 0. -/
def smFree (c : Option Claim) : State :=
  smW fun d => { d with
    dbl := { Dbl.init with claim := c }
    ports := [(0, { upP .sld with sessions := [{ id := 1, mutualAuth := true, established := true, keys := 0 }] })] }

/-- An open proposal of a RELEASE, signed by the keeper or not. -/
def prop1 (k : Bool) : Proposal :=
  { id := 1, kind := 7, proposer := 1, time := 0, head := List.replicate 16 3, body := [], keeperSigned := k, stewardSigned := false,
    bad := 0, commit := none }

/-- An owned block with it, and the steward's session on port 0. -/
def smProp (k : Bool) : State :=
  smW fun d => { d with
    dbl := { Dbl.init with owned := true, eid := 9, port := 0, nextId := 2, props := [prop1 k] }
    ports := [(0, { upP .sld with sessions := [{ id := 1, mutualAuth := true, established := true, keys := 0 }] })] }

theorem witness_DeadboltCommandsComplete :
    acc (smFree none) { hdr 49 with via := .mctp 9 true } 0x0d00 [.k, .s] 49 (fun d => !d.dbl.owned) = true ∧
    acc (smFree (some { eid := 9, secret := 1, port := 0, time := 0 })) (hdrS 48) 0x0d00 [.k, .s] 48 (fun d => !d.dbl.owned &&
      decide (d.claimNow = some { eid := 9, secret := 1, port := 0, time := 0 })) = true ∧
    ((smFree none).runs = true ∧ (smFree none).die.claimNow = none) ∧
    acc sm (hdr 2) 0x0d01 [.k, .s] 2 (fun d0 => let d := d0.expireProps
      d.dbl.owned && decide (d.bodyBad 7 [] = none) && !d.dbl.props.any (fun (p : Proposal) => decide (p.kind = 7)) &&
      decide (d.dbl.props.length < 4)) = true ∧
    acc (smProp false) (hdr 4) 0x0d02 [.k, .s] 4 (fun d =>
      decide (d.expireProps.dbl.props.find? (fun (p : Proposal) => decide (p.id = 1)) = some (prop1 false))) = true ∧
    acc (smProp false) (hdr 52) 0x0d03 [.k, .s] 52 (fun d => let v := d.expireProps.signature (prop1 false) 1
      decide (d.expireProps.dbl.props.find? (fun (p : Proposal) => decide (p.id = 1)) = some (prop1 false)) && decide (v % 2 ^ 384 = v)) = true ∧
    acc (smProp true) (hdrS 52) 0x0d03 [.k, .s] 52 (fun d => let v := d.expireProps.signature (prop1 true) 2
      decide (d.expireProps.dbl.props.find? (fun (p : Proposal) => decide (p.id = 1)) = some (prop1 true)) && decide (v % 2 ^ 384 = v) &&
      decide (d.expireProps.bodyBad 7 [] = none)) = true ∧
    acc (smProp true) (hdrS 4) 0x0d04 [.k, .s] 4 (fun d =>
      decide (d.expireProps.dbl.props.find? (fun (p : Proposal) => decide (p.id = 1)) = some (prop1 true))) = true ∧
    acc sm (hdr 0) 0x0d05 [.f, .k, .s, .t] 0 (fun _ => true) = true := by decide +kernel

/-- The small block with port 0 serving memory in a mode. -/
def smP (m : PortMode) (f : Die → Die) : State := smW fun d => f { d with ports := [(0, upP m), (1, upP m)] }

/-- The same with port 0 as an MLD port. -/
def smMld : State := smW fun d => setAct { d with ports := [(0, { upP .mld with ldCount := 4, memEn := 8 })] } (R.hptPortCfg 0) 0xa101

/-- The small block with port 5 linked and Mem_Enable not yet set, its FCX function allowed. -/
def smLink : State :=
  smW fun d => setAct { d with ports := [(5, { upP .sld with memEn := 0, mode := none, granted := false })] } (R.hptPortCfg 5) 0xa201

theorem witness_CxlDeviceCommandsComplete :
    (smP .sld id).takesMailbox 0 0 = true ∧ (smP .sld id).die.active.ldTen 0 0 = some 0 ∧
    ((smP .sld id).die.active.flt.doorstop = false ∧ (smP .sld id).die.active.ldLine 0 0 0x1000 = some (0, 0, 0x1000)) ∧
    ((smP .sld fun d => { d with dbg := { d.dbg with ni := true } }).takesMailbox 0 0 = true ∧
      (smP .sld fun d => { d with dbg := { d.dbg with ni := true } }).die.active.dbg.ni = true ∧
      (smP .sld fun d => { d with dbg := { d.dbg with ni := true } }).die.active.flt.doorstop = false ∧
      (smP .sld fun d => { d with dbg := { d.dbg with ni := true } }).die.active.ldLine 0 0 0x1000 = some (0, 0, 0x1000) ∧
      ((smP .sld fun d => { d with dbg := { d.dbg with ni := true } }).die.active.poisonLine 0 0x1000).isSome = true) ∧
    ((smP .sld id).die.active.mailboxBusy (if bit ((smP .sld id).die.active.portCfg 0) 8 then .ldMailbox 0 0 else .mailbox 0) = false) ∧
    (smP .sld fun d => { d with tens := { d.tens with recs := [] } }).die.active.ldTen 0 0 = none ∧
    (smMld.takesMailbox 0 0 = true ∧ bit (smMld.die.active.portCfg 0) 8 = true) := by decide +kernel

/-- The small block with SPDM sessions 1 (established) and 2 (not) on port 0 and on the sideband. -/
def smSpdm : State :=
  let l : List Session := [{ id := 1, mutualAuth := true, established := true, keys := 0 }]
  smW fun d => { d with ports := [(0, { upP .sld with sessions := l })], cxl := { d.cxl with
    sessions := l ++ [{ id := 2, mutualAuth := false, established := false, keys := 0 }] } }

theorem witness_SpdmRequestsComplete :
    smSpdm.takesSpdm (.doe 0) = true ∧ smSpdm.takesSpdm .sideband = true ∧ (smSpdm.die.active.sessionsOf (.doe 0)).length < 2 ∧
    ((smSpdm.die.active.sessionsOf .sideband).find? (fun (x : Session) => decide (x.id = 2) && !x.established)).isSome = true ∧
    smSpdm.die.active.sessionUp .sideband 1 = true ∧ smSpdm.die.active.sessionUp (.doe 0) 1 = true := by decide +kernel

theorem witness_RegisterAndConfigurationAccessesComplete :
    (sm.window srcFw = true ∧ (sm.die.regWake (Group.commitReg .lvr)).mayWrite srcFw = true ∧ (sm.die.regWake (Group.commitReg .lvr)).going .lvr = false) ∧
    (smMld.runs = true ∧ smMld.die.ldBar { master := 0, port := 0, ld := 3, secure := false, jtag := false } = true ∧
      smMld.window { master := 0, port := 0, ld := fmLd, secure := false, jtag := false } = true) ∧
    ((smW fun d => d.setRing 7 { Ring.init with valid := true, port := 0, log2 := 4 }).runs = true ∧
      ((smW fun d => d.setRing 7 { Ring.init with valid := true, port := 0, log2 := 4 }).die.active.ring 7).valid = true ∧
      ((smW fun d => d.setRing 7 { Ring.init with valid := true, port := 0, log2 := 4 }).die.active.ring 7).port = 0) ∧
    (¬(2 = 4 ∧ 0xfffffe % 4 = 0) ∧ ¬(2 = 8 ∧ 0xfffffe % 8 = 0) ∧ srcFw.jtag = false ∧ 0xfffffc < 0x1000000 ∧ 0xfffff8 % 8 = 0) ∧
    (inSecureWindow R.dblStat = true ∧ R.dblStat % 4 = 0) ∧
    ((sm.die.latchPair (.pwrRes 6)).isSome = true ∧ (sm.die.latchPair (.pmuCtr 511)).isSome = true ∧
      (sm.die.latchPair .genTime).isSome = true ∧ (sm.die.latchPair .trsCount).isSome = true ∧
      (sm.die.latchPair .pwrSleepStart).isSome = true ∧ (sm.die.latchPair .pwrSleepEnd).isSome = true) ∧
    ((smW fun d => { d with dbg := { d.dbg with ni := true } }).runs = true ∧
      (smW fun d => { d with dbg := { d.dbg with ni := true } }).die.dbg.ni = true ∧
      (smW fun d => { d with dbg := { d.dbg with ni := true } }).die.np = true ∧ inSecureWindow 0 = false) ∧
    (smP .sld id).takesConfig 0 0 = true ∧
    (smLink.takesConfig 5 0 = true ∧ smLink.die.active.fcxRefusal 5 = none ∧ (smLink.die.active.port 5).memEn = 0 ∧
      (smLink.die.active.port 5).mode ≠ some .fcx ∧ (smLink.die.active.port 5).mode = none) ∧
    (smMld.takesConfig 0 3 = true ∧ 3 ≠ fmLd ∧ (smMld.die.active.port 0).memEn = 2 ^ 3) := by decide +kernel

/-- A message of port 0 to a TA, with a coherence code, tenancy tag 0 of generation 0 and a MetaValue. -/
def msg (ta coh meta_ : Nat) : M2S :=
  { port := 0, ld := 0, tag := 1, ta := ta, metaV := meta_,
    ext := { gen := 0, ttag := 0, kidx := 0, ksel := false, dcode := 0, cc := false, coh := coh } }

/-- The message, one with data or not, is served in entry `e` of tenancy `ten`, and the die awake for it meets `P`. -/
def srv (s : State) (m : M2S) (data : Bool) (ten e : Nat) (P : Die → Bool) : Bool :=
  let d := s.die.arrival m.port
  s.runs && s.die.portReady m.port && s.die.rxRoom m.port data && decide (d.tenOf m = some ten) && decide (d.entryOf ten m.ta = some e) &&
    decide ((d.bt e).st = .live) && !d.flt.doorstop && P d

/-- What `srv` shows. -/
theorem srv_serves {s : State} {m : M2S} {data : Bool} {ten e : Nat} {P : Die → Bool} (h : srv s m data ten e P = true) :
    ∃ d, s.serves m data d ten e ∧ P d = true := by
  simp only [srv, Bool.and_eq_true, decide_eq_true_eq, Bool.not_eq_true'] at h
  obtain ⟨⟨⟨⟨⟨⟨⟨h1, h2⟩, h8⟩, h3⟩, h4⟩, h5⟩, h6⟩, h7⟩ := h
  exact ⟨_, ⟨h1, h2, h8, rfl, h3, h4, h5, h6⟩, h7⟩

/-- The small block with port 0 in SLD mode, its tenancy LD 0, bay 0 in domain 4 or in none, port 0 owning line 0 or not. -/
def smHost (dom own : Bool) : State :=
  let d := (setAct (setAct small (R.tenCfg 0) (cfgWord 0 0)) (R.cha0DomCfg 4) (2 ^ 31 + 3 * 2 ^ 24 + 10))
  let dir : Tbl DirEnt :=
    if own then [(0, { DirEnt.none with dom := 4, d := { st := .x, owner := 0, sharers := 0 }, onDie := true })] else []
  let bt : Tbl Bt := [(0, { bt1 0 0 with inDom := dom, dom := if dom then 4 else 0 })]
  runDie { d with ports := [(0, upP .sld), (1, upP .sld)], tens := { d.tens with bt := bt },
                  home := { d.home with domState := [(4, (1, 0, 7))], dir := dir } }

theorem witness_HostRequestsComplete :
    srv (smHost false false) (msg 0 0 3) false 0 0 (fun d => !d.portFcx 0 && !d.stdEntry 0) = true ∧
    srv (smHost false false) (msg 0 0 3) true 0 0 (fun d => !d.portFcx 0 && !d.stdEntry 0) = true ∧
    srv (smHost true false) (msg 64 0 1) false 0 0 (fun d => !d.portFcx 0 && d.stdEntry 0 && !d.holds (d.dlaIn 0 64) 0) = true ∧
    srv (smHost true true) (msg 0 0 3) true 0 0 (fun d => !d.portFcx 0 && d.stdEntry 0 && d.holds (d.dlaIn 0 0) 0) = true ∧
    srv (smP .fcx id) (msg 0x3fffffc0 0 3) true 0 0 (fun d => d.portFcx 0 && !d.stdEntry 0) = true := by decide +kernel

theorem witness_CoherentMessagesComplete :
    srv (smP .fcx id) (msg 0x3fffffc0 1 3) false 0 0 (fun d => d.portFcx 0 && !d.stdEntry 0) = true ∧
    srv (smP .fcx id) (msg 0x3fffffc0 5 3) true 0 0 (fun d => d.portFcx 0 && !d.stdEntry 0) = true ∧ (smP .fcx id).die.portFcx 0 = true ∧
    ((smHost true true).runs = true ∧ (smHost true true).die.portReady 0 = true ∧ (smHost true true).die.flt.doorstop = false ∧
      ((smHost true true).die.arrival 0).memberLine (msg 0 0 3) = some (4, 0, 0) ∧
      ((smHost true true).die.arrival 0).domDown 4 = false ∧ ((smHost true true).die.arrival 0).portFcx 0 = false ∧
      ((smHost true true).die.arrival 0).domFcx 4 = false) ∧
    ({ (smHost true true).die with home := { (smHost true true).die.home with conflicts := [(0, 64)] } }.home.conflicts.contains
      ((msg 64 0 3).port, (msg 64 0 3).ta / 64 * 64) = true) := by decide +kernel

/-- A request of port 0 for line 0, at a stage. -/
def txn1 (st : Stage) : Txn := { small.newTxn (msg 0 0 3) .rd 0 0 0 5 4 0 0 with id := 8, stage := st, ch := 0, need := [0] }

/-- The small block with one request. -/
def smTxn (t : Txn) (f : Die → Die) : State := smW fun d => f { d with home := { d.home with txns := [(t.id, t)], nextTxn := 9 } }

/-- A region of the HBM controller open to every master. -/
def openHbm (d : Die) : Die :=
  ((d.regW (R.mulCtl 1024) 0x80000000).regW (R.mulLim 1024) 0xffffffff).regW (R.mulMask 1024) 0xffffffff

/-- Line 0 of domain 4 is Busy. -/
def busy1 : Busy :=
  { dla := 0, dom := 4, txn := none, fetch := false, way := 0, stable := Dir.i, next := Dir.i, was := Dir.i, kept := [], ack := none, lates := [],
    snoops := [{ port := 2, k := .inv, f := false, due := 0, rsp := none, data := none, late := false }] }

/-- The block with line 0 Busy and a sweep under way. -/
def smBusy (b : List Busy) (x : Sweep) : State :=
  smDom 1 3 fun d => { d with time := 1000, home := { d.home with busy := b, sweeps := [(3, x)] } }

/-- A sweep of bay 0's lines. -/
def sweep1 (left : Nat) : Sweep := { dom := 4, port := none, bay := some 0, clear := false, linesLeft := left, last := (0, 0), cmd := none }

/-- A bay operation of the first entry in a phase. -/
def bayOp1 (p : RemPhase) : BayOp :=
  { entry := 0, bay := 0, phase := p, why := 0, ten := 0, next := 0, left := [], until_ := 0, hdr := some (hdr 9) }

/-- A directory fetch returned: the request of line 0 in the bay of domain 4. -/
def smFetch : State := smTxn (txn1 .dirFetch) fun d => { d with tens := (smHost true false).die.tens }

theorem witness_DirectoryEventsComplete :
    (smFetch.runs = true ∧ (smFetch.die.txns.find? (fun t => decide (t.stage = .dirFetch) && decide (t.dla / 64 = 0 / 64) &&
        !smFetch.die.hbmWaits (.dirFetch (0 / 64 * 64)))).isSome = true ∧
      ((smFetch.die.dirLoad 0).clearBusy 0).domOf 0 = some 4) ∧
    (let d := (smTxn (txn1 .waitlist) id).die.startRecalls 0
     (d.txns.find? (fun t => decide (t.stage = .waitlist) && decide (t.dla / 64 = 0 / 64))) = some (txn1 .waitlist) ∧
      (d.busyOf 0).any (fun b => decide (b.txn = some (txn1 .waitlist).id)) = false ∧ d.bayLost (txn1 .waitlist) = false ∧
      d.lineBlocked (txn1 .waitlist) = false) ∧
    (let s := smBusy [{ busy1 with ack := some (2, some 950, false), snoops := [] }] (sweep1 0)
     s.runs = true ∧ s.die.busyOf 0 = some { busy1 with ack := some (2, some 950, false), snoops := [] } ∧ 950 + 50 ≤ s.die.time ∧
      s.die.timeoutAt busy1.dom 950 ≤ s.die.time + 10 ^ 9) ∧
    (let s := smBusy [busy1] (sweep1 0)
     s.runs = true ∧ s.die.busyOf 0 = some busy1 ∧ busy1.ack = none ∧ busy1.snoops.any (fun x => decide (x.port = 2) &&
      !busy1.answered x && !x.late && decide (x.due + 50 ≤ s.die.time)) = true) ∧
    (let s := smBusy [busy1] (sweep1 0)
     busy1.snoops.any (fun x => decide (x.port = 2) && !busy1.answered x && decide (s.die.timeoutAt busy1.dom x.due ≤ s.die.time)) = true) ∧
    (let b := { busy1 with ack := some (2, some 0, true), snoops := [] }
     let s := smBusy [b] (sweep1 0)
     s.die.busyOf 0 = some b ∧ s.die.timeoutAt b.dom 0 ≤ s.die.time) ∧
    (let s := runDie (openHbm (smBusy [] (sweep1 100)).die)
     s.die.home.sweeps.find? 3 = some (sweep1 100) ∧ (sweep1 100).clear = false ∧ s.die.sweepWaits = false ∧
      (s.die.hbm 3 0 (dirLineAddr (dirLines - 100)) 14 false (.sweep 100)).1 = true) ∧
    ((smBusy [] (sweep1 0)).die.home.sweeps.find? 3 = some (sweep1 0) ∧ (sweep1 0).linesLeft = 0) ∧
    (let s := smDom 1 3 fun d => { d with home := { d.home with sweeps := [(3, sweep1 0)] },
                                          tens := { d.tens with bayOps := [bayOp1 .recall] } }
     s.runs = true ∧ s.die.home.sweeps.find? 3 = some (sweep1 0) ∧ s.die.sweepOver (sweep1 0) = true ∧ (sweep1 0).cmd = none ∧
      (s.die.dropSweep 3).bayOp? 0 = some (bayOp1 .recall)) := by decide +kernel

/-- An entry of lane 0 for granule 0 under index 5. -/
def ent1 : LaneEnt := { LaneEnt.base with seq := 3, ch := 0, dga := 0, kidx := 5, data := 7 }

/-- The small block with one lane entry. -/
def smLane (e : LaneEnt) : State := smW fun d => { d with lane := [e] }

theorem witness_MemoryEventsComplete :
    ((smTxn (txn1 .hold) id).runs = true ∧ (smTxn (txn1 .hold) id).die.txn? 8 = some (txn1 .hold) ∧
      (smTxn (txn1 .hold) id).die.oldestHeld (txn1 .hold) = true ∧
      (smTxn (txn1 .hold) id).die.mayTake (txn1 .hold).ch (txn1 .hold).louvre = true) ∧
    ((smTxn (txn1 .port) id).die.txn? 8 = some (txn1 .port) ∧ (smTxn (txn1 .port) id).die.txns.any (fun u =>
      decide (u.stage = .port) && decide (u.id < 8) && decide (u.master = 0) && decide (homeOf u.dla = homeOf (txn1 .port).dla)) = false ∧
      (smTxn (txn1 .port) id).die.holdFull (homeOf (txn1 .port).dla) = false ∧
      (smTxn (txn1 .port) id).die.innerRoom (homeOf (txn1 .port).dla) = true) ∧
    (sm.die.pwr.st = .run ∧ sm.die.flt.drained = false ∧ sm.die.chanAsleep 15 = false) ∧
    ((smTxn (txn1 .mem) id).die.txn? 8 = some (txn1 .mem) ∧ (smTxn (txn1 .mem) id).die.expects (txn1 .mem) 0 = true) ∧
    ((smLane { ent1 with fill := true }).die.nextStore 0 = some { ent1 with fill := true } ∧ ent1.raw = none ∧
      ((smLane { ent1 with fill := true }).die.chan 0).excluded = false) ∧
    (smLane { ent1 with raw := some fillGranule }).die.nextStore 0 = some { ent1 with raw := some fillGranule } ∧
    ((smLane ent1).runs = true ∧ (smLane ent1).die.nextStore 0 = some ent1 ∧ (smLane ent1).die.hasKey 5 = true ∧
      (smLane ent1).die.itr.isLost 0 = false ∧
      (match (smLane ent1).die.raiseCounter 0 4 0 none with | .ok _ _ _ => true | _ => false) = true) ∧
    ((smLane { ent1 with reenc := true }).die.nextStore 0 = some { ent1 with reenc := true } ∧
      (smLane { ent1 with reenc := true }).die.hasKey 5 = true ∧ (smLane { ent1 with reenc := true }).die.itr.isLost 0 = false ∧
      ((smLane { ent1 with reenc := true }).die.itr.latest 0 (nodeIdx 0 0)).isSome = true) ∧
    (let t : Txn := { txn1 .test with retry := [(0, 1)] }
     let s := smTxn t fun d => { d with flt := { d.flt with tests :=
       [{ kind := 1, unit := d.dimmUnit 0, row := 8, seq := 0, forced := false, running := true, queued := 0 }] } }
     s.runs = true ∧ s.die.txn? 8 = some t ∧ t.retry.any (fun x => decide (x.1 = 0)) = true ∧
       s.die.flt.tests.any (fun x => decide (x.kind = 1) && decide (x.row = 8) && decide (x.seq = 0 / 64 % 65536) && x.running) = true) := by
  decide +kernel

/-- A node with major 1 and minor 0 at 1. -/
def node1 : Node := { major := 1, minors := [(0, 1)] }

/-- The same with the minor of granule 3. -/
def node13 : Node := { major := 1, minors := [(3, 1)] }

/-- The small block with the integrity unit changed. -/
def smItr (f : Itr → Itr) : State := smW fun d => { d with itr := f { d.itr with ready := true, tk := some 5 } }

/-- A block whose L3 node 0 is `node1`, and whose L2 node 0 stands at home under its MAC. -/
def smNode : State := smItr fun i => { i with
  fetches := [(nodeKey 2 0, 0)], l3 := [(0, node1)], home := [(nodeKey 2 0, { node := node1, mac := nodeMac 5 2 0 1 1 node1 })] }

/-- A page with a pending image whose granule 3 waits for its re-encryption. -/
def pend1 (n : Node) : Pending := { leaf := 0, image := n, mask := [3], group := 4, louvre := 0, con := none }
def smPend (n : Node) : State := smW fun d => { d with
  itr := { d.itr with pend := [pend1 n], cc := [(nodeKey 0 0, { node := node1, dirty := true, lru := 0, group := 4, louvre := 0, con := none })] },
  tens := { d.tens with bays := [(0, { BayRec.init with keyList := [5] })] }, dram := [(3, { Granule.blank with kic := kicOf 5 })] }

theorem witness_IntegrityEventsComplete :
    (let s := smItr fun i => { i with fetches := [(nodeKey 2 0, 0)] }
     s.runs = true ∧ s.die.itr.fetches.find? (fun (f : Nat × Nat) => decide (f.1 = nodeKey 2 0)) = some (nodeKey 2 0, 0) ∧ 0 ≠ phDenied ∧
      s.die.nodeIssued (nodeKey 2 0) = true ∧ (s.die.itr.latest 3 0).any (fun p => decide (p.minor 0 = 0)) = true) ∧
    (smNode.runs = true ∧ smNode.die.itr.fetches.find? (fun (f : Nat × Nat) => decide (f.1 = nodeKey 2 0)) = some (nodeKey 2 0, 0) ∧
      0 ≠ phAgain ∧ smNode.die.nodeIssued (nodeKey 2 0) = true ∧ smNode.die.itr.latest 3 0 = some node1 ∧ node1.minor 0 ≠ 0) ∧
    (let s := runDie (setAct (smPend Node.zero).die R.itrCfg 1024)
     s.runs = true ∧ fld (s.die.act R.itrCfg) 16 0 ≤ s.die.itr.dirty + 1024 ∧
      s.die.itr.oldestDirty (fun k => !s.die.homeOut k) = some (nodeKey 0 0)) ∧
    (let c : Charge := { group := 4, due := 0, louvre := 0, con := none }
     (smPend node13).runs = true ∧ (smPend node13).die.itr.pendOf 0 = some (pend1 node13) ∧ (pend1 node13).mask.contains 3 = true ∧
      (smPend node13).die.buffered 192 = none ∧ ((smPend node13).die.chan ((smPend node13).die.chanOf 192)).excluded = false ∧
      (smPend node13).die.indexOf 192 ((smPend node13).die.keysOfPhys (bayOf 192)) = some 5 ∧
      ((smPend node13).die.reads (.reenc 192) [192] c).1 = none) ∧
    (let c : Charge := { group := 4, due := 0, louvre := 0, con := none }
     let d := (smPend Node.zero).die
     (smPend Node.zero).runs = true ∧ d.itr.pendOf 0 = some (pend1 Node.zero) ∧ d.buffered 192 = none ∧ (d.chan (d.chanOf 192)).excluded = false ∧
      d.indexOf 192 (d.keysOfPhys (bayOf 192)) = some 5 ∧ (d.reads (.reenc 192) [192] c).1.isSome = true ∧
      (match ((d.reads (.reenc 192) [192] c).2.readWhole 192 5 (bayOf 192) ((d.reads (.reenc 192) [192] c).2.heldGranule 192).kind
          10 0xffff 0 c []).1 with | Got.data _ => true | _ => false) = true) ∧
    (let s := smItr fun i => { i with blocks := [(31, { Block.init with bay := some 7, writing := true })] }
     s.runs = true ∧ (s.die.itr.block 31).writing = true ∧ (s.die.itr.block 31).bay = some 7 ∧ s.die.itr.dirtyLines 31 = []) := by
  decide +kernel

/-- The L2 node of `smNode` passes its check. -/
theorem witness_nodeOk : smNode.die.nodeOk 2 0 node1 ((smNode.die.itr.home.find? (nodeKey 2 0)).getD Stored.blank)
    { chk := .clean, altered := false } = true := by
  have hi : smNode.die.itr = { { small.itr with ready := true, tk := some 5 } with
    fetches := [(nodeKey 2 0, 0)], l3 := [(0, node1)], home := [(nodeKey 2 0, { node := node1, mac := nodeMac 5 2 0 1 1 node1 })] } := rfl
  have hf (n : Stored) : (Tbl.find? [(nodeKey 2 0, n)] (nodeKey 2 0)).getD Stored.blank = n := by cases n; rfl
  have hm : node1.minor (0 % 64) = 1 := rfl
  have hd : node1.major = 1 := rfl
  simp [Die.nodeOk, hi, hf, hm, hd]

/-- A page operation of page 0. -/
def op1 (p : POp) (started : Bool) (hold ans rel : List Nat) : PageOp :=
  { seq := 1, page := 0, op := p, started := started, writer := none, repack := none, holdLeft := hold, answerLeft := ans, relLeft := rel, stores := [],
    entry := PgEnt.unmapped, oldRun := none, released := false, wline := none }

/-- The small block with it. -/
def smOp (o : PageOp) : State := smW fun d => { d with pmap := { d.pmap with ops := [o] } }

theorem witness_PageEventsComplete :
    ((smW fun d => { d with pmap := { d.pmap with fetch := [(7, 0)] } }).die.pmap.fetch.contains (7, 0) = true ∧
      (smW fun d => { d with pmap := { d.pmap with fetch := [(7, 0)] } }).die.hbmWaits (.pageMap 7 0) = false) ∧
    ((smOp (op1 .mark false [] [] [])).runs = true ∧ (smOp (op1 .mark false [] [] [])).die.runningOp 0 = none ∧ (smOp (op1 .mark false [] [] [])).die.frontOp 0 = some (op1 .mark false [] [] [])) ∧
    (smOp (op1 (.wb 0x200000000000 1 5 0 0) false [] [] [])).die.frontOp 0 = some (op1 (.wb 0x200000000000 1 5 0 0) false [] [] []) ∧
    (smOp (op1 .mark true [7] [] [])).die.runningOp 0 = some (op1 .mark true [7] [] []) ∧
    ((smOp (op1 .mark true [] [0] [])).die.runningOp 0 = some (op1 .mark true [] [0] []) ∧
      (smOp (op1 .mark true [] [0] [])).die.passedBefore 0 0 = false) ∧
    (let t : Txn := { txn1 .mem with op := .wrPart, dla := 8192 * 2 ^ 30 }
     (smTxn t id).die.passedBefore (homeOf t.dla) (pageOf t.dla) = true) ∧
    (smOp (op1 .mark true [] [] [3, 4])).die.runningOp 0 = some (op1 .mark true [] [] [3, 4]) := by decide +kernel

/-- A bay of a retirement, and a retirement of index 5. -/
def rb1 (bay next : Nat) (left : List Nat) (done phys : Bool) : RetBay :=
  { bay := bay, new := 6, pre := [], reset := true, done := done, next := next, left := left, physLeft := phys }
def ret1 (p : KeySt) (erase : Bool) (bays : List RetBay) : Retire :=
  { a := 5, erase := erase, phys := false, t := 6, list := [], phase := p, acc := 0, bays := bays,
    parts := if p = .flushing then [.cache, .pendingImages, .lanes] else [], setsLeft := 0, hdr := none, cxl := none }

/-- The small block with one retirement. -/
def smRet (r : Retire) (f : Die → Die) : State := smW fun d => f { d with keys := { d.keys with rets := [r] } }

/-- A PLAIN page and a PACKED page of eight panes of one granule, at the same run. -/
def pgPlain : PgEnt := { st := .plain, move := false, acc := 0, run := 8, base := 0, panes := List.replicate 8 (0, 0) }
def pgPacked : PgEnt := { st := .packed, move := false, acc := 0, run := 1, base := 0, panes := (List.range 8).map fun j => (1, j) }

/-- The small block with page 0 of mapped bay 8192 in a tiered entry 0. -/
def smPg (e : PgEnt) (f : Die → Die) : State := smW fun d => f { d with
  tens := { d.tens with bt := [(0, { bt1 0 8192 with mode := 2 })] }, pmap := { d.pmap with ents := [(0, e)] } }

def mv1 (up : Bool) : Move := { page := 0, toPlain := up, phase := 1, newRun := none, newEnt := PgEnt.unmapped }

/-- Granule 0 stored under index 5 with a counter. -/
def withG (d : Die) : Die := { d with
  dram := [(0, { Granule.blank with kic := kicOf 5 })],
  itr := { d.itr with cc := [(nodeKey 0 0, { node := node1, dirty := true, lru := 0, group := 4, louvre := 0, con := none })] } }

theorem witness_MoverEventsComplete :
    (let s := smPg pgPlain id
     s.runs = true ∧ s.die.moverRuns = true ∧ (s.die.tieredEntry 8192).any (fun b =>
      decide (s.die.transom % 2 ^ fld (s.die.policyOf b) 28 24 = 0)) = true ∧
      s.die.tir.scans.any (fun (x : Scan) => decide (x.bay = 8192)) = false) ∧
    (let s := smPg pgPlain fun d => { d with tir := { d.tir with scans := [{ bay := 8192, next := 5, asked := false }] } }
     (s.die.tir.scans.find? (fun (x : Scan) => decide (x.bay = 8192))) = some { bay := 8192, next := 5, asked := false } ∧
      (s.die.tieredEntry 8192).any (fun b =>
        decide ((Die.scanPages b 8192 (4 * min 1 (fld (s.die.act R.tirCfg) 12 4)) s.die 5 false).2.1 < 2 ^ 18)) = true) ∧
    (let s := smPg pgPlain fun d => { d with tir := { d.tir with scans := [{ bay := 8192, next := 2 ^ 18, asked := false }] } }
     (s.die.tieredEntry 8192).any (fun b =>
        decide (2 ^ 18 ≤ (Die.scanPages b 8192 (4 * min 1 (fld (s.die.act R.tirCfg) 12 4)) s.die (2 ^ 18) false).2.1)) = true) ∧
    (let s := smPg pgPacked fun d => { d with tir := { d.tir with moves := [mv1 true] } }
     s.die.tir.moves.find? (fun (m : Move) => decide (m.page = 0) && decide (m.phase = 1)) = some (mv1 true) ∧
      (s.die.pgEntry 0).st = .packed) ∧
    (let s := smPg pgPlain fun d => { d with tir := { d.tir with moves := [mv1 false] } }
     s.die.tir.moves.find? (fun (m : Move) => decide (m.page = 0) && decide (m.phase = 1)) = some (mv1 false) ∧
      (s.die.pgEntry 0).st = .plain) ∧
    ((smOp (op1 .commit false [] [] [])).die.frontOp 0 = some (op1 .commit false [] [] []) ∧
      (smOp (op1 .commit false [] [] [])).die.runningOp 0 = none ∧ (smOp (op1 .commit false [] [] [])).die.moverRuns = true) ∧
    (let b := rb1 0 0 [128] false false
     let s := smRet (ret1 .clearing false [b]) id
     s.runs = true ∧ s.die.moverRuns = true ∧ s.die.clearingBay 5 0 false = some (ret1 .clearing false [b], b) ∧ mappedBay (bayOf 128) = false ∧
      s.die.rekeyNext 0 5 0 s.die.reach ≠ some 128 ∧ b.left.contains 128 = true ∧ s.die.reach 128 = true) ∧
    (let b := rb1 0 0 [] false false
     let s := smRet (ret1 .clearing false [b]) withG
     s.die.clearingBay 5 0 false = some (ret1 .clearing false [b], b) ∧ s.die.rekeyNext 0 5 0 s.die.reach = some 0) ∧
    (let b := rb1 8192 0 [] false false
     let s := smPg pgPacked fun d => withG { d with keys := { d.keys with rets := [ret1 .clearing false [b]] } }
     s.die.clearingBay 5 (pageBay 0) false = some (ret1 .clearing false [b], b) ∧ s.die.paneNext (pageBay 0) 5 0 = some (0 * 8 + 0) ∧
      (((s.die.setRetBay 5 { b with next := 0 * 8 + 0 + 1 }).pageOp 0 (.rekey 5 0)).frontOp 0).any
        (fun o => decide (o.op = .rekey 5 0)) = true) ∧
    (let b := rb1 0 0 [] false false
     let s := smRet (ret1 .clearing true [b]) id
     s.die.dbg.erase.contains 0 = false ∧ s.die.clearingBay 5 0 true = some (ret1 .clearing true [b], b) ∧ s.die.bayPending 0 = false ∧
      mappedBay 0 = false) ∧
    (let b := rb1 8192 0 [] false false
     let s := smRet (ret1 .clearing true [b]) id
     s.die.dbg.erase.contains 8192 = false ∧ s.die.clearingBay 5 8192 true = some (ret1 .clearing true [b], b) ∧
      s.die.bayPending 8192 = false ∧ mappedBay 8192 = true ∧ s.die.opsInBay 8192 = false) ∧
    (let b := rb1 8192 0 [] true true
     let s := smRet (ret1 .clearing true [b]) id
     s.die.clearingBay 5 8192 true = some (ret1 .clearing true [b], b)) ∧
    (let b := rb1 0 7 [] true true
     let s := smRet (ret1 .clearing true [b]) id
     s.die.clearingBay 5 0 true = some (ret1 .clearing true [b], b) ∧
      ((List.range 8).any fun i => (s.die.chan (s.die.chanOf ((0 * 2 ^ 18 + 7) * 4096 + i * 512))).excluded) = false ∧
      (s.die.pushFill 0 ((List.range 64).map fun i => (0 * 2 ^ 18 + 7) * 4096 + i * 64)).isSome = true) ∧
    (let s := smW fun d => { d with tens := { d.tens with bayOps := [{ bayOp1 .scrub with next := 2 ^ 18 - 1 }] } }
     s.die.bayOp? 0 = some { bayOp1 .scrub with next := 2 ^ 18 - 1 } ∧ s.die.pageOut (0 * 2 ^ 18 + (2 ^ 18 - 1)) = false) := by
  decide +kernel

/-- The small block with tenancy 0's log in entry 1, a plain bay. -/
def smLog (n : Node) : State :=
  let d := setAct small (R.tenLog 0) 1
  runDie { d with
    itr := { d.itr with cc := [(nodeKey 0 (nodeIdx 0 (2 ^ 30 + 0x20000000 + 511 * 64)),
      { node := n, dirty := false, lru := 0, group := 4, louvre := 0, con := none })] }
    tens := { d.tens with
    bt := [(0, bt1 0 0), (1, bt1 0 1)], logs := [{ ten := 0, mapB := true, line := 511, bits := 3 }] } }

theorem witness_RetirementEventsComplete :
    (let s := smRet (ret1 .stopped false []) id
     s.runs = true ∧ s.die.retire? 5 = some (ret1 .stopped false []) ∧ s.die.usesIndex 5 = false) ∧
    (let s := smRet (ret1 .flushing false []) id
     s.die.retire? 5 = some (ret1 .flushing false []) ∧ s.die.partClean (ret1 .flushing false []) .pendingImages = true ∧
      s.die.partClean (ret1 .flushing false []) .cache = true ∧ s.die.partClean (ret1 .flushing false []) .lanes = true) ∧
    (let s := smRet (ret1 .flushing false []) fun d => { d with hbc := { d.hbc with walk := some 4 } }
     s.die.hbc.walk = some 4 ∧ s.die.flushWaits = false ∧ (s.die.keys.rets.filter fun (r : Retire) => decide (r.phase = .flushing) && r.parts.contains .cache &&
      decide (r.setsLeft = 0)) ≠ []) ∧
    (let s := smW fun d => { d with tens := { d.tens with bayOps := [bayOp1 .drain] } }
     s.die.bayOp? 0 = some (bayOp1 .drain) ∧ s.die.bayInUse 0 = false) ∧
    (let s := smW fun d => { d with tens := { d.tens with bayOps := [bayOp1 .waitHost] } }
     (s.die.tens.bayOps.find? (fun (o : BayOp) => decide (o.phase = .waitHost) && decide (s.die.tenPort o.ten = 0) &&
      decide (s.die.taOf o.entry 0 = 0x3fffffff / 2 ^ 30 * 2 ^ 30))).isSome = true ∧
      s.die.tens.bayOps.find? (fun (o : BayOp) => decide (o.phase = .waitHost) && decide (o.entry = 0) && decide (o.until_ ≤ s.die.time)) =
        some (bayOp1 .waitHost)) ∧
    (let d := (smLog { major := 1, minors := [(63, 1)] }).die
     (d.tens.logs[0]?).isSome = true ∧ fld (d.act (R.tenLog 0)) 13 0 = 1 ∧ d.plainEntry 1 = true ∧
      d.keyRefused 0xffff 1 (d.remap (d.bt 1).dlaBay (d.bt 1).defKey).1 false (d.remap (d.bt 1).dlaBay (d.bt 1).defKey).2 true = false ∧
      (d.reads (.log 0 true 511) [2 ^ 30 + 0x20000000 + 511 * 64] d.moverCharge).1 = none) ∧
    (let d := (smLog Node.zero).die
     let r := d.reads (.log 0 true 511) [2 ^ 30 + 0x20000000 + 511 * 64] d.moverCharge
     (d.tens.logs[0]?).isSome = true ∧ fld (d.act (R.tenLog 0)) 13 0 = 1 ∧ d.plainEntry 1 = true ∧ r.1.isSome = true ∧
      r.2.lineFree (2 ^ 30 + 0x20000000 + 511 * 64) = true ∧ r.2.laneFull (r.2.chanOf (2 ^ 30 + 0x20000000 + 511 * 64)) = false) := by
  decide +kernel

/-- Job queue 3 of tenancy 0 enabled with a ring of 16 at TA 0, its doorbell at 1. -/
def smQueue (j : JobQ) : State :=
  smW fun d => [(R.cjeQcfg 3, 2 ^ 31 + 2 ^ 28 + 4 * 2 ^ 24), (R.cjeQkey 3, 5), (R.cjeQsq 3, 0)].foldl (fun d x => setAct d x.1 x.2)
    { d.regW (R.cjeDb 3) 1 with jobs := [(3, j)] }

/-- A job's result. -/
def res1 : JobRes := { status := 0, inBytes := 0, outBytes := 0, bufs := 0, crc := 0, frameCheck := 0, stream := Stream.init }

theorem witness_JobEventsComplete :
    (let s := smQueue { JobQ.init with st := 1 }
     s.runs = true ∧ s.die.engineRuns = true ∧ s.die.nextQueue = some 3 ∧ fld (s.die.act (R.cjeQkey 3)) 11 0 = 5 ∧
      s.die.jobKeyOk (s.die.jobTen 3) 5 = true ∧ s.die.live? 5 = true ∧
      (match ({ s.die with jobTurn := 3 }.setJob 3 { (s.die.job 3) with job := some job1 }).jobTxns 3 5 .rd
          [((s.die.act (R.cjeQsq 3)).toNat * 4096 + 64 * (s.die.job 3).head, 0, 0)] with
        | .ok _ => true | .error _ => false) = true) ∧
    (let j : Job := { job1 with got := [(0, some 9)] }
     let s := smQueue { JobQ.init with st := 1, job := some j }
     (s.die.job 3).job = some j ∧ s.die.jobBusy 3 = false ∧ j.rerun = false ∧ j.phase = .fetch ∧ j.desc = [] ∧ j.got = (0, some 9) :: []) ∧
    (let j : Job := { job1 with phase := .read }
     let s := smQueue { JobQ.init with st := 1, job := some j }
     (s.die.job 3).job = some j ∧ s.die.jobBusy 3 = false) ∧
    (let j : Job := { job1 with phase := .write, res := some res1 }
     let s := smQueue { JobQ.init with st := 1, job := some j }
     (s.die.job 3).job = some j ∧ s.die.jobBusy 3 = false ∧ j.wfail = false) ∧
    (let j : Job := { job1 with phase := .record, res := some res1 }
     let s := smQueue { JobQ.init with st := 1, job := some j }
     (s.die.job 3).job = some j ∧ s.die.jobBusy 3 = false) := by decide +kernel

theorem witness_WorldEventsComplete :
    (let s := smW fun d => d.regW R.mulWorld (BitVec.ofNat 32 (2 ^ 27))
     s.runs = true ∧ s.die.active.coreRuns 3 = true ∧ (s.die.active.core 3).secure = false ∧ entryPoint 0xf80 = true ∧
      bit (s.die.active.regR R.mulWorld) (24 + 3) = true) ∧
    (let s := smW fun d => d.setCore 0 { Core.init with secure := true }
     s.die.active.coreRuns 0 = true ∧ (s.die.active.core 0).secure = true) ∧
    (let s := smW fun d => { d.setCore 0 { Core.init with secure := true } with dbg := { (d.setCore 0 { Core.init with secure := true }).dbg with ni := true } }
     (s.die.core 0).halted = false ∧ s.die.dbg.ni = true ∧ (s.die.core 0).secure = true ∧ (s.die.core 3).secure = false) ∧
    (let s := smW fun d => { d.regW R.dbgBind (BitVec.ofNat 32 (2 ^ 31)) with dbg := { d.dbg with ni := true } }
     s.runs = true ∧ fld (s.die.regR R.dbgBind) 9 0 = 0 ∧ bit (s.die.regR R.dbgBind) 31 = true ∧ s.die.dbg.ni = true ∧
      (s.die.ten 0).st ≠ .free ∧ s.die.entryOf 0 0x3fffffff = some 0 ∧ (s.die.bt 0).st = .live ∧
      s.die.keyRefused 0 0 (s.die.remap (s.die.bt 0).dlaBay (s.die.bt 0).defKey).1 false
        (s.die.remap (s.die.bt 0).dlaBay (s.die.bt 0).defKey).2 true = false) ∧
    (let s := smP .fcx fun d => { d.regW R.dbgBind (BitVec.ofNat 32 (2 ^ 31)) with
       dbg := { d.dbg with ni := true }, keys := { d.keys with allowed := [(0, [5])] } }
     s.die.portFcx (s.die.tenPort 0) = true ∧ s.die.keyRefused 0 0 (s.die.remap (s.die.bt 0).dlaBay 5).1 true
        (s.die.remap (s.die.bt 0).dlaBay 5).2 true = false) := by decide +kernel

/-- Core 0 with its caches' lines, in a world; no secure SRAM. -/
def smCore (secure : Bool) (lines : List (Nat × Bool)) : State :=
  smW fun d => (d.regW R.mulWorld (BitVec.ofNat 32 (2 ^ 24))).setCore 0 { Core.init with secure := secure, lines := lines }

theorem witness_CoreFetchesStayInTheirWorld :
    ((smCore false []).runs = true ∧ (smCore false []).die.active.coreRuns 0 = true ∧
      ((smCore false []).die.active.core 0).secure = false ∧ entryPoint 0xfffff = false ∧ entryPoint 0x100000 = false) ∧
    ((smCore false [(0x100000 / 64, false)]).die.active.core 0).hits 0x100000 = true ∧
    (((smCore false [(0x100000 / 64, true)]).die.active.core 0).hits 0x100000 = false ∧
      (smCore false []).die.active.secureCode 0x100000 = false) ∧
    (((smCore false []).die.active.core 0).hits 0xfffff = false ∧ (smCore false []).die.active.secureCode 0xfffff = true) ∧
    ((smCore true []).die.active.coreRuns 0 = true ∧ ((smCore true []).die.active.core 0).secure = true) ∧
    ((smCore true [(0xfffff / 64, false)]).die.active.core 0).hits 0xfffff = true ∧
    (((smCore true []).die.active.core 0).hits 0xfffff = false ∧ (smCore true []).die.active.secureCode 0xfffff = true) ∧
    (((smCore true []).die.active.core 0).hits 0x100000 = false ∧ (smCore true []).die.active.secureCode 0x100000 = false) ∧
    0xfffff / 64 = 0xfffc0 / 64 := by decide +kernel


theorem witness_PortEventsComplete :
    ((smP .sld id).runs = true ∧ ((smP .sld id).die.port 0).perst = false ∧ ((smP .sld id).die.port 0).linkUp = true ∧
      bit ((smP .sld id).die.portCfg 0) 0 = true) ∧
    (sm.die.port 5).perst = true ∧
    ((smW fun d => { d with ports := [(5, { Port.init with perst := false, training := true })] }).die.port 5).training = true ∧
    (((smW fun d => { d with ports := [(5, { upP .sld with ideMem := 1 })] }).die.port 5).ideMem ≠ 0 ∧
      ((smW fun d => { d with ports := [(5, { upP .sld with ideMem := 1 })] }).die.port 5).linkUp = true) := by decide +kernel

/-- The small block in a power state, at time 2000, with wake sources 10, 11 and 15 enabled. -/
def smPwr (st : PwrSt) (f : Pwr → Pwr) : State :=
  smW fun d => { d with time := 2000, pwr := f { d.pwr with st := st, wakeMask := 0x8c00, sleepStart := 100 } }

theorem witness_PowerEventsComplete :
    (let s := smPwr .run fun p => { p with settling := true, inflight := some { code := 4, mask := 0 } }
     s.runs = true ∧ s.die.pwr.settling = true ∧ s.die.pwr.inflight = some { code := 4, mask := 0 }) ∧
    ((smPwr (.sl1 false) id).runs = true ∧ (smPwr (.sl1 false) id).die.idle = true) ∧
    ((smPwr .sl2Entry id).runs = true ∧ ((((smPwr .sl2Entry id).die.abandonMoves fun _ => true).dropMoverOps).quietForSleep) = true) ∧
    ((smPwr (.sl3Entry 5) id).runs = true ∧ (smPwr (.sl3Entry 5) id).die.pwr.st = .sl3Entry 5) ∧
    ((smPwr .sl2 id).ohm.released = true ∧ (smPwr .sl2 id).die.boot.hold = false ∧ (smPwr .sl2 id).die.pwr.wakeMask.testBit 15 = true ∧
      (smPwr .sl3 id).die.pwr.wakeMask.testBit 15 = true) ∧
    (let s := runDie (((smPwr .sl2 id).die.regW R.pwrWakeTimeHi 0).regW R.pwrWakeTimeLo 1500)
     s.die.wakeTime ≤ s.die.time ∧ s.die.pwr.sleepStart < s.die.wakeTime ∧ s.die.pwr.wakeMask.testBit 10 = true) ∧
    ((smPwr .sl2Exit id).runs = true ∧ (smPwr .sl3Exit id).runs = true) := by decide +kernel

/-- A reading of a cool DIMM, and a failed one. -/
def read1 (ok : Bool) : DimmReading :=
  { ok := ok, present := ok, negative := false, temp := 40, power := 30, highTemp := false, critical := false }

/-- The small block with telemetry on in entry 0, period 2^10, at the last transom before a snapshot. -/
def smTel (dump : Option DumpRec) : State :=
  smW fun d => { setAct d R.pmuTelCfg (2 ^ 31 + 10 * 2 ^ 16) with time := 1023 * 50, pmu := { d.pmu with dump := dump } }

theorem witness_SensorAndTelemetryEventsComplete :
    (let s := sm
     let d1 := s.die.readGood 31 (read1 true)
     s.runs = true ∧ ((d1.setChan 15 { (d1.chan 15) with levelNext := d1.levelAfter 15 }).dimm 31).crit < 2 ∧
      (read1 true).critical = false ∧ (read1 false).ok = false) ∧
    ((smPwr .sl2 id).ohm.released = true ∧ (smPwr .sl2 id).die.boot.hold = false ∧ (smPwr .sl2 id).die.pwr.wakeMask.testBit 11 = true) ∧
    (sm.die.flt.sensorsOut.contains 0 = false ∧ (40 : Int) < Int.ofNat (fld (sm.die.act R.pwrTherm) 15 8) ∧
      (40 : Int) < Int.ofNat (fld (sm.die.act R.pwrTherm) 23 16)) ∧
    ((smTel none).runs = true ∧ (smTel none).die.telOn = true ∧ (smTel none).die.pwr.st.code < 2 ∧
      ((smTel none).die.transom + 1) % 2 ^ (smTel none).die.telPeriod = 0 ∧ (smTel none).die.pmu.snapped ≠ (smTel none).die.transom + 1) ∧
    (let r : DumpRec := { slot := 1, gap := false, failed := false }
     (smTel (some r)).runs = true ∧ (smTel (some r)).die.pmu.dump = some r ∧
      (smTel (some r)).die.txns.any (fun (t : Txn) => decide (t.master = 11) && decide (t.tag = 1)) = false) ∧
    (let s := smW fun d => setAct d (R.pmuSel 511) 1
     s.die.counting = true ∧ s.die.pmuChained 511 = false ∧ fld (s.die.act (R.pmuSel 511)) 11 0 ≠ 0 ∧
      2 ^ 48 ≤ s.die.pmuVal 511 + 2 ^ 48) ∧
    sm.ohm.released = true := by decide +kernel

theorem witness_DetectionEventsComplete :
    (sm.runs = true ∧ unitOk 0xf8 = true ∧ unitOk 0x10 = true) ∧ (detects 0x60 0x50 = true ∧ detects 0xac 0x51 = true ∧ detects 0xb1 0x52 = true) ∧
    (detects 0xf8 0x30 = true ∧ detects 0xa8 0x66 = true) ∧ detects 0x2f 0x10 = true ∧
    (epochIndex 0xab = some 41 ∧ 15 % 16 ≠ sm.die.unitEpoch 0xab) := by decide +kernel

/-- A test, and the small block with a fault side. -/
def test1 (kind unit row : Nat) (running : Bool) : Test :=
  { kind := kind, unit := unit, row := row, seq := 4, forced := false, running := running, queued := 0 }
def smFlt (f : Flt → Flt) : State := smW fun d => { d with time := 200000, flt := f d.flt }

/-- An injected fatal record. -/
def rec1 : Rec :=
  { unit := 0x60, code := 0x50, cls := 2, injected := true, consequential := false, ovf := false, tested := false, lasting := false,
    master := 0xff, ten := 0xffff, time := 0, addr := 0, syndrome := 0, seq := 1, epoch := 0 }

theorem witness_SelfTestEventsComplete :
    ((smFlt fun f => { f with tests := [test1 2 (unitDimm 15 1) 77 true] }).die.flt.tests.find? (fun (x : Test) =>
      x.running && decide (x.kind = 2) && decide (x.unit = unitDimm 15 1) && decide (x.row = 77)) = some (test1 2 (unitDimm 15 1) 77 true)) ∧
    ((smW fun d => { d with chans := [(15, { Chan.init 15 with spare := 2 })] }).die.chan 15).spare = 2 ∧
    ((smFlt fun f => { f with tests := [test1 3 0x8b testAfter true] }).die.flt.tests.find? (fun (x : Test) =>
      x.running && decide (x.kind = 3) && decide (x.unit = 0x8b)) = some (test1 3 0x8b testAfter true)) ∧
    (let s := smFlt fun f => { f with tests := [test1 3 0x78 testAfter false] }
     (s.die.flt.tests.filter fun (x : Test) => !x.running).find? (fun (x : Test) => decide (x.seq = 4)) = some (test1 3 0x78 testAfter false) ∧
      (test1 3 0x78 testAfter false).queued + 100000 ≤ s.die.time) ∧
    (let s := smFlt fun f => { f with quarantine := [0x78] }
     s.runs = true ∧ s.die.flt.quarantine.contains 0x78 = true ∧ s.die.flt.stuDisabled = false ∧
      s.die.flt.tests.any (fun (x : Test) => decide (x.kind = 3) && decide (x.unit = 0x78)) = false) ∧
    (∀ x : Shadow, x ∈ (smFlt fun f => { f with shadows := [{ unit := 3, ends := some 200000 }] }).die.flt.shadows →
      x.unit = 3 → ∃ t, x.ends = some t ∧ t ≤ 200000) ∧
    (let s := smFlt fun f => { f with doorstop := true, causeCode := 0x50 }
     s.runs = true ∧ s.die.flt.doorstop = true ∧ s.die.flt.causeCode ≠ 0x55 ∧ s.die.lane.isEmpty = true ∧ s.die.wq.isEmpty = true) ∧
    (let s := smFlt fun f => { f with subst := [(0x9f, 0xa1, 15)] }
     s.die.flt.subst.find? (fun (x : Nat × Nat × Nat) => decide (x.1 = 0x9f)) = some (0x9f, 0xa1, 15)) ∧
    (let s := smFlt fun f => { f with injWait := some rec1, injOpen := [(0x60, 200000)] }
     s.die.flt.injWait = some rec1 ∧ (s.die.flt.injOpen.filter fun (x : Nat × Nat) => decide (s.die.time < x.2)).any
      (fun (x : Nat × Nat) => decide (x.1 = rec1.unit)) = false) := by
  refine ⟨?_, ?_, ?_, ?_, ?_, ?_, ?_, ?_, ?_⟩
  · decide +kernel
  · decide +kernel
  · decide +kernel
  · decide +kernel
  · decide +kernel
  · intro x hx _
    have h : (smFlt fun f => { f with shadows := [{ unit := 3, ends := some 200000 }] }).die.flt.shadows =
      [{ unit := 3, ends := some 200000 }] := rfl
    rw [h, List.mem_singleton] at hx
    exact ⟨200000, by rw [hx], Nat.le_refl _⟩
  · decide +kernel
  · decide +kernel
  · decide +kernel

/-- A block in start-up step `k`. -/
def smStart (k : Nat) : State := { sm with die := { sm.die with boot := { sm.die.boot with done := false, step := k } } }

/-- A frame of a good Ohmoux without events. -/
def frame1 : Frame := { Ohm.init with st := .good, powered := true }.frame

theorem witness_StartupEventsComplete :
    ((smStart 2).runs = true ∧ (smStart 2).die.starting = true ∧ (smStart 2).die.boot.fatal = none ∧ (smStart 2).die.boot.step = 2) ∧
    ((smStart 3).die.starting = true ∧ (smStart 14).die.starting = true ∧ (smStart 15).die.starting = true ∧ (smStart 15).runs = true) ∧
    (let s := { sm with link := [frame1] }
     s.ohm.released = true ∧ s.die.boot.hold = false ∧ s.link = frame1 :: [] ∧ frame1.st = .good ∧ frame1.events = 0) ∧
    (let s := { sm with ohm := { sm.ohm with leaving := true } }
     s.runs = true ∧ s.ohm.leaving = true) := by decide +kernel

/-- The block with an Ohmoux die in a state. -/
def ohmIn (st : OhmSt) : State :=
  { State.reset with ohm := { Ohm.init with st := st, powered := true, vbusOk := true, prsnt := true, debounced := true, vbus := 12000 } }

theorem witness_OhmouxInputEventsComplete :
    State.reset.ohm.powered = false ∧ ((ohmIn .waitPresent).ohm.powered = true ∧ (ohmIn .waitPresent).ohm.st ≠ .fetShort) ∧
    (ohmIn .holdOff).ohm.st = .holdOff := by decide

theorem witness_PresenceEventsComplete :
    (ohmIn .waitPresent).ohm.powered = true ∧ ({ (ohmIn .good) with ohm := { (ohmIn .good).ohm with leaving := true } }).ohm.leaving = true ∧
    (({ (ohmIn .latched) with ohm := { (ohmIn .latched).ohm with prsnt := false } }).ohm.st = .latched ∧
      ({ (ohmIn .latched) with ohm := { (ohmIn .latched).ohm with prsnt := false } }).ohm.prsnt = false) := by decide

/-- A RAMP_TIMEOUT and a FAST trip in one cycle of a ramp: the record takes FAST, as R447 orders them. -/
theorem witness_OhmouxTripsComplete :
    (tripRow .rampTimeout).any (fun x => decide (x.1 = 3) && x.2 .ramp 0 0 && !x.2 .good 255 255) = true ∧
    (tripRow (.pgLost 7)).any (fun x => decide (x.1 = 5) && x.2 .good 255 255 && !x.2 .seq 255 127) = true ∧
    (ohmIn .ramp).ohm.tripNow = none ∧
    (let s := { (ohmIn .cooldown) with ohm := { (ohmIn .cooldown).ohm with
       tripNow := some { cause := 3, st := .ramp, seqEn := 0, pg := 0 }, record := { EntryRec.init with cause := 3 } } }
     (tripRow .fastTrip).any (fun x => decide (x.1 = 1) && !x.2 s.ohm.st s.ohm.seqEn s.ohm.pg && x.2 .ramp 0 0) = true ∧
      (match exec .fastTrip s with | .next t => decide (t.ohm.record.cause = 1) | _ => false) = true) := by decide +kernel

theorem witness_OhmouxAttemptsComplete :
    ((ohmIn .ramp).ohm.st = .ramp ∧ (ohmIn .ramp).ohm.vbus ≤ 11500 + 500) ∧ ((ohmIn .seq).ohm.st = .seq ∧ (ohmIn .seq).ohm.seqEn < 255) ∧
    (({ (ohmIn .seq) with ohm := { (ohmIn .seq).ohm with seqEn := 255 } }).ohm.st = .seq ∧
      ({ (ohmIn .seq) with ohm := { (ohmIn .seq).ohm with seqEn := 255 } }).ohm.seqEn = 255) ∧
    ((ohmIn .good).ohm.st = .good ∧ (ohmIn .good).ohm.leaving = false) ∧ (ohmIn .cooldown).ohm.st = .cooldown ∧
    ((ohmIn .waitPresent).ohm.powered = true ∧ (ohmIn .waitPresent).ohm.gate = false ∧ 1000 < 1001) ∧
    ((ohmIn .fetShort).ohm.st = .fetShort ∧ (ohmIn .fetShort).ohm.killN = false) := by decide

theorem witness_OhmouxReportsComplete :
    ((ohmIn .good).ohm.powered = true ∧ ({ (ohmIn .good) with ohm := { (ohmIn .good).ohm with released := true } }).ohm.released = true) ∧
    (∀ l : Last, (ohmIn .latched).ohm.last = some l → ¬(l.seq = 4 ∧ l.opcode = 0x0804)) ∧
    (∀ l : Last, (ohmIn .latched).ohm.last = some l → ¬(l.seq = 4 ∧ l.opcode = 0x0803)) := by
  refine ⟨by decide, ?_, ?_⟩ <;> (intro l h; cases h)

/-! ## Witnesses: the machine -/

/-- A block whose Ohmoux die is good and released. -/
def ohmGood : State := { (ohmIn .good) with ohm := { (ohmIn .good).ohm with released := true, gate := true, entry := true, fltN := false } }

theorem witness_EveryPacketIsCheckedFirst :
    packetRow (.capQuery (hdr 4)) = some ⟨hdr 4, 0x0405, [.f, .k, .s], 0⟩ ∧ sm.runs = true ∧
    (sm.die.active.take (hdr 4) 0x0405).any (fun d0 => !d0.isRepeat (hdr 4) 0x0405 && decide
      ((d0.keepLast (endpOf (hdr 4).via) { seq := 1, opcode := 0x0405, reply := none }).hdrCheck (hdr 4) 0x0405 [.f, .k, .s] 0 false =
        some (St.badLength, 8))) = true := by decide +kernel

theorem witness_PacketsRefusedBeforeStartAndInDoorstop :
    packetRow (.capQuery (hdr 0)) = some ⟨hdr 0, 0x0405, [.f, .k, .s], 0⟩ ∧
    ((smStart 7).runs = true ∧ ((smStart 7).die.active.take (hdr 0) 0x0405).any (fun d0 =>
      !d0.isRepeat (hdr 0) 0x0405 && !d0.boot.done) = true) ∧
    ((smFlt fun f => { f with doorstop := true }).runs = true ∧ ((smFlt fun f => { f with doorstop := true }).die.active.take (hdr 0) 0x0405).any
      (fun d0 => !d0.isRepeat (hdr 0) 0x0405 && d0.boot.done && !d0.boot.hold && d0.flt.doorstop && cxlMatches (hdr 0) 0x0405) = true) := by
  decide +kernel

theorem witness_RepeatedPacketsAreReplayed :
    packetRow (.capQuery (hdr 0)) = some ⟨hdr 0, 0x0405, [.f, .k, .s], 0⟩ ∧ offRing (hdr 0).via = true ∧
    (let s := smW fun d => d.keepLast (.mctp 9) { seq := 1, opcode := 0x0405, reply := none }
     s.runs = true ∧ (s.die.active.take (hdr 0) 0x0405).map (·.lastOf (endpOf (hdr 0).via)) =
       some (some { seq := 1, opcode := 0x0405, reply := none })) := by decide +kernel

theorem witness_RepliesGoOutAndAreKept :
    offRing (hdr 0).via = true ∧ paySize [(4, 7)] ≤ payMax (hdr 0).via ∧
    (small.keepLast (.mctp 9) { seq := 1, opcode := 0x0405, reply := none }).lastOf (endpOf (hdr 0).via) =
      some { seq := 1, opcode := 0x0405, reply := none } ∧ Endp.steward 0 ≠ endpOf (hdr 0).via := by decide +kernel

theorem witness_StepRunsOldestCommand :
    ({ sm with pending := [.ohmLinkLost, .seqEnable] }).pending = .ohmLinkLost :: [.seqEnable] ∧ State.reset.pending = [] := by decide

theorem witness_CommandsLeaveTheQueue :
    (match exec .seqEnable State.reset with | .next t => decide (t = State.reset) | _ => false) = true := by decide +kernel

theorem witness_RepliesAndCommitsLeaveMemory : offRing (hdr 0).via = true := by decide

theorem witness_MainDieInResetIgnoresCommands :
    State.reset.ohm.released = false ∧ ofOhmoux .ohmLinkLost = false ∧ ofPerst .ohmLinkLost = false ∧ ofLink .ohmLinkLost = false := by decide

theorem witness_MainDieCommandsLeaveOhmoux :
    ofOhmoux .ohmLinkLost = false ∧ ofLink .ohmLinkLost = false ∧
    (match exec .ohmLinkLost State.reset with | .next t => decide (t = State.reset) | _ => false) = true := by decide +kernel

theorem witness_SealedGranuleOpens : 127 ≠ 0 ∧ Ecc.corrected ≠ .uncorrectable := by decide

theorem witness_EveryStepKeepsSupplyLegal :
    let s := { State.reset with pending := [.vbusRise 12000 { trip := 7, soa := 7, retry := 7, cool := 7 } none] }
    s.supplyLegal = true ∧ (match step s with | .next t => decide (t.ohm.st = .waitPresent) | _ => false) = true := by decide +kernel

theorem witness_MainDieReleasedBySequenceOnly :
    let s := { (ohmIn .seq) with ohm := { (ohmIn .seq).ohm with seqEn := 255 } }
    s.ohm.released = false ∧ (match exec .mainDieRelease s with | .next t => t.ohm.released | _ => false) = true := by decide +kernel

theorem witness_EntryRecordWrittenAtItsMomentsOnly :
    (match exec .fastTrip (ohmIn .good) with | .next t => decide (t.ohm.record ≠ (ohmIn .good).ohm.record) | _ => false) = true := by
  decide +kernel

theorem witness_LatchOffEndsByItsTwoWaysOnly :
    let s := { (ohmIn .latched) with
      ohm := { (ohmIn .latched).ohm with record := { EntryRec.init with rstate := .latched, retries := 3 }, prsnt := false } }
    s.ohm.st = .latched ∧ s.ohm.record.rstate = .latched ∧
      (match exec .presenceCycle s with | .next t => decide (t.ohm.record.rstate = .clear) | _ => false) = true ∧
      (match exec (.standbyOhmClear 4) s with | .next t => decide (t.ohm.record.rstate = .clear) | _ => false) = true := by decide +kernel

theorem witness_GoodRunClearsRetries :
    ohmGood.ohm.st = .good ∧ ohmGood.ohm.leaving = false ∧ ohmGood.ohm.released = true := by decide

theorem witness_SecureWindowRefusesTheNormalWorld :
    sm.window srcFw = true ∧ inSecureWindow R.dblStat = true ∧ R.dblStat % 4 = 0 ∧ srcSecure srcFw = false := by decide +kernel

theorem witness_GoHoldsStagedFields :
    let s := smW fun d => d.commit .lvr none []
    s.runs = true ∧ s.die.mayWrite srcFw = true ∧ (regRow (R.lvrTarget 255)).any (fun row => decide (row.acc = .rws)) = true ∧
    groupOfReg (R.lvrTarget 255) = some .lvr ∧ R.lvrTarget 255 % 4 = 0 ∧ R.lvrTarget 255 < 0x1000000 ∧
    inSecureWindow (R.lvrTarget 255) = false ∧ (s.die.regWake (R.lvrTarget 255)).going .lvr = true ∧
    (s.die.regWake (Group.commitReg .lvr)).going .lvr = true := by decide +kernel

theorem witness_UnwrittenGranuleReadsZeros :
    let s := smTxn (txn1 .mem) id
    s.runs = true ∧ s.die.txn? 8 = some (txn1 .mem) ∧ s.die.expects (txn1 .mem) 0 = true ∧ s.die.itr.isLost 0 = false ∧
    s.die.bufferedBefore 0 (txn1 .mem).seq = none ∧ (txn1 .mem).ks = [] ∧ s.die.itr.counter 0 = some (0, 0) := by decide +kernel

/-- A queued write of granule 0, and the transfer that issues it. -/
def wq1 : WqEnt := { seq := 1, dga := 0, g := { Granule.blank with data := 7 } }
def xfer1 : Xfer :=
  { seq := 2, ch := 0, write := true, dga := 0, txn := none, own := none, line := none, wop := none, group := 4, deadline := 0, louvre := 0,
    since := 0, age := 0, slotCls := 4, con := none }

theorem witness_StoresReachTheirGranuleOnly :
    let d : Die := { small with wq := [wq1] }
    Tbl.wf Granule.blank d.dram = true ∧ xfer1.write = true ∧ d.wq.find? (fun w => decide (w.dga = xfer1.dga)) = some wq1 ∧
    ({ xfer1 with write := false }).write = false := by decide +kernel

theorem witness_WrappingCounterSetsItsOverflow :
    let s := smW fun d => { setAct d (R.pmuSel 511) 1 with pmu := { d.pmu with ctr := [(511, 2 ^ 48 - 1)] } }
    s.runs = true ∧ s.die.counting = true ∧ s.die.pmuChained 511 = false ∧ fld (s.die.act (R.pmuSel 511)) 11 0 ≠ 0 ∧
    Tbl.wf 0 s.die.pmu.ctr = true ∧ 2 ^ 48 ≤ Tbl.get 0 s.die.pmu.ctr 511 + 1 := by decide +kernel

theorem witness_LouvreStepCountsThresholds :
    let d : Die := { setAct small (R.lvrTarget 255) 3 with lv := [(255, { Lv.init with e := 40 })] }
    255 < 256 ∧ Tbl.wf Lv.init d.lv = true ∧ fld (d.act (R.lvrTarget 255)) 15 0 * 10 ≠ 0 ∧
    fld (small.act (R.lvrTarget 255)) 15 0 * 10 = 0 := by decide +kernel

/-! ## Steps and figures of the spec's worked examples -/

/-- The sample pane of 08: LEN 1, the granule's 15 bytes; and back. -/
def pane1 : List Nat :=
  [0x57, 0x49, 0x4E, 0x2D, 0x30, 0x30, 0x34, 0x32] ++ List.replicate 64 0 ++ [0x57, 0x49, 0x4E, 0x2D, 0x30, 0x30, 0x34, 0x33] ++
    List.replicate 432 0
def granule1 : List Nat :=
  [0xAE, 0x24, 0x71, 0xD2, 0x02, 0x06, 0x0C, 0x1A, 0x32, 0x3B, 0xA2, 0x23, 0x66, 0x56, 0x03] ++ List.replicate 49 0
theorem test_pane_decodes : decodePane 1 [lineOf granule1] = some (toLines pane1) := by decide +kernel

/-- R319: "123456789" gives 0xE306_9283. -/
theorem test_crc32c : crc32c [0x31, 0x32, 0x33, 0x34, 0x35, 0x36, 0x37, 0x38, 0x39] = 0xE3069283 := by decide +kernel

/-- The placement example of 08. -/
theorem test_first_fit : firstFit [1, 3, 0, 8, 2, 2, 5, 1] = [(1, 0), (3, 1), (0, 0), (8, 8), (2, 4), (2, 6), (5, 16), (1, 21)] := by
  decide +kernel

/-- The admission example of 03: shares of 75 and 150 transfers. -/
theorem test_shares : shareOf 240 60 2 1 8 = 75 ∧ shareOf 240 60 4 1 8 = 150 := by decide

/-- The re-key example of 07. -/
theorem test_kic : kicOf 0x5A3 = 0xF6 ∧ kicOf 0x2C1 = 0xE3 := by decide

/-- Window offsets of the example of 18. -/
theorem test_offsets : R.chaEvent 5 = 0x150000 ∧ R.hptFcxsts 3 = 0x40108 ∧ R.lvrTarget 200 + mirrorGap (R.lvrTarget 200) = 0xA9C84 ∧
    inSecureWindow 0xF24028 = true := by decide +kernel

/-- The louvre example of 04: thresholds at TARGET 2,000 ns. -/
theorem test_louvre_steps : [1200, 1375, 1539, 1692, 1836, 1971, 2097, 2059].map (fun e => stepOf e 2000) = [1, 2, 3, 3, 4, 4, 5, 5] := by
  decide

/-- The hard cases of 13: a fast trip on the ramp leaves RETRIES 1 and COOLDOWN, a fourth trip latches. -/
theorem test_fast_trip : (match exec .fastTrip (ohmIn .ramp) with
    | .next t => decide (t.ohm.st = .cooldown) && decide (t.ohm.record.retries = 1) && decide (t.ohm.cdh = 2500)
    | _ => false) = true := by decide +kernel
theorem test_fourth_trip_latches : (match exec .soaTrip
      { (ohmIn .good) with ohm := { (ohmIn .good).ohm with record := { EntryRec.init with retries := 3 } } } with
    | .next t => decide (t.ohm.st = .latched) && decide (t.ohm.record.rstate = .latched) && decide (t.ohm.record.retries = 3)
    | _ => false) = true := by decide +kernel

/-- The cool-down of 13: 1.760 V waits, 1.516 V starts the attempt. -/
theorem test_cooldown : (match exec (.presenceDebounced 1760) (ohmIn .cooldown), exec (.cooldownEnd 1516) (ohmIn .cooldown) with
    | .next t, .next u => decide (t.ohm.st = .cooldown) && decide (u.ohm.st = .ramp)
    | _, _ => false) = true := by decide +kernel

/-- The integrity example of 06: slot and indices of a granule's nodes. -/
theorem test_node_indices : nodeIdx 0 0x123456789C0 = 0x12345678 ∧ slotIn 0x123456789C0 = 39 ∧ nodeIdx 1 0x123456789C0 = 0x48D159 ∧
    nodeIdx 2 0x123456789C0 = 0x12345 ∧ nodeIdx 3 0x123456789C0 = 1165 ∧ nodeIdx 4 0x123456789C0 = 18 := by decide

/-- The codes of R580: none before step 1, then 20, 14, 8, 2 for PL0 to PL3. -/
theorem test_core_vid : State.reset.die.coreVid = none ∧
    ([0, 1, 2, 3].map fun l => ((smW fun d => { d with pwr := { d.pwr with volt := l } }).die.coreVid).map coreMv) =
      [some 800, some 740, some 680, some 620] := by decide +kernel

/-- The SHA-384 of "abc" of FIPS 180-4, which R405 names. -/
theorem test_sha384 : (sha384 [0x61, 0x62, 0x63]).take 8 = [0xcb, 0x00, 0x75, 0x3f, 0x45, 0xa3, 0x5e, 0x8b] := by decide +kernel

end
end

section
/-! Register and configuration accesses complete (O15): one rule per operation on the main die, one lemma per row of the
statement, and the statement assembled from them. -/

namespace Sys2Proof.Machine

/-! ## Rules of the main die's operations -/

/-- A configuration request the function takes after start-up runs its own body on the awake die (R38, R39). -/
theorem onLive_config_takesConfig {s : State} {p ld : Nat} (h : s.takesConfig p ld = true) (f : Die → Die) :
    onLive s (fun d => d.config p ld f) = .next (s.withDie (f s.die.active)) := by
  simp only [State.takesConfig, Bool.and_eq_true, Bool.or_eq_true, decide_eq_true_eq] at h
  obtain ⟨⟨hruns, hfun⟩, hboot⟩ := h
  have hstarted : ¬(s.die.boot.step < 15 ∧ (!s.die.boot.done) = true) := by
    rintro ⟨hlt, hdone⟩
    rcases hboot with hge | hd
    · omega
    · simp only [hd, Bool.not_true, Bool.false_eq_true] at hdone
  rw [onLive_runs hruns, Die.config, hfun, if_neg (by decide), if_neg hstarted]
  rfl

theorem Die.writeReg_size4 {o : Nat} (h : o % 4 = 0) (d : Die) (src : Src) (secure : Bool) (v : Nat) :
    d.writeReg src secure o 4 v = d.write4 src secure o (v % 2 ^ 32) :=
  if_pos ⟨rfl, h⟩

theorem Die.writeReg_size8 {o : Nat} (h : o % 8 = 0) (d : Die) (src : Src) (secure : Bool) (v : Nat) :
    d.writeReg src secure o 8 v = (d.write4 src secure o (word v 0)).write4 src secure (o + 4) (word v 1) := by
  rw [Die.writeReg, if_neg (fun h4 => absurd h4.1 (by decide)), if_pos ⟨rfl, h⟩]

/-- A write of any other size, or not aligned to its size, is dropped (R566). -/
theorem Die.writeReg_otherSize {o size : Nat} (h4 : ¬(size = 4 ∧ o % 4 = 0)) (h8 : ¬(size = 8 ∧ o % 8 = 0)) (d : Die) (src : Src)
    (secure : Bool) (v : Nat) :
    d.writeReg src secure o size v =
      if inSecureWindow o && !secure then d.windowDeny src o true else d.rejectWrite src o := by
  rw [Die.writeReg, if_neg h4, if_neg h8]

/-- JTAG writes the normal window under NI, and nothing where it is locked (R426, R573). -/
theorem Die.jtagAccess_write_normal {d : Die} {o : Nat} (h4 : o % 4 = 0) (hlt : o < 0x1000000) (hwin : inSecureWindow o = false)
    (hni : d.dbg.ni = true) (sec : Bool) (v : Nat) :
    d.jtagAccess o sec true v =
      if Config.jtagLock then d
      else (d.regWake o).write4 (jtagSrc (sec && d.dbg.si)) (sec && d.dbg.si) o (v % 2 ^ 32) := by
  have hin : ¬0x1000000 ≤ o := Nat.not_le.mpr hlt
  cases hlock : Config.jtagLock with
  | true => simp only [Die.jtagAccess, hlock, ne_eq, true_or, ↓reduceIte]
  | false =>
    simp only [Die.jtagAccess, hlock, h4, hlt, hin, hwin, hni, Bool.false_eq_true, ne_eq, not_true_eq_false, or_self, ↓reduceIte,
      Bool.not_false, decide_true, Bool.and_self, Bool.not_true, Bool.false_or, Nat.reducePow]

/-- JTAG reads the normal window under NP, and reads 0 where it is locked (R426, R573). -/
theorem Die.jtagAccess_read_normal {d : Die} {o : Nat} (h4 : o % 4 = 0) (hlt : o < 0x1000000) (hwin : inSecureWindow o = false)
    (hnp : d.np = true) (sec : Bool) (v : Nat) :
    d.jtagAccess o sec false v =
      if Config.jtagLock then d.emit (.dbgWord 0)
      else
        ((d.regWake o).readReg (jtagSrc (sec && d.dbg.si)) (sec && d.dbg.si) o).2.emit
          (.dbgWord ((d.regWake o).readReg (jtagSrc (sec && d.dbg.si)) (sec && d.dbg.si) o).1) := by
  have hin : ¬0x1000000 ≤ o := Nat.not_le.mpr hlt
  cases hlock : Config.jtagLock with
  | true => simp only [Die.jtagAccess, hlock, ne_eq, true_or, ↓reduceIte, Bool.false_eq_true]
  | false =>
    simp only [Die.jtagAccess, hlock, h4, hlt, hin, hwin, hnp, Bool.false_eq_true, ne_eq, not_true_eq_false, or_self, ↓reduceIte,
      Bool.not_false, decide_true, Bool.and_self, Bool.not_true, Bool.false_or]

/-- Where the four conditions of R48 hold, no LD of the port has Mem_Enable. -/
theorem Die.memEn_of_fcxRefusal_none {d : Die} {p : Nat} (h : d.fcxRefusal p = none) : (d.port p).memEn = 0 := by
  refine Decidable.byContradiction fun hne => ?_
  simp only [Die.fcxRefusal, if_pos hne] at h
  split at h
  · cases h
  · split at h
    · cases h
    · split at h <;> cases h

/-- REQUEST = 1 is granted where R48 allows it and FCX is not in force. -/
theorem Die.fcxRequest_granted {d : Die} {p : Nat} (h : d.fcxRefusal p = none) (hm : (d.port p).mode ≠ some .fcx) :
    d.fcxRequest p true = d.setPort p { d.port p with fcxReq := true, granted := true, refuse := 0 } := by
  simp only [Die.fcxRequest, h, Die.memEn_of_fcxRefusal_none h, hm, Bool.not_true, Bool.false_eq_true, ↓reduceIte, ne_eq,
    not_true_eq_false, decide_false, Bool.or_self]

/-- REQUEST = 0 takes the grant back before Mem_Enable (R49). -/
theorem Die.fcxRequest_withdrawn {d : Die} {p : Nat} (he : (d.port p).memEn = 0) (hm : (d.port p).mode ≠ some .fcx) :
    d.fcxRequest p false = d.setPort p { d.port p with fcxReq := false, granted := false } := by
  simp only [Die.fcxRequest, he, hm, Bool.not_false, ↓reduceIte, ne_eq, not_true_eq_false, decide_false, Bool.or_self,
    Bool.false_eq_true]

/-- A port at the first setting of Mem_Enable, by LD `ld`: the mode is fixed (R33, R49). -/
def Port.firstEnabled (x : Port) (ld : Nat) (mld : Bool) : Port :=
  { x with memEn := x.memEn ||| 2 ^ ld, mode := some (if x.granted then .fcx else if mld then .mld else .sld) }

theorem Die.memEnable_first {d : Die} {p ld : Nat} (hld : ld ≠ fmLd) (hm : (d.port p).mode = none) :
    d.memEnable p ld true =
      let y := (d.port p).firstEnabled ld (d.mldPort p)
      let d1 := d.setPort p y
      if y.memServes then ((d1.resume (unitHpt p)).resume (unitPhy p)).resume (0x10 + p) else d1 := by
  simp only [Die.memEnable, if_neg hld, hm]
  rfl

/-- A port without Mem_Enable serves no memory. -/
theorem Port.memServes_of_memEn_zero {x : Port} (h : x.memEn = 0) : x.memServes = false := by
  simp only [Port.memServes, h, ne_eq, not_true_eq_false, decide_false, Bool.and_false, Bool.false_and]

/-- The last LD's Mem_Enable cleared: the port serves no memory, its mode stands (R33). -/
theorem Die.memEnable_last_cleared {d : Die} {p ld : Nat} (hld : ld ≠ fmLd) (he : (d.port p).memEn = 2 ^ ld) :
    d.memEnable p ld false = d.setPort p { d.port p with memEn := 0 } := by
  simp only [Die.memEnable, hld, he, Nat.testBit_two_pow_self, Nat.sub_self, Bool.not_false, Bool.false_eq_true, ↓reduceIte,
    Port.memServes_of_memEn_zero]

/-! ## The rows -/

section Rows

variable {s : State} {src : Src}

theorem exec_commitGo {g : Group} (hw : s.window src = true) (hmay : (s.die.regWake (Group.commitReg g)).mayWrite src = true) :
    exec (.commitGo src g) s = .next (s.withDie ((s.die.regWake (Group.commitReg g)).writeGo g)) := by
  change execCommitGo src g s = _
  rw [execCommitGo, onWindow_window hw]
  simp only [hmay, Bool.not_true, Bool.false_eq_true, and_false, ↓reduceIte, State.withDie]

theorem exec_ringTailWrite {k : Nat} (tail : Nat) (hw : s.window src = true) (hk : k < 8)
    (hv : (s.die.active.ring k).valid = true) (hport : src.master < 6 → (s.die.active.ring k).port = src.port) :
    exec (.ringTailWrite src k tail) s = .next (s.withDie
      ((s.die.active.setRing k { s.die.active.ring k with tail := tail % 2 ^ (s.die.active.ring k).log2 }).ringAsk k)) := by
  have hown : ¬(src.master < 6 ∧ ((!(s.die.active.ring k).valid) = true ∨ (s.die.active.ring k).port ≠ src.port)) := by
    rintro ⟨hmaster, hinvalid | hother⟩
    · simp only [hv, Bool.not_true, Bool.false_eq_true] at hinvalid
    · exact hother (hport hmaster)
  change execRingTailWrite src k tail s = _
  rw [execRingTailWrite, onWindow_window hw]
  simp only [if_neg (Nat.not_le.mpr hk), if_neg hown, if_pos hv]
  rfl

/-- A register write that comes through the window, JTAG's under its enable, goes by size (R5, R402, R426). -/
theorem exec_registerWrite_window {offset : Nat} (size value : Nat) (hw : s.window src = true) (hlt : offset < 0x1000000)
    (hjtag : src.jtag = true → s.die.mayWrite src = true) :
    exec (.registerWrite src offset size value) s =
      .next (s.withDie ((s.die.regWake offset).writeReg src (srcSecure src) offset size value)) := by
  have hmay : ¬(src.jtag = true ∧ (!s.die.mayWrite src) = true) := by
    rintro ⟨hj, hno⟩
    simp only [hjtag hj, Bool.not_true, Bool.false_eq_true] at hno
  change execRegisterWrite src offset size value s = _
  rw [execRegisterWrite, onWindow_window hw, if_neg (Nat.not_le.mpr hlt), if_neg hmay]
  rfl

theorem exec_secureWindowAccess_write {offset : Nat} (value : Nat) (hw : s.window src = true) (hwin : inSecureWindow offset = true)
    (h4 : offset % 4 = 0) :
    exec (.secureWindowAccess src offset true value) s =
      .next (s.withDie (s.die.active.write4 src (srcSecure src) offset (value % 2 ^ 32))) := by
  change execSecureWindowAccess src offset true value s = _
  rw [execSecureWindowAccess, onWindow_window hw]
  simp only [hwin, h4, Bool.not_true, Bool.false_eq_true, ne_eq, not_true_eq_false, or_self, ↓reduceIte, Nat.reducePow, State.withDie]

theorem exec_secureWindowAccess_read {offset : Nat} (value : Nat) (hw : s.window src = true) (hwin : inSecureWindow offset = true)
    (h4 : offset % 4 = 0) :
    exec (.secureWindowAccess src offset false value) s = .next (s.withDie
      ((s.die.active.readReg src (srcSecure src) offset).2.emit
        (.regData src offset (s.die.active.readReg src (srcSecure src) offset).1))) := by
  change execSecureWindowAccess src offset false value s = _
  rw [execSecureWindowAccess, onWindow_window hw]
  simp only [hwin, h4, Bool.not_true, Bool.false_eq_true, ne_eq, not_true_eq_false, or_self, ↓reduceIte, State.withDie]

theorem exec_latchingRead {p : LatchPair} {lo v : Nat} (hw : s.window src = true) (hp : s.die.latchPair p = some (lo, v)) :
    exec (.latchingRead src p) s = .next (s.withDie (((s.die.regWake lo).emit (.regData src lo (word v 0))).latchHi p)) := by
  change execLatchingRead src p s = _
  rw [execLatchingRead, onWindow_window hw]
  simp only [hp]
  rfl

theorem exec_registerWrite_ldBar (offset size value : Nat) (hr : s.runs = true) (hl : s.die.ldBar src = true) :
    exec (.registerWrite src offset size value) s = .next (s.withDie (s.die.ldWrite src offset size value)) := by
  change execRegisterWrite src offset size value s = _
  rw [execRegisterWrite, onWindow_ld hr hl]
  rfl

theorem exec_latchingRead_ldBar (p : LatchPair) (hr : s.runs = true) (hl : s.die.ldBar src = true) :
    exec (.latchingRead src p) s = .next (s.withDie (s.die.ldRead src (ldPlace p))) := by
  change execLatchingRead src p s = _
  rw [execLatchingRead, onWindow_ld hr hl]
  rfl

/-- On running blocks, out of the recovery hold, a JTAG access acts by its enables alone (R426). -/
theorem exec_jtagAccess_runs (offset : Nat) (sec write : Bool) (value : Nat) (hr : s.runs = true) :
    exec (.jtagAccess offset sec write value) s = .next (s.withDie (s.die.jtagAccess offset sec write value)) := by
  simp only [State.runs, Bool.and_eq_true] at hr
  obtain ⟨hreleased, hlive⟩ := hr
  have hhold : s.die.boot.hold = false := by
    simp only [Die.live, Bool.and_eq_true, Bool.not_eq_true'] at hlive
    exact hlive.1
  change execJtagAccess offset sec write value s = _
  rw [execJtagAccess, onDie_released hreleased, hhold, if_neg (by decide), if_pos hlive]
  rfl

theorem exec_configRequest {p ld : Nat} (h : s.takesConfig p ld = true) :
    exec (.configRequest p ld) s = .next (s.withDie (s.die.active.emit (.cfgOk p ld (s.die.active.cfgAns p ld)))) :=
  onLive_config_takesConfig h _

theorem exec_fcxRequest {p ld : Nat} (request : Bool) (h : s.takesConfig p ld = true) :
    exec (.fcxRequest p ld request) s = .next (s.withDie (s.die.active.fcxRequest p request)) :=
  onLive_config_takesConfig h _

theorem exec_memEnable {p ld : Nat} (value : Bool) (h : s.takesConfig p ld = true) :
    exec (.memEnable p ld value) s = .next (s.withDie (s.die.active.memEnable p ld value)) :=
  onLive_config_takesConfig h _

end Rows

/-- Settles O15: each row's body runs on the die that takes the access, and the rule of its operation says what it leaves. -/
theorem registerAndConfigurationAccessesComplete : Obligations.RegisterAndConfigurationAccessesComplete := by
  unfold Obligations.RegisterAndConfigurationAccessesComplete
  refine ⟨?commitGo, ?ringTail, ?write4, ?write8, ?writeOther, ?secureWindow, ?latchingRead, ?ldWrite, ?ldRead, ?jtagWrite,
    ?jtagRead, ?config, ?fcxGrant, ?fcxWithdraw, ?memEnable, ?memDisable⟩
  case commitGo => exact fun s src g hw hmay => exec_commitGo hw hmay
  case ringTail => exact fun s src k tail hw hk hv hport => exec_ringTailWrite tail hw hk hv hport
  case write4 =>
    intro s src offset value hw hlt h4 hjtag
    rw [exec_registerWrite_window 4 value hw hlt hjtag, Die.writeReg_size4 h4]
  case write8 =>
    intro s src offset value hw hlt h8 hjtag
    rw [exec_registerWrite_window 8 value hw hlt hjtag, Die.writeReg_size8 h8]
  case writeOther =>
    intro s src offset size value hw hlt hno4 hno8 hjtag
    rw [exec_registerWrite_window size value hw hlt hjtag, Die.writeReg_otherSize hno4 hno8]
  case secureWindow =>
    exact fun s src offset value hw hwin h4 =>
      ⟨exec_secureWindowAccess_write value hw hwin h4, exec_secureWindowAccess_read value hw hwin h4⟩
  case latchingRead => exact fun s src p lo v hw hp => exec_latchingRead hw hp
  case ldWrite => exact fun s src offset size value hr hl => exec_registerWrite_ldBar offset size value hr hl
  case ldRead => exact fun s src p hr hl => exec_latchingRead_ldBar p hr hl
  case jtagWrite =>
    intro s offset value sec hr h4 hlt hwin hni
    rw [exec_jtagAccess_runs offset sec true value hr, Die.jtagAccess_write_normal h4 hlt hwin hni]
  case jtagRead =>
    intro s offset value sec hr h4 hlt hwin hnp
    rw [exec_jtagAccess_runs offset sec false value hr, Die.jtagAccess_read_normal h4 hlt hwin hnp]
  case config => exact fun s p ld h => exec_configRequest h
  case fcxGrant =>
    intro s p ld h hok hmode
    rw [exec_fcxRequest true h, Die.fcxRequest_granted hok hmode]
  case fcxWithdraw =>
    intro s p ld h hen hmode
    rw [exec_fcxRequest false h, Die.fcxRequest_withdrawn hen hmode]
  case memEnable =>
    intro s p ld h hld hmode
    rw [exec_memEnable true h, Die.memEnable_first hld hmode]
    rfl
  case memDisable =>
    intro s p ld h hld hen
    rw [exec_memEnable false h, Die.memEnable_last_cleared hld hen]

end Sys2Proof.Machine
end

section
/-! Stores reach their granule only (O58): what the write queue and DRAM hold after a store is queued and after a transfer is
issued. -/

namespace Sys2Proof.Machine

/-! ## The write queue (R28, R250) -/

/-- A store joins the write queue as its newest entry. -/
theorem Die.queueWrite_wq (d : Die) (e : LaneEnt) (g : Granule) :
    (d.queueWrite e g).wq = d.wq ++ [{ seq := d.seq, dga := e.dga, g := g }] := rfl

@[simp] theorem Die.queueWrite_granule (d : Die) (e : LaneEnt) (g : Granule) (a : Nat) :
    (d.queueWrite e g).granule a = d.granule a := rfl

/-- A queued store is what its granule is held as, and no other granule's (R22). -/
theorem Die.heldGranule_queueWrite (d : Die) (e : LaneEnt) (g : Granule) (a : Nat) :
    (d.queueWrite e g).heldGranule a = if a = e.dga then g else d.heldGranule a := by
  simp only [Die.heldGranule, Die.queueWrite_wq, Die.queueWrite_granule, List.filter_append]
  by_cases h : a = e.dga
  · simp only [h, decide_true, List.filter_cons_of_pos, List.filter_nil, List.getLast?_concat, ↓reduceIte]
  · simp only [Ne.symm h, h, decide_false, Bool.false_eq_true, not_false_eq_true, List.filter_cons_of_neg, List.filter_nil,
      List.append_nil, ↓reduceIte]

/-! ## The issue of a transfer -/

@[simp] theorem Die.freeEntries_dram (d : Die) : d.freeEntries.dram = d.dram := rfl

/-- A granule is what DRAM lists. -/
theorem Die.granule_eq_of_dram_eq {d d' : Die} (h : d.dram = d'.dram) (a : Nat) : d.granule a = d'.granule a := by
  rw [Die.granule, h, Die.granule]

/-- A read's issue leaves DRAM. -/
theorem Die.issue_read_dram {x : Xfer} (hx : x.write = false) (d : Die) : (d.issue x).dram = d.dram := by
  simp only [Die.issue, hx, Bool.false_eq_true, ↓reduceIte, Die.freeEntries_dram]
  split
  · rw [Die.setChan_dram]
  · rfl

/-- A write's issue stores the queued granule, and nothing else, in DRAM. -/
theorem Die.issue_write_dram {d : Die} {x : Xfer} {w : WqEnt} (hx : x.write = true)
    (hw : d.wq.find? (fun w => decide (w.dga = x.dga)) = some w) : (d.issue x).dram = (d.setGranule x.dga w.g).dram := by
  simp only [Die.issue, hx, hw, ↓reduceIte, Die.freeEntries_dram]
  split
  · rw [Die.setChan_dram]; rfl
  · rfl

theorem Die.granule_issue_write {d : Die} {x : Xfer} {w : WqEnt} (hwf : Tbl.wf Granule.blank d.dram = true) (hx : x.write = true)
    (hw : d.wq.find? (fun w => decide (w.dga = x.dga)) = some w) (a : Nat) :
    (d.issue x).granule a = if x.dga / 64 = a / 64 then w.g else d.granule a := by
  rw [Die.granule_eq_of_dram_eq (Die.issue_write_dram hx hw), granule_setGranule d x.dga a w.g hwf]

/-- Settles O58: the newest queued store is what its granule is held as, and a write's issue is one store to DRAM. -/
theorem storesReachTheirGranuleOnly : Obligations.StoresReachTheirGranuleOnly := by
  unfold Obligations.StoresReachTheirGranuleOnly
  refine ⟨Die.heldGranule_queueWrite, ?write, fun d x hx => Die.issue_read_dram hx d⟩
  case write =>
    intro d x w hwf hx hw
    refine ⟨issue_wf d x hwf, ?same, ?other⟩
    case same => rw [Die.granule_issue_write hwf hx hw, if_pos rfl]
    case other =>
      intro a ha
      rw [Die.granule_issue_write hwf hx hw, if_neg ha.symm]

end Sys2Proof.Machine
end

section
/-! The home slice of a line (O53, R17). -/

namespace Sys2Proof.Machine

/-- The home slice is the number of the XOR of the three fields. -/
theorem homeOf_toNat (dla : BitVec 64) :
    homeOf dla.toNat = (dla.extractLsb' 6 3 ^^^ dla.extractLsb' 9 3 ^^^ dla.extractLsb' 12 3).toNat := by
  simp only [homeOf, BitVec.toNat_xor, BitVec.extractLsb'_toNat, Nat.shiftRight_eq_div_pow, Nat.reducePow]

/-- Settles O53: a three-bit XOR is its own number, below 8. -/
theorem homeSliceOfALine : Obligations.HomeSliceOfALine := by
  unfold Obligations.HomeSliceOfALine
  intro dla
  rw [homeOf_toNat]
  exact ⟨by rw [BitVec.ofNat_toNat, BitVec.setWidth_eq], BitVec.isLt _⟩

end Sys2Proof.Machine
end

section
/-! Step runs oldest command (O38): the two cases of `step`. -/

namespace Sys2Proof.Machine

theorem step_of_pending {s : State} {c : Instr} {rest : List Instr} (h : s.pending = c :: rest) :
    step s = exec c { s with pending := rest } := by
  rw [step, h]

theorem step_of_empty {s : State} (h : s.pending = []) : step s = .next (tick s) := by
  rw [step, h]

/-- Settles O38: by the front of the queue; `tick` is the cycle of an empty queue as stated. -/
theorem stepRunsOldestCommand : Obligations.StepRunsOldestCommand := by
  unfold Obligations.StepRunsOldestCommand
  exact ⟨fun s c rest h => step_of_pending h, fun s h => step_of_empty h⟩

end Sys2Proof.Machine
end

section
/-! Host requests complete (O16): what a served message means, and what the die does with each meaning. -/

namespace Sys2Proof.Machine

/-! ## A served message -/

/-- What a message to entry `e` means: its COH's meaning where that governs, else its opcode's (R152, R153, R178). -/
def Die.msgMeaning (d : Die) (m : M2S) (c : MsgCls) (coh e : Nat) : Msg :=
  if d.portFcx m.port ∧ coh ≠ 0 then (if d.stdEntry e then .bad else cohMsg c coh)
  else plainMsg c (d.stdEntry e) (d.stdEntry e && d.holds (d.dlaIn e m.ta) m.port) m.metaV

/-- What the die that took a message of tenancy `ten` to the LIVE entry `e` does with its meaning. -/
def Die.serveMsg (d : Die) (m : M2S) (c : MsgCls) (coh ten e : Nat) (data : Line) (mask : BitVec 64) (msg : Msg) : Die :=
  let dla := d.dlaIn e m.ta
  let write := c.takesCmp (if d.portFcx m.port then coh else 0)
  let t := d.newTxn m (if write then .wr else .rd) ten e dla 0 4 0 0
  match msg with
  | .req op => d.request m op ten e data mask
  | .bad => (d.protocol dla m.port ten t.ta).complete t (if write then .cmp .none else .poison)
  | .inv => d.complete t (.cmp .none)
  | .nothing => d
  | msg => d.hostLane m msg ten e data

/-- A message that passes every check of its port and its entry is served by its meaning. -/
theorem Die.m2s_serves {s : State} {m : M2S} {c : MsgCls} {d : Die} {ten e : Nat} (h : s.serves m c.carriesData d ten e) (coh : Nat)
    (data : Line) (mask : BitVec 64) :
    s.die.m2s m c coh data mask = d.serveMsg m c coh ten e data mask (d.msgMeaning m c coh e) := by
  obtain ⟨-, hport, hroom, rfl, hten, hentry, hlive, hstop⟩ := h
  have hready : ¬((!s.die.portReady m.port) = true ∨ (!s.die.rxRoom m.port c.carriesData) = true) := by
    simp only [hport, hroom, Bool.not_true, Bool.false_eq_true, or_self, not_false_eq_true]
  rw [Die.m2s, if_neg hready]
  simp only [hten, hentry, hlive, hstop, Option.getD_some, Option.isSome_some, decide_true, Bool.true_or, Bool.and_self,
    Bool.not_true, Bool.false_eq_true, ↓reduceIte]
  generalize hmsg : (if (s.die.arrival m.port).portFcx m.port = true ∧ coh ≠ 0 then _ else _ : Msg) = msg
  obtain rfl : (s.die.arrival m.port).msgMeaning m c coh e = msg := hmsg
  cases (s.die.arrival m.port).msgMeaning m c coh e <;> rfl

/-- The four CXL.mem rows on a message whose opcode governs: served by the opcode's meaning. -/
theorem onLive_m2s_plain {s : State} {m : M2S} {c : MsgCls} {d : Die} {ten e : Nat} (h : s.serves m c.carriesData d ten e)
    (hplain : ¬(d.portFcx m.port = true ∧ m.ext.coh ≠ 0)) (data : Line) (mask : BitVec 64) :
    onLive s (fun d => d.m2s m c m.ext.coh data mask) = .next (s.withDie (d.serveMsg m c m.ext.coh ten e data mask
      (plainMsg c (d.stdEntry e) (d.stdEntry e && d.holds (d.dlaIn e m.ta) m.port) m.metaV))) := by
  rw [onLive_runs h.1, Die.m2s_serves h, Die.msgMeaning, if_neg hplain, State.withDie]

/-! ## The opcodes' meanings (R178) -/

theorem plainMsg_rd (std holder : Bool) (metaV : Nat) : plainMsg .rd std holder metaV =
    .req (if std then (if metaV = 1 then .rdOwn else if metaV = 2 then .rdShared else .rdCur) else .rd) := by
  cases std with
  | false => rfl
  | true => simp only [plainMsg, ↓reduceIte, apply_ite Msg.req]

/-- A full-line write of a port that does not hold the line of a standard domain is a write. -/
theorem plainMsg_wr_request {std holds : Bool} (h : ¬(std = true ∧ holds = true)) (metaV : Nat) :
    plainMsg .wr std (std && holds) metaV = .req .wr := by
  rw [plainMsg, if_neg]
  simpa only [Bool.and_eq_true, and_self_left] using h

/-- A full-line write of the port that holds the line is a write-back. -/
theorem plainMsg_wr_holder (metaV : Nat) : plainMsg .wr true true metaV = .wrBack := rfl

theorem plainMsg_inv (std holder : Bool) (metaV : Nat) :
    plainMsg .inv std holder metaV = if std && decide (metaV = 1) then .req .rdOwnNoData else .inv := rfl

/-- Settles O16: each row runs its message, served by the opcode's meaning. -/
theorem hostRequestsComplete : Obligations.HostRequestsComplete := by
  unfold Obligations.HostRequestsComplete
  refine ⟨?read, ?write, ?writeBack, ?partialWrite, ?inv⟩
  case read =>
    intro s m d ten e h hplain
    refine (onLive_m2s_plain (c := .rd) h hplain 0 0).trans ?_
    rw [plainMsg_rd, Die.serveMsg]
  case write =>
    intro s m d ten e data h hplain hno
    refine (onLive_m2s_plain (c := .wr) h hplain data 0).trans ?_
    rw [plainMsg_wr_request hno, Die.serveMsg]
  case writeBack =>
    intro s m d ten e data h hplain hstd hholds
    refine (onLive_m2s_plain (c := .wr) h hplain data 0).trans ?_
    rw [hstd, hholds, Bool.and_self, plainMsg_wr_holder]
    rfl
  case partialWrite => exact fun s m d ten e data mask h hplain => onLive_m2s_plain (c := .wrPart) h hplain data mask
  case inv =>
    intro s m d ten e h hplain
    refine (onLive_m2s_plain (c := .inv) h hplain 0 0).trans ?_
    rw [plainMsg_inv]
    split <;> rfl

end Sys2Proof.Machine
end

section
/-! Sensor and telemetry events complete (O29): one lemma per row of the statement. -/

namespace Sys2Proof.Machine

/-! ## Rules of the main die's operations -/

/-- A DIMM reading taken: the sensor, then its channel's next level (R134, R135). -/
def Die.sensed (d : Die) (ch slot : Nat) (r : DimmReading) : Die :=
  let d1 := if r.ok then d.readGood (2 * ch + slot) r else d.readFailed ch (2 * ch + slot)
  d1.setChan ch { (d1.chan ch) with levelNext := d1.levelAfter ch }

/-- A wake source that the mask admits ends SL2 (R482). -/
theorem Die.wake_sl2 {d : Die} {b : Nat} (hst : d.pwr.st = .sl2) (hmask : d.pwr.wakeMask.testBit b = true) :
    d.wake b = { d with pwr := { d.pwr with st := .sl2Exit, present := d.pwr.present ||| 2 ^ b, sleepEnd := d.time } } := by
  simp only [Die.wake, hmask, hst, Bool.not_true, Bool.false_eq_true, ↓reduceIte]

/-- The states that PWR_STAT shows as awake or in SL1. -/
theorem PwrSt.eq_of_code_lt_two {st : PwrSt} (h : st.code < 2) : st = .run ∨ st = .sl2Entry ∨ ∃ stopped, st = .sl1 stopped := by
  cases st with
  | run => exact .inl rfl
  | sl2Entry => exact .inr (.inl rfl)
  | sl1 stopped => exact .inr (.inr ⟨stopped, rfl⟩)
  | sl2 | sl3Entry | sl3 | sl2Exit | sl3Exit => simp only [PwrSt.code] at h; omega

/-! ## The rows -/

section Rows

variable {s : State}

/-- A reading with no DIMM_CRIT to raise and no DIMM gone only updates its sensor and its channel. -/
theorem exec_dimmReading {ch slot : Nat} {r : DimmReading} (hr : s.runs = true) (hch : ch < 16) (hslot : slot < 2)
    (hcrit : ¬(r.ok = true ∧ (2 ≤ ((s.die.sensed ch slot r).dimm (2 * ch + slot)).crit ∨ r.critical = true)))
    (hpresent : r.ok = true → r.present = true) :
    exec (.dimmReading ch slot r) s = .next (s.withDie (s.die.sensed ch slot r)) := by
  have hin : ¬(16 ≤ ch ∨ 2 ≤ slot) := by omega
  change execDimmReading ch slot r s = _
  rw [execDimmReading, onLive_runs hr, if_neg hin]
  refine congrArg (fun d => Host.Outcome.next (s.withDie d)) (Eq.trans (if_neg hcrit) (if_neg ?_))
  rintro ⟨hok, habsent, -⟩
  simp only [hpresent hok, Bool.not_true, Bool.false_eq_true] at habsent

theorem exec_spdInterrupt_sl2 {ch slot : Nat} (hrel : s.ohm.released = true) (hhold : s.die.boot.hold = false) (hch : ch < 16)
    (hslot : slot < 2) (hst : s.die.pwr.st = .sl2) (hmask : s.die.pwr.wakeMask.testBit 11 = true) :
    exec (.spdInterrupt ch slot) s = .next (s.withDie { s.die with pwr := { s.die.pwr with
      st := .sl2Exit, present := s.die.pwr.present ||| 2 ^ 11, sleepEnd := s.die.time } }) := by
  have hin : ¬(s.die.boot.hold = true ∨ 16 ≤ ch ∨ 2 ≤ slot) := by
    simp only [hhold, Bool.false_eq_true, false_or]
    omega
  change execSpdInterrupt ch slot s = _
  rw [execSpdInterrupt, onDie_released hrel, if_neg hin, Die.wake_sl2 hst hmask, State.withDie]

/-- A working sensor below both thresholds only keeps its reading (R471). -/
theorem exec_dieSensorReading_cool {sensor : Nat} {temp : Int} (hr : s.runs = true)
    (hworks : s.die.flt.sensorsOut.contains sensor = false) (hwarm : temp < Int.ofNat (fld (s.die.act R.pwrTherm) 15 8))
    (hcrit : temp < Int.ofNat (fld (s.die.act R.pwrTherm) 23 16)) :
    exec (.dieSensorReading sensor temp) s = .next (s.withDie
      { s.die with pwr := { s.die.pwr with sensors := s.die.pwr.sensors.insert sensor temp } }) := by
  change execDieSensorReading sensor temp s = _
  rw [execDieSensorReading, onLive_runs hr]
  simp only [hworks, Bool.false_eq_true, ↓reduceIte, if_neg (Int.not_le.mpr hcrit), if_neg (Int.not_le.mpr hwarm), State.withDie]

/-- A snapshot that is due starts its record, a gap record before it where one is due (R537, R540). -/
theorem exec_dumpSnapshot_due (hr : s.runs = true) (hon : s.die.telOn = true) (hawake : s.die.pwr.st.code < 2)
    (hdue : (s.die.transom + 1) % 2 ^ s.die.telPeriod = 0) (hnew : s.die.pmu.snapped ≠ s.die.transom + 1) :
    exec .dumpSnapshot s = .next (s.withDie
      (let d1 := s.die.active.gapBoundary (s.die.transom + 1)
       { d1 with pmu := { d1.pmu with snapped := s.die.transom + 1 } }.startRecord false (s.die.transom + 1))) := by
  change execDumpSnapshot s = _
  rw [execDumpSnapshot, onLive_runs hr]
  obtain hst | hst | ⟨stopped, hst⟩ := PwrSt.eq_of_code_lt_two hawake <;>
    simp only [hon, hst, hdue, hnew, Bool.not_true, Bool.false_eq_true, ne_eq, not_true_eq_false, or_self, ↓reduceIte, State.withDie]

/-- The record in progress, its writes over, ends: PROD moves, or the record is dropped (R538, R539). -/
theorem exec_dumpRecordDone {r : DumpRec} (hr : s.runs = true) (hdump : s.die.pmu.dump = some r)
    (hdone : s.die.txns.any (fun (t : Txn) => decide (t.master = 11) && decide (t.tag = 1)) = false) :
    exec (.dumpRecordDone r.slot) s = .next (s.withDie
      (let d1 := { s.die with pmu := { s.die.pmu with dump := none } }
       let p : Pmu := { d1.pmu with prod := d1.nextProd, rseq := (d1.pmu.rseq + 1) % 2 ^ 32, lost := 0, resetSeen := false }
       let d3 := ({ d1 with pmu := p }.writeHeader false).event R.pmuEvent 2
       if r.failed then d1.telDrop else if r.gap then d3.event R.pmuEvent 5 else d3)) := by
  change execDumpRecordDone r.slot s = _
  rw [execDumpRecordDone, onLive_runs hr]
  simp only [hdump, hdone, Bool.false_eq_true, ne_eq, not_true_eq_false, or_self, ↓reduceIte, State.withDie]

theorem exec_counterWrap {k n : Nat} (hr : s.runs = true) (hk : k ≤ 511) (hcount : s.die.counting = true)
    (hlow : ¬(s.die.pmuChained k = true ∧ k % 2 = 1)) (hsel : fld (s.die.act (R.pmuSel k)) 11 0 ≠ 0)
    (hwraps : 2 ^ 48 ≤ s.die.pmuVal k + n) : exec (.counterWrap k n) s = .next (s.withDie (s.die.pmuAdd k n)) := by
  have hhigh : (s.die.pmuChained k && decide (k % 2 = 1)) = false := by
    rwa [← Bool.not_eq_true, Bool.and_eq_true, decide_eq_true_eq]
  change execCounterWrap k n s = _
  rw [execCounterWrap, onLive_runs hr]
  simp only [Nat.not_lt.mpr hk, hcount, hhigh, hsel, Nat.not_lt.mpr hwraps, Bool.not_true, Bool.false_eq_true, or_self, ↓reduceIte,
    State.withDie]

/-- The reference clock goes on to the next transom (R30, R70). -/
theorem exec_transomBoundary (hrel : s.ohm.released = true) :
    exec .transomBoundary s = .next (s.withDie (s.die.ticks (50 - s.die.time % 50))) :=
  onDie_released hrel fun d => d.ticks (50 - d.time % 50)

end Rows

/-- Settles O29: row by row; a transom's cycles are `Die.ticks`. -/
theorem sensorAndTelemetryEventsComplete : Obligations.SensorAndTelemetryEventsComplete := by
  unfold Obligations.SensorAndTelemetryEventsComplete
  refine ⟨?dimm, ?spd, ?dieSensor, ?snapshot, ?record, ?counter, ?transom⟩
  case dimm => exact fun s ch slot r hr hch hslot hcrit hpresent => exec_dimmReading hr hch hslot hcrit hpresent
  case spd => exact fun s ch slot hrel hhold hch hslot hst hmask => exec_spdInterrupt_sl2 hrel hhold hch hslot hst hmask
  case dieSensor => exact fun s sensor temp hr hworks hwarm hcrit => exec_dieSensorReading_cool hr hworks hwarm hcrit
  case snapshot => exact fun s hr hon hawake hdue hnew => exec_dumpSnapshot_due hr hon hawake hdue hnew
  case record => exact fun s r hr hdump hdone => exec_dumpRecordDone hr hdump hdone
  case counter => exact fun s k n hr hk hcount hlow hsel hwraps => exec_counterWrap hr hk hcount hlow hsel hwraps
  case transom => exact fun s hrel => exec_transomBoundary hrel

end Sys2Proof.Machine
end

section
/-! CXL device commands complete (O13): what the mailbox's operations do on the main die, and the statement row by row. -/

namespace Sys2Proof.Machine

/-! ## Rules of the main die's operations -/

/-- A meaning `e` that is a command `f` of a function's mailbox leaves what `f` makes of the awake die. -/
theorem onMailbox_leaves {s : State} {p ld : Nat} {f : Die → Die} {d : Die} {e : Host.Outcome State Fault Refusal}
    (h : s.takesMailbox p ld = true) (he : e = onMailbox s p ld f) (hd : f s.die.active = d) : e = .next (s.withDie d) := by
  rw [he, onMailbox_takes h, hd, State.withDie]

/-- Out of doorstop, with its mailbox free, Sanitize of an LD retires the indices of the LD's tenancy (R273). -/
theorem Die.sanitizeLd_ten {d : Die} {p ld t : Nat} (hstop : d.flt.doorstop = false)
    (hfree : d.mailboxBusy (if d.mldPort p then .ldMailbox p ld else .mailbox p) = false) (ht : d.ldTen p ld = some t) (op : Nat) :
    d.sanitizeLd p ld op = d.sanitizeTen p ld op t := by
  simp only [Die.sanitizeLd, hstop, hfree, ht, Bool.false_eq_true, ↓reduceIte]

/-- An LD without a tenancy has nothing to retire. -/
theorem Die.sanitizeLd_noTen {d : Die} {p ld : Nat} (hstop : d.flt.doorstop = false)
    (hfree : d.mailboxBusy (if d.mldPort p then .ldMailbox p ld else .mailbox p) = false) (ht : d.ldTen p ld = none) (op : Nat) :
    d.sanitizeLd p ld op = d.emit (.cxl p ld op cxlSuccess 0 []) := by
  simp only [Die.sanitizeLd, hstop, hfree, ht, Bool.false_eq_true, ↓reduceIte]

/-- The FM-owned LD of an MLD port answers its commands (R44). -/
theorem Die.mldAnswer_mldPort {d : Die} {p : Nat} (h : d.mldPort p = true) (op : Nat) (known : List PayVal) :
    d.mldAnswer p op known = d.cxlAnswer p fmLd op known :=
  if_pos h

/-! ## The rows -/

/-- Settles O13: each row runs its body on the awake die; Sanitize and the MLD commands go by the rules of their operations. -/
theorem cxlDeviceCommandsComplete : Obligations.CxlDeviceCommandsComplete := by
  unfold Obligations.CxlDeviceCommandsComplete
  refine ⟨?answers, ?setTimestamp, ?poisonList, ?injectPoison, ?clearPoison, ?sanitize, ?mld, ?noMld⟩
  case answers =>
    intro s p ld h
    exact ⟨(onMailbox_leaves h rfl rfl : execIdentify p ld s = _), (onMailbox_leaves h rfl rfl : execGetHealthInfo p ld s = _),
      (onMailbox_leaves h rfl rfl : execGetTimestamp p ld s = _)⟩
  case setTimestamp => exact fun s p ld value h => (onMailbox_leaves h rfl rfl : execSetTimestamp p ld value s = _)
  case poisonList =>
    intro s p ld ta lines t h ht
    change execGetPoisonList p ld ta lines s = _
    refine onMailbox_leaves h rfl ?_
    simp only [ht]
  case injectPoison =>
    intro s p ld ta t e dla d1 h hni hstop hline hpoison
    change execInjectPoison p ld ta s = _
    refine onMailbox_leaves h rfl ?_
    simp only [hni, hstop, hline, hpoison, Bool.not_true, Bool.false_eq_true, ↓reduceIte]
  case clearPoison =>
    intro s p ld ta t e dla data h hstop hline
    change execClearPoison p ld ta data s = _
    refine onMailbox_leaves h rfl ?_
    simp only [hstop, hline, Bool.false_eq_true, ↓reduceIte]
  case sanitize =>
    intro s p ld h hstop hfree
    have hten (t : Nat) (ht : s.die.active.ldTen p ld = some t) := Die.sanitizeLd_ten hstop hfree ht
    have hnone (ht : s.die.active.ldTen p ld = none) := Die.sanitizeLd_noTen hstop hfree ht
    exact
      ⟨fun t ht => ⟨(onMailbox_leaves h rfl (hten t ht _) : execSanitize p ld s = _),
          (onMailbox_leaves h rfl (hten t ht _) : execSecureErase p ld s = _)⟩,
        fun ht => ⟨(onMailbox_leaves h rfl (hnone ht _) : execSanitize p ld s = _),
          (onMailbox_leaves h rfl (hnone ht _) : execSecureErase p ld s = _)⟩⟩
  case mld =>
    intro s p h hmld
    exact ⟨(onMailbox_leaves h rfl (Die.mldAnswer_mldPort hmld _ _) : execGetLdInfo p s = _),
      (onMailbox_leaves h rfl (Die.mldAnswer_mldPort hmld _ _) : execGetLdAllocations p s = _)⟩
  case noMld =>
    intro s p h
    exact ⟨(onMailbox_leaves h rfl rfl : execSetLdAllocations p s = _), (onMailbox_leaves h rfl rfl : execGetMhdInfo p s = _)⟩

end Sys2Proof.Machine
end

section
/-! SPDM requests complete (O14): the statement row by row, on the die that took the request. -/

namespace Sys2Proof.Machine

/-- A meaning `e` that is a request `f` to a responder leaves what `f` makes of the die that took it. -/
theorem onSpdm_leaves {s : State} {ch : SpdmCh} {f : Die → Die} {d : Die} {e : Host.Outcome State Fault Refusal}
    (h : s.takesSpdm ch = true) (he : e = onSpdm s ch f) (hd : f (s.die.spdmIn ch) = d) : e = .next (s.withDie d) := by
  rw [he, onSpdm_takes h, hd, State.withDie]

/-- In an established session a request does not take the branch that answers InvalidSession. -/
theorem Die.not_sessionDown {d : Die} {ch : SpdmCh} {session : Nat} (h : d.sessionUp ch session = true) :
    ¬(!d.sessionUp ch session) = true := by
  rw [h]
  decide

/-- Settles O14: each row's guard holds on the die that took the request. -/
theorem spdmRequestsComplete : Obligations.SpdmRequestsComplete := by
  unfold Obligations.SpdmRequestsComplete
  refine ⟨?answers, ?keyExchange, ?finish, ?inSession, ?pskExchange, ?ideKm⟩
  case answers =>
    intro s ch slot nonce h hslot
    have hvalid : ¬8 ≤ slot := Nat.not_le.mpr hslot
    exact ⟨(onSpdm_leaves h rfl (if_neg hvalid) : execGetCertificate ch slot s = _),
      (onSpdm_leaves h rfl (if_neg hvalid) : execChallenge ch slot nonce s = _),
      (onSpdm_leaves h rfl rfl : execGetMeasurements ch nonce s = _)⟩
  case keyExchange =>
    exact fun s ch mutualAuth h hroom =>
      (onSpdm_leaves h rfl (if_neg (Nat.not_le.mpr hroom)) : execKeyExchange ch mutualAuth s = _)
  case finish =>
    intro s ch session x h hx
    constructor
    · change execFinish ch session true s = _
      refine onSpdm_leaves h rfl ?_
      simp only [hx, ↓reduceIte]
    · change execFinish ch session false s = _
      refine onSpdm_leaves h rfl ?_
      simp only [hx, Bool.false_eq_true, ↓reduceIte]
  case inSession =>
    intro s ch session h hup
    exact ⟨(onSpdm_leaves h rfl (if_neg (Die.not_sessionDown hup)) : execKeyUpdate ch session s = _),
      (onSpdm_leaves h rfl (if_pos hup) : execHeartbeat ch session s = _)⟩
  case pskExchange => exact fun s ch h => (onSpdm_leaves h rfl rfl : execPskExchange ch s = _)
  case ideKm =>
    exact fun s p session msg h hup =>
      (onSpdm_leaves h rfl (if_neg (Die.not_sessionDown hup)) : execIdeKm p session msg s = _)

end Sys2Proof.Machine
end

section
/-! Port events complete (O27): when a pin's change and a port's event act, and one lemma per row of the statement. -/

namespace Sys2Proof.Machine

/-! ## Rules of the port events -/

/-- On running blocks a pin's change takes the level and then its effect (R39, R42). -/
theorem pinChange_runs {s : State} (h : s.runs = true) (p : Nat) (perst : Bool) (f : Die → Die) :
    pinChange s p perst f = .next (s.withDie (f (s.die.setPort p { (s.die.port p) with perst := perst }))) := by
  simp only [State.runs, Die.live, Bool.and_eq_true] at h
  obtain ⟨hreleased, hnohold, -⟩ := h
  simp only [pinChange, hreleased, Die.setPort_boot, hnohold, Bool.and_self, ↓reduceIte, State.withDie]

/-- On running blocks a meaning `e` that is an event `f` of theirs leaves what `f` makes of the die. -/
theorem onLive_leaves {s : State} {f : Die → Die} {d : Die} {e : Host.Outcome State Fault Refusal} (h : s.runs = true)
    (he : e = onLive s f) (hd : f s.die = d) : e = .next (s.withDie d) := by
  rw [he, onLive_runs h, hd, State.withDie]

/-- The guard of a port event does not stop it on a port of the device that is in the state `b` it needs. -/
theorem portGuard_passes {p : Nat} {b : Bool} (hp : p < 6) (hb : b = true) : ¬(6 ≤ p ∨ (!b) = true) := by
  simp only [Nat.not_le.mpr hp, hb, Bool.not_true, Bool.false_eq_true, or_self, not_false_eq_true]

/-! ## The rows -/

section Rows

variable {s : State} {p : Nat}

theorem exec_perstAssert {ns : Nat} (hr : s.runs = true) (hp : p < 6) (hns : 1000 ≤ ns) (hoff : (s.die.port p).perst = false) :
    exec (.perstAssert p ns) s = .next (s.withDie
      ((((s.die.setPort p { (s.die.port p) with perst := true }).linkDown p).event (R.hptEvent p) 0).wake p)) := by
  have hacts : ¬(6 ≤ p ∨ ns < 1000 ∨ (s.die.port p).perst = true) := by
    simp only [hoff, Bool.false_eq_true, or_false]
    omega
  change execPerstAssert p ns s = _
  rw [execPerstAssert, if_neg hacts, pinChange_runs hr]

theorem exec_perstDeassert (hr : s.runs = true) (hp : p < 6) (hon : (s.die.port p).perst = true) :
    exec (.perstDeassert p) s = .next (s.withDie ((s.die.setPort p { (s.die.port p) with perst := false }).train13 p)) := by
  change execPerstDeassert p s = _
  rw [execPerstDeassert, if_neg (portGuard_passes hp hon), pinChange_runs hr]

/-- A training ends: the link comes up, or it stays down with its event (R34, R37). -/
theorem exec_linkTrainingDone (hr : s.runs = true) (hp : p < 6) (htrains : (s.die.port p).training = true) (link : Option LinkInfo) :
    exec (.linkTrainingDone p link) s = .next (s.withDie (match link with
      | some l => (s.die.linkUp p l).active
      | none => (s.die.setPort p { (s.die.port p) with training := false }).event (R.hptEvent p) 7)) := by
  change execLinkTrainingDone p link s = _
  refine onLive_leaves hr rfl ((if_neg (portGuard_passes hp htrains)).trans ?_)
  cases link <;> rfl

/-- A link of an enabled port retrained: the committed fields, the speed and width they allow, the count (R69), and a new rate to
be reported (R37). -/
def Die.retrained (d : Die) (p : Nat) (l : LinkInfo) : Port :=
  let x : Port := { (d.port p) with cfg := d.portCfg p }
  let k := x.limit { l with flit := x.flit }
  let y : Port := { x with speed := k.speed, x8 := k.x8, retrains := min (x.retrains + 1) 255 }
  if y.rate = x.rate then y else { y with report := some y.rate }

theorem exec_linkRetrain (hr : s.runs = true) (hp : p < 6) (hup : (s.die.port p).linkUp = true)
    (hen : bit (s.die.portCfg p) 0 = true) (l : LinkInfo) :
    exec (.linkRetrain p l) s = .next (s.withDie ((s.die.relink p (s.die.retrained p l)).event (R.hptEvent p) 2)) := by
  change execLinkRetrain p l s = _
  refine onLive_leaves hr rfl ((if_neg (portGuard_passes hp hup)).trans (if_neg ?_))
  simp only [hen, Bool.not_true, Bool.false_eq_true, not_false_eq_true]

/-- An integrity failure of a stream in use is a fatal error of its port, whose link goes down, and is recorded (R64, R148). -/
theorem exec_ideIntegrityFail (hr : s.runs = true) (hp : p < 6) (hup : (s.die.port p).linkUp = true)
    (hide : (s.die.port p).ideMem ≠ 0 ∨ (s.die.port p).ideIo = true) :
    exec (.ideIntegrityFail p) s = .next (s.withDie
      ((((s.die.event (R.hptEvent p) 6).emit (.aerFatal p)).linkDown p).record (unitHpt p) 0x26 1 0xff 0xffff 0 0)) := by
  change execIdeIntegrityFail p s = _
  refine onLive_leaves hr rfl (if_neg ?_)
  rw [← or_assoc]
  rintro (hidle | ⟨hmem, hio⟩)
  · exact portGuard_passes hp hup hidle
  · rcases hide with hne | hon
    · exact hne hmem
    · simp only [hon, Bool.not_true, Bool.false_eq_true] at hio

end Rows

/-- Settles O27: row by row; a retrained link is `Die.retrained`. -/
theorem portEventsComplete : Obligations.PortEventsComplete := by
  unfold Obligations.PortEventsComplete
  refine ⟨?perstAssert, ?perstDeassert, ?linkDown, ?trained, ?notTrained, ?retrain, ?integrity⟩
  case perstAssert => exact fun s p ns hr hp hns hoff => exec_perstAssert hr hp hns hoff
  case perstDeassert => exact fun s p hr hp hon => exec_perstDeassert hr hp hon
  case linkDown => exact fun s p hr hp hup => (onLive_leaves hr rfl (if_neg (portGuard_passes hp hup)) : execLinkDown p s = _)
  case trained => exact fun s p l hr hp htrains => exec_linkTrainingDone hr hp htrains (some l)
  case notTrained => exact fun s p hr hp htrains => exec_linkTrainingDone hr hp htrains none
  case retrain => exact fun s p l hr hp hup hen => exec_linkRetrain hr hp hup hen l
  case integrity => exact fun s p hr hp hup hide => exec_ideIntegrityFail hr hp hup hide

end Sys2Proof.Machine
end

section
/-! Replies and commits leave memory (O44): the memory of a die as one value, and one rule per operation that leaves it. -/

namespace Sys2Proof.Machine

/-- All of memory: the DRAM, the write queues, the write buffers, the counter tree, the keyhole, the homes' directory, the page map
and the memory-side cache. -/
def Die.memory (d : Die) : Tbl Granule × List WqEnt × List LaneEnt × Itr × Keys × Home × PMap × Hbc :=
  (d.dram, d.wq, d.lane, d.itr, d.keys, d.home, d.pmap, d.hbc)

/-- Memory is the same part by part. -/
theorem Die.memory_eq_iff {d e : Die} : e.memory = d.memory ↔
    e.dram = d.dram ∧ e.wq = d.wq ∧ e.lane = d.lane ∧ e.itr = d.itr ∧ e.keys = d.keys ∧ e.home = d.home ∧ e.pmap = d.pmap ∧
      e.hbc = d.hbc := by
  simp only [Die.memory, Prod.mk.injEq]

/-! ## Registers, messages and the manager's records -/

@[simp] theorem Die.regW_memory (d : Die) (o : Nat) (v : Reg) : (d.regW o v).memory = d.memory := rfl
@[simp] theorem Die.emit_memory (d : Die) (m : Out) : (d.emit m).memory = d.memory := rfl
@[simp] theorem Die.withMgt_memory (d : Die) (x : Mgt) : ({ d with mgt := x } : Die).memory = d.memory := rfl
@[simp] theorem Die.setGo_memory (d : Die) (g : Group) : (d.setGo g).memory = d.memory := Die.regW_memory d _ _
@[simp] theorem Die.count_memory (d : Die) (o n : Nat) : (d.count o n).memory = d.memory := Die.regW_memory d _ _

@[simp] theorem Die.event_memory (d : Die) (o b : Nat) : (d.event o b).memory = d.memory := by
  rw [Die.event]
  split <;> rfl

/-- A fold of operations that leave memory leaves memory. -/
theorem Die.foldl_memory {α : Type} {f : Die → α → Die} (hf : ∀ d x, (f d x).memory = d.memory) (l : List α) (d : Die) :
    (l.foldl f d).memory = d.memory := by
  induction l generalizing d with
  | nil => rfl
  | cons x l ih => rw [List.foldl_cons, ih, hf]

/-! ## Replies (R387, R390) -/

/-- A reply off the rings leaves memory: it is kept for its endpoint and goes out. -/
theorem Die.answer_memory {h : Hdr} (hvia : offRing h.via = true) (d : Die) (op st det : Nat) (payload : List PayVal) :
    (d.answer h op st det payload).memory = d.memory := by
  rw [Die.answer, sendReply_offRing _ _ hvia, Die.emit_memory]
  split
  · split <;> rfl
  · rfl

/-! ## Commit requests (R105) -/

theorem Die.regWs_memory (d : Die) (ws : List (Nat × Reg)) : (d.regWs ws).memory = d.memory :=
  Die.foldl_memory (fun _ _ => Die.regW_memory _ _ _) ws d

theorem Die.landWrites_memory (d : Die) (g : Group) (ws : List (Nat × Reg)) : (d.landWrites g ws).memory = d.memory := by
  rw [Die.landWrites, Die.setGo_memory, Die.regWs_memory]
  split
  · exact Die.foldl_memory (fun _ _ => Die.regW_memory _ _ _) _ d
  · rfl

theorem Die.beginCommit_memory (d : Die) (r : CommitReq) : (d.beginCommit r).memory = d.memory := by
  rw [Die.beginCommit, Die.withMgt_memory]
  split
  · exact Die.setGo_memory d _
  · exact Die.landWrites_memory d _ _

theorem Die.startCommits_memory (d : Die) : d.startCommits.memory = d.memory := by
  refine Die.foldl_memory (fun d r => ?_) _ d
  split
  · rfl
  · exact Die.beginCommit_memory d r

theorem Die.commit_memory (d : Die) (g : Group) (cmd : Option Instr) (ws : List (Nat × Reg)) :
    (d.commit g cmd ws).memory = d.memory := by
  rw [Die.commit, Die.askCommits, Die.startCommits_memory, Die.withMgt_memory]

/-- Settles O44: each operation writes registers, messages and the manager's records only. -/
theorem repliesAndCommitsLeaveMemory : Obligations.RepliesAndCommitsLeaveMemory := by
  unfold Obligations.RepliesAndCommitsLeaveMemory
  refine ⟨?reply, ?commit, ?count, ?event⟩
  case reply => exact fun d h op st det payload hvia => Die.memory_eq_iff.mp (Die.answer_memory hvia d op st det payload)
  case commit => exact fun d g cmd ws => Die.memory_eq_iff.mp (Die.commit_memory d g cmd ws)
  case count => exact fun d o n => Die.memory_eq_iff.mp (Die.count_memory d o n)
  case event => exact fun d o b => Die.memory_eq_iff.mp (Die.event_memory d o b)

end Sys2Proof.Machine
end

section
/-! Go holds staged fields (O55, R108): what a staged write and a further GO do while GO reads 1. -/

namespace Sys2Proof.Machine

/-- Firmware and JTAG, which may write what host software may not, use the management window itself, never a tenant LD's (R45). -/
theorem window_of_mayWrite {s : State} {src : Src} (hr : s.runs = true) (hmay : s.die.mayWrite src = true) : s.window src = true := by
  have hld : s.die.ldBar src = false := by
    simp only [Die.mayWrite] at hmay
    cases hj : src.jtag with
    | true => simp only [Die.ldBar, hj, Bool.not_true, Bool.and_false, Bool.false_and]
    | false =>
      simp only [hj, Bool.false_eq_true, ↓reduceIte, decide_eq_true_eq] at hmay
      simp only [Die.ldBar, hmay, Nat.reduceLT, decide_false, Bool.false_and]
  simp only [State.window, hr, hld, Bool.not_false, Bool.and_self]

/-- A source that may write what host software may not does not write as a host port. -/
theorem not_host_of_mayWrite {d : Die} {src : Src} (hmay : d.mayWrite src = true) : ¬(src.master < 6 ∧ (!src.jtag) = true) := by
  rintro ⟨hlt, hnoJtag⟩
  simp only [Bool.not_eq_true'] at hnoJtag
  simp only [Die.mayWrite, hnoJtag, Bool.false_eq_true, ↓reduceIte, decide_eq_true_eq] at hmay
  omega

@[simp] theorem Die.active_dbg (d : Die) : d.active.dbg = d.dbg := by
  rw [Die.active]
  split <;> rfl

@[simp] theorem Die.memWake_dbg (d : Die) : d.memWake.dbg = d.dbg := by
  rw [Die.memWake]
  split <;> rfl

@[simp] theorem Die.regWake_dbg (d : Die) (o : Nat) : (d.regWake o).dbg = d.dbg := by
  rw [Die.regWake]
  split
  · exact d.active_dbg
  · rw [Die.memWake_dbg, Die.active_dbg]

/-- The rights of a source do not change as the die wakes for the access. -/
@[simp] theorem Die.regWake_mayWrite (d : Die) (o : Nat) (src : Src) : (d.regWake o).mayWrite src = d.mayWrite src := by
  rw [Die.mayWrite, Die.regWake_dbg, Die.mayWrite]

/-- A write to a staged register by a source with the rights of master 13 goes to the staged copy. -/
theorem Die.write4_staged {d : Die} {src : Src} {secure : Bool} {o : Nat} {row : RegRow}
    (hwin : inSecureWindow o = true → secure = true) (hrow : regRow o = some row) (hacc : row.acc = .rws)
    (hhost : ¬(src.master < 6 ∧ (!src.jtag) = true)) (v : Nat) :
    d.write4 src secure o v = d.writeStaged o (BitVec.ofNat 32 (v &&& row.mask)) := by
  have hopen : (inSecureWindow o && !secure) = false := by
    cases hsec : inSecureWindow o with
    | true => rw [hwin hsec]; rfl
    | false => rfl
  simp only [Die.write4, hopen, hrow, hhost, Die.writeBy, hacc, Bool.false_eq_true, ↓reduceIte]

/-- While GO reads 1 a write to a staged field is dropped and sets WR_DROP. -/
theorem Die.writeStaged_going {d : Die} {o : Nat} {g : Group} (hg : groupOfReg o = some g) (hgo : d.going g = true) (v : Reg) :
    d.writeStaged o v = d.regW (Group.commitReg g) (setFld (d.regR (Group.commitReg g)) 30 30 1) := by
  simp only [Die.writeStaged, hg, hgo, ↓reduceIte]

/-- While GO reads 1 a further 1 written to it has no effect. -/
theorem Die.writeGo_going {d : Die} {g : Group} (hgo : d.going g = true) : d.writeGo g = d :=
  if_pos hgo

/-- Settles O55: the access reaches the window, and the group's GO decides. -/
theorem goHoldsStagedFields : Obligations.GoHoldsStagedFields := by
  unfold Obligations.GoHoldsStagedFields
  intro s src g hr hmay
  have hw := window_of_mayWrite hr hmay
  refine ⟨?staged, ?go⟩
  case staged =>
    intro offset value row hrow hacc hg h4 hlt hwin hgo
    rw [exec_registerWrite_window 4 value hw hlt fun _ => hmay, Die.writeReg_size4 h4,
      Die.write4_staged hwin hrow hacc (not_host_of_mayWrite hmay), Die.writeStaged_going hg hgo]
  case go =>
    intro hgo
    rw [exec_commitGo hw (by rw [Die.regWake_mayWrite, hmay]), Die.writeGo_going hgo]

end Sys2Proof.Machine
end

section
/-! Memory and port commands complete (O4): a packet command that is taken runs its own body, and one lemma per row of the
statement. -/

namespace Sys2Proof.Machine

/-! ## Rules of the command interface -/

/-- A meaning `e` that is a packet command taken by a running block leaves what its body makes of the die that took it. -/
theorem onCmd_leaves {s : State} {h : Hdr} {op want : Nat} {roles : List Role} {d d' : Die} {body : Die → Die}
    {e : Host.Outcome State Fault Refusal} (ht : s.takes h op roles want d)
    (he : e = onCmd s fun d => d.command h op roles want body) (hd : body d = d') : e = .next (s.withDie d') := by
  rw [he, onCmd_takes ht, hd, State.withDie]

/-- The same for a long command. -/
theorem onCmd_leavesLong {s : State} {h : Hdr} {op want : Nat} {roles : List Role} {d d' : Die} {body : Die → Die}
    {e : Host.Outcome State Fault Refusal} (ht : s.takesLong h op roles want d)
    (he : e = onCmd s fun d => d.longCommand h op roles want body) (hd : body d = d') : e = .next (s.withDie d') := by
  rw [he, onCmd_takesLong ht, hd, State.withDie]

/-- Register-valued parameters without a reserved bit set are committed (R105, R388). -/
theorem Die.regCommand_commits {ps : List (Nat × Nat × Nat)} (hrsv : firstRsv ps = none) (d : Die) (h : Hdr) (op : Nat) (g : Group)
    (c : Instr) : d.regCommand h op g c ps = d.commitFor g c (ps.map Prod.snd) := by
  rw [Die.regCommand, hrsv]

/-! ## The rows -/

section Rows

variable {s : State} {h : Hdr} {d : Die}

/-- A free bay of a valid set becomes the store of the lowest free index (R278). -/
theorem exec_storeAdd {set b i : Nat} (ht : s.takes h 0x0304 [.f] 1 d) (hset : set ≤ 15) (hvalid : (d.setInfo set).valid = true)
    (hbay : d.freePhys set = some b) (hindex : (List.range 4096).find? (fun i => (d.pmap.stores.find? i).isNone) = some i) :
    exec (.storeAdd h set) s = .next (s.withDie ({ d.freshStore i with pmap := { (d.freshStore i).pmap with
      stores := (d.freshStore i).pmap.stores.insert i { bay := b, low := false } } }.ok h 0x0304 [(2, i), (2, b)])) := by
  change execStoreAdd h set s = _
  refine onCmd_leaves ht rfl ?_
  simp only [Nat.not_lt.mpr hset, hvalid, hbay, hindex, Bool.not_true, Bool.false_eq_true, ↓reduceIte]

/-- A store that no mapped bay names and that holds no page goes back, its written pages scrubbed (R278, R306). -/
theorem exec_storeRelease {store : Nat} {x : Store} (ht : s.takes h 0x0305 [.f] 2 d) (hx : d.pmap.stores.find? store = some x)
    (hnamed : d.usedEntries.any (fun e => mappedBay (d.bt e).dlaBay &&
      decide ((d.bay (d.bt e).dlaBay).primary = store ∨ (d.bay (d.bt e).dlaBay).secondary = store)) = false)
    (hempty : d.storeEmpty store = true) :
    exec (.storeRelease h store) s = .next (s.withDie (
      let d1 := (d.writtenPages x.bay).foldl Die.scrubLeaf d
      { d1.freshStore store with
        pmap := { (d1.freshStore store).pmap with stores := d1.pmap.stores.erase store } }.ok h 0x0305 [])) := by
  change execStoreRelease h store s = _
  refine onCmd_leaves ht rfl ?_
  simp only [hx, hnamed, hempty, Bool.not_true, Bool.or_self, Bool.false_eq_true, ↓reduceIte]

theorem exec_tierSet {policy value : Nat} (ht : s.takes h 0x0306 [.f] 5 d) (hpolicy : policy ≤ 15)
    (hrsv : firstRsv [(17, R.tirPolicy policy, value)] = none) :
    exec (.tierSet h policy value) s =
      .next (s.withDie (d.commitFor .tir (.tierSet h policy value) [(R.tirPolicy policy, value)])) := by
  change execTierSet h policy value s = _
  exact onCmd_leaves ht rfl ((if_neg (Nat.not_lt.mpr hpolicy)).trans (Die.regCommand_commits hrsv ..))

/-- MEM_CFG asks one commit of each group it changes (R105). -/
theorem exec_memCfg {p : MemCfgP} (ht : s.takes h 0x0307 [.f] 20 d)
    (hrsv : firstRsv ((memParts p).map fun (x : Nat × Group × Nat × Nat) => (x.1, x.2.2)) = none) (hparts : memParts p ≠ []) :
    exec (.memCfg h p) s = .next (s.withDie
      ((memParts p).foldl (fun (d : Die) (x : Nat × Group × Nat × Nat) => d.commitFor x.2.1 (.memCfg h p) [x.2.2]) d)) := by
  change execMemCfg h p s = _
  refine onCmd_leaves ht rfl ?_
  simp only [hrsv, hparts, ↓reduceIte]

/-- MEM_CFG that leaves every register unchanged is answered at once. -/
theorem exec_memCfg_unchanged {p : MemCfgP} (ht : s.takes h 0x0307 [.f] 20 d) (hparts : memParts p = []) :
    exec (.memCfg h p) s = .next (s.withDie (d.ok h 0x0307 [])) := by
  have hrsv : firstRsv [] = none := rfl
  change execMemCfg h p s = _
  refine onCmd_leaves ht rfl ?_
  simp only [hparts, List.map_nil, hrsv, ↓reduceIte]

theorem exec_portSet {port cfg : Nat} (ht : s.takes h 0x0208 [.f] 5 d) (hport : port ≤ 5)
    (hrsv : firstRsv [(17, R.hptPortCfg port, cfg)] = none) :
    exec (.portSet h port cfg) s =
      .next (s.withDie (d.commitFor (.hpt port) (.portSet h port cfg) [(R.hptPortCfg port, cfg)])) := by
  change execPortSet h port cfg s = _
  exact onCmd_leaves ht rfl ((if_neg (Nat.not_lt.mpr hport)).trans (Die.regCommand_commits hrsv ..))

theorem exec_lvrSet {louvre shape target : Nat} (ht : s.takes h 0x0209 [.f] 9 d)
    (hrsv : firstRsv [(17, R.lvrShape louvre, shape), (21, R.lvrTarget louvre, target)] = none) :
    exec (.lvrSet h louvre shape target) s = .next (s.withDie (d.commitFor .lvr (.lvrSet h louvre shape target)
      [(R.lvrShape louvre, shape), (R.lvrTarget louvre, target)])) := by
  change execLvrSet h louvre shape target s = _
  exact onCmd_leaves ht rfl (Die.regCommand_commits hrsv ..)

theorem exec_lvrGlobal {cfg therm pmic map0 map1 : Nat} (ht : s.takes h 0x020a [.f] 20 d)
    (hrsv : firstRsv [(16, R.lvrCfg, cfg), (20, R.lvrTherm, therm), (24, R.lvrPmic, pmic), (28, R.lvrMasterMap0, map0),
      (32, R.lvrMasterMap1, map1)] = none) :
    exec (.lvrGlobal h cfg therm pmic map0 map1) s = .next (s.withDie (d.commitFor .lvr (.lvrGlobal h cfg therm pmic map0 map1)
      [(R.lvrCfg, cfg), (R.lvrTherm, therm), (R.lvrPmic, pmic), (R.lvrMasterMap0, map0), (R.lvrMasterMap1, map1)])) := by
  change execLvrGlobal h cfg therm pmic map0 map1 s = _
  exact onCmd_leaves ht rfl (Die.regCommand_commits hrsv ..)

end Rows

/-- Settles O4: row by row; the register commands end in `Die.regCommand`. -/
theorem memoryAndPortCommandsComplete : Obligations.MemoryAndPortCommandsComplete := by
  unfold Obligations.MemoryAndPortCommandsComplete
  refine ⟨?storeAdd, ?storeRelease, ?tierSet, ?memCfg, ?memCfgUnchanged, ?portSet, ?lvrSet, ?lvrGlobal⟩
  case storeAdd => exact fun s h d set b i ht hset hvalid hbay hindex => exec_storeAdd ht hset hvalid hbay hindex
  case storeRelease => exact fun s h d store x ht hx hnamed hempty => exec_storeRelease ht hx hnamed hempty
  case tierSet => exact fun s h d policy value ht hpolicy hrsv => exec_tierSet ht hpolicy hrsv
  case memCfg => exact fun s h d p ht hrsv hparts => exec_memCfg ht hrsv hparts
  case memCfgUnchanged => exact fun s h d p ht hparts => exec_memCfg_unchanged ht hparts
  case portSet => exact fun s h d port cfg ht hport hrsv => exec_portSet ht hport hrsv
  case lvrSet => exact fun s h d louvre shape target ht hrsv => exec_lvrSet ht hrsv
  case lvrGlobal => exact fun s h d cfg therm pmic map0 map1 ht hrsv => exec_lvrGlobal ht hrsv

end Sys2Proof.Machine
end

section
/-! Contract commands complete (O5): what the contract commands' shared course and bodies do when nothing stops them, and one lemma
per row of the statement. -/

namespace Sys2Proof.Machine

/-! ## Rules of the contract commands -/

/-- A contract command whose channels are awake and that nothing makes wait runs its body (R101, R478). -/
theorem Die.conCommand_runs {d : Die} {i : Instr} (hawake : d.mustWake i = false) (hfree : d.conWaits = false) (run : Die → Die) :
    d.conCommand i run = run d := by
  simp only [Die.conCommand, hawake, hfree, Bool.false_eq_true, ↓reduceIte]

/-- A caller that is no tenant may name any tenancy there is a number for (R400). -/
theorem Die.tenParam_notTenant {d : Die} {h : Hdr} {op t : Nat} (hrole : d.asTenant h op = false) (ht : t ≤ 1023) (off : Nat)
    (body : Die) : d.tenParam h op t off body = body := by
  simp only [Die.tenParam, hrole, Nat.not_lt.mpr ht, Bool.false_eq_true, false_and, ↓reduceIte]

/-- The contract that CON_CREATE proposes, before its reply (R90). -/
def Die.proposed (d : Die) (h : Hdr) (ten id : Nat) (t : Terms) : Contract :=
  { id := id, ten := ten, use := d.resolve ten t, st := .awaiting, acc := d.trs.nextAcc, eff := none, reply := some (h, 0x0400),
    changes := [], release := none, verdict := none }

/-- Terms that are valid on a tenancy that takes one more contract: a dry run is answered, else the contract is taken (R88, R90). -/
theorem Die.conCreate_valid {d : Die} {ten id : Nat} {t : Terms} (hst : (d.ten ten).st = .active)
    (hvalid : d.validate ten t d.contracts = none) (hid : d.freeCon = some id)
    (hfew : (d.contracts.filter fun c => decide (c.ten = ten)).length < 8) (h : Hdr) :
    d.conCreate h ten t =
      if dryRun h then d.ok h 0x0400 [(2, id), (8, d.transom + 2)]
      else ({ d with trs := { d.trs with nextAcc := d.trs.nextAcc + 1 } }.pinBlocks (d.resolve ten t).dla).answerCon
        (d.proposed h ten id t) := by
  simp only [Die.conCreate, hst, hvalid, hid, Nat.not_le.mpr hfew, reduceCtorEq, ne_eq, not_true_eq_false, ↓reduceIte]
  rfl

/-- A change of a contract that is not demoted to valid terms joins its changes (R90). -/
theorem Die.conChange_valid {d : Die} {h : Hdr} {id : Nat} {t : Terms} {c : Contract} (hc : d.con id = some c)
    (hst : c.st ≠ .demoted) (hvalid : d.validate c.ten t (d.contracts.filter fun k => decide (k.id ≠ id)) = none)
    (hdry : dryRun h = false) :
    d.conChange h id t = (d.pinBlocks (d.resolve c.ten t).dla).answerCon
      { c with changes := c.changes ++ [{ use := d.resolve c.ten t, hdr := h, eff := none }] } := by
  simp only [Die.conChange, hc, hst, hvalid, hdry, Bool.false_eq_true, ↓reduceIte]

/-- A demoted contract whose terms are valid awaits its boundary again (R90, R100). -/
theorem Die.conReadmit_valid {d : Die} {id : Nat} {c : Contract} (hc : d.con id = some c) (hst : c.st = .demoted)
    (hvalid : d.validate c.ten c.use.t (d.contracts.filter fun k => decide (k.id ≠ id)) = none) (h : Hdr) :
    d.conReadmit h id = (d.pinBlocks c.use.dla).answerCon { c with st := .awaiting, reply := some (h, 0x0402) } := by
  simp only [Die.conReadmit, hc, hst, hvalid, ne_eq, not_true_eq_false, ↓reduceIte]

/-- A command on a contract without changes is answered once the contract's blocks are filled, effective two boundaries on (R221). -/
theorem Die.answerCon_filled {d : Die} {c : Contract} {h : Hdr} {op : Nat} (hreply : c.reply = some (h, op)) (hnone : c.changes = [])
    (hfilled : d.filled c.use = true) :
    d.answerCon c = (d.ok h op (conPay op c.id (d.transom + 2))).setCon { c with eff := some (d.transom + 2), reply := none } := by
  simp only [Die.answerCon, hreply, hfilled, hnone, ↓reduceIte, List.foldl_nil]

/-- While a block of it is still to be filled, the contract is kept with its reply open (R221). -/
theorem Die.answerCon_filling {d : Die} {c : Contract} {h : Hdr} {op : Nat} (hreply : c.reply = some (h, op)) (hnone : c.changes = [])
    (hfilling : d.filled c.use = false) : d.answerCon c = d.setCon c := by
  have hsame : { c with reply := some (h, op), changes := [] } = c := by rw [← hreply, ← hnone]
  simp only [Die.answerCon, hreply, hfilling, hnone, Bool.false_eq_true, ↓reduceIte, List.foldl_nil, hsame]

/-! ## The rows -/

section Rows

variable {s : State} {h : Hdr} {d : Die}

/-- CON_CREATE of a command that need not wait runs its body (R85). -/
theorem exec_conCreate {ten : Nat} {t : Terms} (ht : s.takesLong h 0x0400 [.f] (termsLen t) d) (hrole : d.asTenant h 0x0400 = false)
    (hten : ten ≤ 1023) (hawake : d.mustWake (.conCreate h ten t) = false) (hfree : d.conWaits = false) :
    exec (.conCreate h ten t) s = .next (s.withDie ((d.conCreate h ten t).interimIfWaiting h 0x0400)) := by
  change execConCreate h ten t s = _
  refine onCmd_leavesLong ht rfl ?_
  rw [Die.tenParam_notTenant hrole hten, Die.conCommand_runs hawake hfree]

theorem exec_conChange {con : Nat} {t : Terms} (ht : s.takesLong h 0x0401 [.f] (termsLen t) d)
    (hawake : d.mustWake (.conChange h con t) = false) (hfree : d.conWaits = false) :
    exec (.conChange h con t) s = .next (s.withDie ((d.conChange h con t).interimIfWaiting h 0x0401)) := by
  change execConChange h con t s = _
  refine onCmd_leavesLong ht rfl ?_
  rw [Die.conCommand_runs hawake hfree]

theorem exec_conReadmit {con : Nat} (ht : s.takesLong h 0x0402 [.f] 2 d) (hawake : d.mustWake (.conReadmit h con) = false)
    (hfree : d.conWaits = false) :
    exec (.conReadmit h con) s = .next (s.withDie ((d.conReadmit h con).interimIfWaiting h 0x0402)) := by
  change execConReadmit h con s = _
  refine onCmd_leavesLong ht rfl ?_
  rw [Die.conCommand_runs hawake hfree]

/-- CON_DELETE releases the contract at the next boundary; it never waits for a channel (R90). -/
theorem exec_conDelete {con : Nat} {c : Contract} (ht : s.takes h 0x0403 [.f] 2 d) (hfree : d.conWaits = false)
    (hc : d.con con = some c) :
    exec (.conDelete h con) s = .next (s.withDie
      ((d.setCon { c with release := some (d.transom + 1) }).ok h 0x0403 [(8, d.transom + 1)])) := by
  have hawake : d.mustWake (.conDelete h con) = false := rfl
  change execConDelete h con s = _
  refine onCmd_leaves ht rfl ?_
  rw [Die.conCommand_runs hawake hfree, Die.conDelete, hc]

/-- CON_QUERY answers a manager, and the tenant whose contract it is (R394). -/
theorem exec_conQuery {con : Nat} {c : Contract} (ht : s.takes h 0x0404 [.f, .t] 2 d) (hc : d.con con = some c)
    (hown : d.asTenant h 0x0404 = true → c.ten = hdrTen h) :
    exec (.conQuery h con) s =
      .next (s.withDie (d.ok h 0x0404 ([(2, c.ten), (1, conStateCode c.st)] ++ termsPay c.use.t))) := by
  have hpermitted : ¬(d.asTenant h 0x0404 = true ∧ c.ten ≠ hdrTen h) := fun hother => hother.2 (hown hother.1)
  change execConQuery h con s = _
  refine onCmd_leaves ht rfl ?_
  simp only [hc]
  exact if_neg hpermitted

/-- A block whose fill is under way is filled once its reads have issued (R221). -/
theorem exec_leafFillDone {block bay : Nat} (hr : s.runs = true) (hbay : (s.die.itr.block block).bay = some bay)
    (hfilling : (s.die.itr.block block).filling = true) (hread : s.die.fillRead bay = true) :
    exec (.leafFillDone block) s = .next (s.withDie (s.die.endFill block bay).answerFills) := by
  change execLeafFillDone block s = _
  refine onLive_leaves hr rfl ?_
  simp only [hbay, hfilling, hread, Bool.and_self, ↓reduceIte]

end Rows

/-- Settles O5: row by row; the four commands on contracts run the bodies above. -/
theorem contractCommandsComplete : Obligations.ContractCommandsComplete := by
  unfold Obligations.ContractCommandsComplete
  refine ⟨?create, ?createDry, ?change, ?readmit, ?answerFilled, ?answerFilling, ?delete, ?query, ?cap, ?defaults, ?fillDone,
    ?sweepDone⟩
  case create =>
    intro s h d ten id t ht hrole hten hawake hfree hst hvalid hid hfew hdry
    rw [exec_conCreate ht hrole hten hawake hfree, Die.conCreate_valid hst hvalid hid hfew, hdry]
    rfl
  case createDry =>
    intro s h d ten id t ht hrole hten hawake hfree hst hvalid hid hfew hdry
    rw [exec_conCreate ht hrole hten hawake hfree, Die.conCreate_valid hst hvalid hid hfew, if_pos hdry]
  case change =>
    intro s h d con t c ht hawake hfree hc hst hvalid hdry
    rw [exec_conChange ht hawake hfree, Die.conChange_valid hc hst hvalid hdry]
  case readmit =>
    intro s h d con c ht hawake hfree hc hst hvalid
    rw [exec_conReadmit ht hawake hfree, Die.conReadmit_valid hc hst hvalid]
  case answerFilled => exact fun d c h op hreply hnone hfilled => Die.answerCon_filled hreply hnone hfilled
  case answerFilling => exact fun d c h op hreply hnone hfilling => Die.answerCon_filling hreply hnone hfilling
  case delete => exact fun s h d con c ht hfree hc => exec_conDelete ht hfree hc
  case query => exact fun s h d con c ht hc hown => exec_conQuery ht hc hown
  case cap => exact fun s h d ht => (onCmd_leaves ht rfl rfl : execCapQuery h s = _)
  case defaults =>
    exact fun s h d cfg ht hcfg => (onCmd_leaves ht rfl (if_neg (Nat.not_le.mpr hcfg)) : execConDefaults h cfg s = _)
  case fillDone => exact fun s block bay hr hbay hfilling hread => exec_leafFillDone hr hbay hfilling hread
  case sweepDone => exact fun s hr hsweep => (onLive_leaves hr rfl (if_pos hsweep) : execRevalSweepDone s = _)

end Sys2Proof.Machine
end

section
/-! Memory events complete (O19): what a lane takes of its buffered stores, and one lemma per row of the statement. -/

namespace Sys2Proof.Machine

/-! ## A lane's store (R226, R231, R232) -/

/-- Once a store has left the buffer, the lane takes none of those after it. -/
theorem Die.foldl_tryStore_taken (d : Die) (es : List LaneEnt) :
    es.foldl (fun (a : Bool × Die) e => if a.1 then a else a.2.tryStore e) (true, d) = (true, d) := by
  induction es with
  | nil => rfl
  | cons e es ih => rw [List.foldl_cons, if_pos rfl, ih]

/-- A lane whose first ready store leaves the buffer takes no other; the place goes to a waiting request. -/
theorem Die.laneStore_takes {d d1 : Die} {ch : Nat} {e : LaneEnt} (hnext : d.nextStore ch = some e)
    (htake : d.tryStore e = (true, d1)) : d.laneStore ch = d1.laneRoom ch := by
  obtain ⟨rest, hready⟩ := List.head?_eq_some_iff.mp hnext
  simp only [Die.laneStore, hready, List.foldl_cons, Bool.false_eq_true, ↓reduceIte, htake, Die.foldl_tryStore_taken]

/-- A store sealed under its granule's counter: it leaves the buffer for the write queue, with the memory-side cache's copy (R226, R347). -/
def Die.putSealed (d : Die) (e : LaneEnt) (maj mnr : Nat) : Die :=
  let g := sealGranule (d.slot e.kidx).key e.kidx e.dga maj mnr e.kind e.poison e.data
  let d1 := ((d.dropEnt e).dropReads (.reenc e.dga)).queueWrite e g
  if e.cache && !e.poison && d1.bayCache e.bay then d1.storeUpdate e.dga g else d1

/-- A granule that is ready in the buffer is written as it stands. -/
theorem Die.tryStore_raw {e : LaneEnt} {g : Granule} (hraw : e.raw = some g) (d : Die) :
    d.tryStore e = (true, (d.dropEnt e).queueWrite e g) := by
  simp only [Die.tryStore, hraw]

theorem Die.tryStore_fill {e : LaneEnt} (hraw : e.raw = none) (hfill : e.fill = true) (d : Die) :
    d.tryStore e = (true, (d.dropEnt e).queueWrite e fillGranule) := by
  simp only [Die.tryStore, hraw, hfill, ↓reduceIte]

/-- A store whose counter could be raised is sealed under the raised counter. -/
theorem Die.tryStore_raised {d d1 : Die} {e : LaneEnt} {maj mnr : Nat} (hraw : e.raw = none) (hfill : e.fill = false)
    (hkey : d.hasKey e.kidx = true) (hlost : d.itr.isLost e.dga = false) (hreenc : e.reenc = false)
    (hraise : d.raiseCounter e.dga (if e.con.isSome ∨ e.group ≠ 4 then 3 else 4) e.louvre e.con = .ok maj mnr d1) :
    d.tryStore e = (true, d1.putSealed e maj mnr) := by
  simp only [Die.tryStore, hraw, hfill, hkey, hlost, hreenc, hraise, Bool.not_true, Bool.false_eq_true, ↓reduceIte]
  rfl

/-- A re-encrypted granule whose leaf is known is sealed under the leaf's major counter and minor 1, and is pending no more. -/
theorem Die.tryStore_reenc {d : Die} {e : LaneEnt} {leaf : Node} (hraw : e.raw = none) (hfill : e.fill = false)
    (hkey : d.hasKey e.kidx = true) (hlost : d.itr.isLost e.dga = false) (hreenc : e.reenc = true)
    (hleaf : d.itr.latest 0 (nodeIdx 0 e.dga) = some leaf) :
    d.tryStore e = (true, (d.clearPending (nodeIdx 0 e.dga) (slotIn e.dga)).putSealed e leaf.major 1) := by
  simp only [Die.tryStore, hraw, hfill, hkey, hlost, hreenc, hleaf, Bool.not_true, Bool.false_eq_true, ↓reduceIte]
  rfl

/-! ## The rows -/

section Rows

variable {s : State}

/-- The oldest held request of its louvre takes the entry that its channel has for it (R117, R120). -/
theorem exec_beQueueEntryTake {id : Nat} {t : Txn} (hr : s.runs = true) (ht : s.die.txn? id = some t) (hstage : t.stage = .hold)
    (holdest : s.die.oldestHeld t = true) (hmay : s.die.mayTake t.ch t.louvre = true) :
    exec (.beQueueEntryTake id) s = .next (s.withDie (s.die.passOne t false)) := by
  change execBeQueueEntryTake id s = _
  refine onLive_leaves hr rfl ?_
  simp only [ht, hstage, holdest, hmay, and_self, ↓reduceIte]

/-- The oldest request that its port holds back for a slice enters it as its newest (R121). -/
theorem exec_beCrossbarEntry {id : Nat} {t : Txn} (hr : s.runs = true) (ht : s.die.txn? id = some t) (hstage : t.stage = .port)
    (holdest : s.die.txns.any (fun u => decide (u.stage = .port) && decide (u.id < t.id) && decide (u.master = t.master) &&
      decide (homeOf u.dla = homeOf t.dla)) = false)
    (hroom : s.die.holdFull (homeOf t.dla) = false) (hinner : 6 ≤ t.master → s.die.innerRoom (homeOf t.dla) = true) :
    exec (.beCrossbarEntry id) s = .next (s.withDie
      (let d1 := s.die.dropTxn id
       { d1 with home := { d1.home with nextTxn := d1.home.nextTxn + 1 } }.order { t with id := s.die.home.nextTxn })) := by
  have hbarred : ¬(6 ≤ t.master ∧ (!s.die.innerRoom (homeOf t.dla)) = true) := by
    rintro ⟨hmaster, hno⟩
    simp only [hinner hmaster, Bool.not_true, Bool.false_eq_true] at hno
  change execBeCrossbarEntry id s = _
  refine onLive_leaves hr rfl ?_
  simp only [ht, hstage, holdest, hroom, hbarred, ne_eq, not_true_eq_false, Bool.false_eq_true, or_self, ↓reduceIte]

/-- An awake channel of a die that is not drained plans its period, the fabric clock running (R96). -/
theorem exec_channelReplan {ch overhead refresh blocked : Nat} (hr : s.runs = true) (hch : ch < 16)
    (hclock : s.die.pwr.st ≠ .sl1 true) (hsl3 : s.die.pwr.st ≠ .sl3) (hexit : s.die.pwr.st ≠ .sl3Exit)
    (hdrained : s.die.flt.drained = false) (hawake : s.die.chanAsleep ch = false) :
    exec (.channelReplan ch overhead refresh blocked) s = .next (s.withDie (s.die.replan ch overhead refresh blocked)) := by
  change execChannelReplan ch overhead refresh blocked s = _
  refine onLive_leaves hr rfl ((if_neg (Nat.not_le.mpr hch)).trans ?_)
  split
  next hst => exact absurd hst hclock
  next hst => exact absurd hst hsl3
  next hst => exact absurd hst hexit
  next => simp only [hdrained, hawake, Bool.or_self, Bool.false_eq_true, ↓reduceIte]

theorem exec_granuleReadReturn {id dga : Nat} {t : Txn} (hr : s.runs = true) (ht : s.die.txn? id = some t)
    (hexpects : s.die.expects t dga = true) (a : Arrival) :
    exec (.granuleReadReturn id dga a) s = .next (s.withDie (s.die.arrive t dga a false)) := by
  change execGranuleReadReturn id dga a s = _
  refine onLive_leaves hr rfl ?_
  simp only [ht, hexpects, ↓reduceIte]

/-- The lane of a channel in service takes its first ready store where that leaves the buffer. -/
theorem exec_laneStore {ch : Nat} {e : LaneEnt} {d1 : Die} (hr : s.runs = true) (hch : ch < 16)
    (hserved : (s.die.chan ch).excluded = false) (hnext : s.die.nextStore ch = some e) (htake : s.die.tryStore e = (true, d1)) :
    exec (.laneStore ch) s = .next (s.withDie (d1.laneRoom ch)) := by
  have hserves : ¬(16 ≤ ch ∨ (s.die.chan ch).excluded = true) := by
    simp only [hserved, Bool.false_eq_true, or_false, Nat.not_le.mpr hch, not_false_eq_true]
  change execLaneStore ch s = _
  exact onLive_leaves hr rfl ((if_neg hserves).trans (Die.laneStore_takes hnext htake))

/-- A line test that runs for a granule to be read again ends, and what the second read gave decides (R237). -/
theorem exec_lineTestDone {id dga : Nat} {t : Txn} (hr : s.runs = true) (ht : s.die.txn? id = some t)
    (hretry : t.retry.any (fun x => decide (x.1 = dga)) = true)
    (hruns : s.die.flt.tests.any (fun x => (decide (x.kind = 1) && decide (x.row = id) && decide (x.seq = dga / 64 % 65536)) &&
      x.running) = true) (a : Arrival) :
    exec (.lineTestDone id dga a) s = .next (s.withDie
      (let rest := s.die.flt.tests.filter fun x =>
         !(decide (x.kind = 1) && decide (x.row = id) && decide (x.seq = dga / 64 % 65536))
       let d1 := (({ s.die with flt := { s.die.flt with tests := rest } } : Die).closeReread (.granule id dga)).startTests
       (d1.count R.stuLineTests 1).arrive { t with retry := t.retry.filter fun x => decide (x.1 ≠ dga) } dga a true)) := by
  change execLineTestDone id dga a s = _
  refine onLive_leaves hr rfl ?_
  simp only [ht, hretry, hruns, Bool.not_true, Bool.false_eq_true, ↓reduceIte]

end Rows

/-- Settles O19: row by row; the lane's four rows by what becomes of its first ready store. -/
theorem memoryEventsComplete : Obligations.MemoryEventsComplete := by
  unfold Obligations.MemoryEventsComplete
  refine ⟨?queueEntry, ?crossbar, ?replan, ?readReturn, ?storeFill, ?storeRaw, ?storeRaised, ?storeReenc, ?lineTest⟩
  case queueEntry => exact fun s id t hr ht hstage holdest hmay => exec_beQueueEntryTake hr ht hstage holdest hmay
  case crossbar => exact fun s id t hr ht hstage holdest hroom hinner => exec_beCrossbarEntry hr ht hstage holdest hroom hinner
  case replan =>
    exact fun s ch overhead refresh blocked hr hch hclock hsl3 hexit hdrained hawake =>
      exec_channelReplan hr hch hclock hsl3 hexit hdrained hawake
  case readReturn => exact fun s id dga t a hr ht hexpects => exec_granuleReadReturn hr ht hexpects a
  case storeFill =>
    exact fun s ch e hr hch hserved hnext hraw hfill => exec_laneStore hr hch hserved hnext (Die.tryStore_fill hraw hfill _)
  case storeRaw => exact fun s ch e g hr hch hserved hnext hraw => exec_laneStore hr hch hserved hnext (Die.tryStore_raw hraw _)
  case storeRaised =>
    exact fun s ch maj mnr e d1 hr hch hserved hnext hraw hfill hkey hlost hreenc hraise =>
      exec_laneStore hr hch hserved hnext (Die.tryStore_raised hraw hfill hkey hlost hreenc hraise)
  case storeReenc =>
    exact fun s ch e leaf hr hch hserved hnext hraw hfill hkey hlost hreenc hleaf =>
      exec_laneStore hr hch hserved hnext (Die.tryStore_reenc hraw hfill hkey hlost hreenc hleaf)
  case lineTest => exact fun s id dga t a hr ht hretry hruns => exec_lineTestDone hr ht hretry hruns a

end Sys2Proof.Machine
end

section
/-! Louvre steps at a boundary (O60): the sweep over the louvres gives each louvre the step and priority of its own `e` and TARGET,
whatever louvres the sweep has passed before it. -/

namespace Sys2Proof.Machine

/-! ## One louvre's step -/

@[simp] theorem stepOf_zero (e : Nat) : stepOf e 0 = 0 := rfl

theorem stepOf_of_ne_zero {target : Nat} (h : target ≠ 0) (e : Nat) :
    stepOf e target = ([4, 5, 6, 7, 8, 10, 12].filter fun k => decide (8 * e ≥ k * target)).length := if_neg h

theorem stepOf_le_seven (e target : Nat) : stepOf e target ≤ 7 := by
  by_cases h : target = 0
  · rw [h, stepOf_zero]
    exact Nat.zero_le 7
  · rw [stepOf_of_ne_zero h]
    exact List.length_filter_le _ _

/-! ## Reading a louvre after a write -/

theorem Die.louvre_setLouvre {d : Die} (h : Tbl.wf Lv.init d.lv = true) (w v : Nat) (x : Lv) :
    (d.setLouvre w x).louvre v = if w = v then x else d.louvre v := by
  simp only [Die.louvre, Die.setLouvre, Tbl.find?_getD, Tbl.get_set _ _ _ _ _ h]

theorem Die.setLouvre_lv_wf {d : Die} (h : Tbl.wf Lv.init d.lv = true) (w : Nat) (x : Lv) :
    Tbl.wf Lv.init (d.setLouvre w x).lv = true :=
  Tbl.set_wf _ _ _ _ h

/-! ## The sweep over the louvres -/

/-- Louvre `v` as the boundary leaves it (R132, R133). -/
def Die.steppedLouvre (d : Die) (v : Nat) : Lv :=
  let x := d.louvre v
  let t := d.act (R.lvrTarget v)
  let s := stepOf x.e (fld t 15 0 * 10)
  { x with step := s, prio := max (fld t 18 16) s }

/-- The boundary's work on one louvre. -/
def Die.stepLouvre (d : Die) (v : Nat) : Die := d.setLouvre v (d.steppedLouvre v)

theorem Die.louvreBoundary_eq_foldl (d : Die) : d.louvreBoundary = (List.range 256).foldl Die.stepLouvre d := rfl

theorem Die.louvre_stepLouvre_same {d : Die} (h : Tbl.wf Lv.init d.lv = true) (v : Nat) :
    (d.stepLouvre v).louvre v = d.steppedLouvre v := by
  rw [Die.stepLouvre, Die.louvre_setLouvre h, if_pos rfl]

theorem Die.louvre_stepLouvre_other {d : Die} (h : Tbl.wf Lv.init d.lv = true) {w v : Nat} (hne : w ≠ v) :
    (d.stepLouvre w).louvre v = d.louvre v := by
  rw [Die.stepLouvre, Die.louvre_setLouvre h, if_neg hne]

theorem Die.act_stepLouvre (d : Die) (w o : Nat) : (d.stepLouvre w).act o = d.act o := rfl

/-- A louvre's step rests on its own measurement and register: another louvre's step does not change it. -/
theorem Die.steppedLouvre_stepLouvre_other {d : Die} (h : Tbl.wf Lv.init d.lv = true) {w v : Nat} (hne : w ≠ v) :
    (d.stepLouvre w).steppedLouvre v = d.steppedLouvre v := by
  simp only [Die.steppedLouvre, Die.louvre_stepLouvre_other h hne, Die.act_stepLouvre]

/-- A sweep that meets each louvre at most once steps those on its list and leaves the others. -/
theorem Die.louvre_foldl_stepLouvre {l : List Nat} (hl : l.Nodup) (v : Nat) {d : Die} (h : Tbl.wf Lv.init d.lv = true) :
    (l.foldl Die.stepLouvre d).louvre v = if v ∈ l then d.steppedLouvre v else d.louvre v := by
  induction l generalizing d with
  | nil => rfl
  | cons w l ih =>
    obtain ⟨hw, hrest⟩ := List.nodup_cons.mp hl
    have hsweep := ih hrest (d := d.stepLouvre w) (Die.setLouvre_lv_wf h w _)
    rw [List.foldl_cons, hsweep]
    by_cases hwv : w = v
    · subst hwv
      rw [if_neg hw, if_pos List.mem_cons_self, Die.louvre_stepLouvre_same h]
    · simp only [Die.steppedLouvre_stepLouvre_other h hwv, Die.louvre_stepLouvre_other h hwv, List.mem_cons, Ne.symm hwv,
        false_or]

theorem Die.louvre_louvreBoundary {d : Die} (h : Tbl.wf Lv.init d.lv = true) {v : Nat} (hv : v < 256) :
    d.louvreBoundary.louvre v = d.steppedLouvre v := by
  rw [Die.louvreBoundary_eq_foldl, Die.louvre_foldl_stepLouvre List.nodup_range v h, if_pos (List.mem_range.mpr hv)]

/-- Settles O60: the boundary leaves each louvre stepped by its own `e` and TARGET. -/
theorem louvreStepCountsThresholds : Obligations.LouvreStepCountsThresholds := by
  unfold Obligations.LouvreStepCountsThresholds
  intro d v hv hwf e target x
  have hx : x = d.steppedLouvre v := Die.louvre_louvreBoundary hwf hv
  have hstep : x.step = stepOf e target := congrArg Lv.step hx
  have hprio : x.prio = max (fld (d.act (R.lvrTarget v)) 18 16) (stepOf e target) := congrArg Lv.prio hx
  rw [hprio, hstep]
  refine ⟨fun hzero => ?_, fun hpos => stepOf_of_ne_zero hpos e, stepOf_le_seven e target, rfl⟩
  rw [hzero, stepOf_zero]

end Sys2Proof.Machine
end

section
/-! Coherent messages complete (O17): what an FCX message outside standard domains means, and what the home does with a member's
snoop response and conflict. -/

namespace Sys2Proof.Machine

/-! ## Messages whose COH governs (R152, R153) -/

/-- On an FCX port's message to an entry of no standard domain COH alone gives the meaning. -/
theorem Die.msgMeaning_coh {d : Die} {m : M2S} {coh e : Nat} (hfcx : d.portFcx m.port = true) (hcoh : coh ≠ 0)
    (hstd : d.stdEntry e = false) (c : MsgCls) : d.msgMeaning m c coh e = cohMsg c coh := by
  simp only [Die.msgMeaning, hfcx, hcoh, hstd, ne_eq, not_false_eq_true, and_self, Bool.false_eq_true, ↓reduceIte]

/-- Such a message is served by the meaning of its COH. -/
theorem onLive_m2s_coh {s : State} {m : M2S} {c : MsgCls} {d : Die} {ten e coh : Nat} (h : s.serves m c.carriesData d ten e)
    (hfcx : d.portFcx m.port = true) (hcoh : coh ≠ 0) (hstd : d.stdEntry e = false) (data : Line) (mask : BitVec 64) :
    onLive s (fun d => d.m2s m c coh data mask) =
      .next (s.withDie (d.serveMsg m c coh ten e data mask (cohMsg c coh))) := by
  rw [onLive_runs h.1, Die.m2s_serves h, Die.msgMeaning_coh hfcx hcoh hstd, State.withDie]

/-- The messages that exist on FCX ports only act there (R152). -/
theorem onLive_fcxPort {s : State} {p : Nat} (hr : s.runs = true) (hfcx : s.die.portFcx p = true) (f : Die → Die) :
    onLive s (fun d => if d.portFcx p then f d else d) = onLive s f := by
  rw [onLive_runs hr, onLive_runs hr, if_pos hfcx]

/-! ## Back-invalidate messages (R154, R178, R189) -/

section Rows

variable {s : State} {m : M2S}

/-- A port that serves memory on a device out of doorstop is not shut out. -/
theorem biGuard_passes {d : Die} {p : Nat} (hport : d.portReady p = true) (hstop : d.flt.doorstop = false) :
    ¬((!d.portReady p) = true ∨ d.flt.doorstop = true) := by
  simp only [hport, hstop, Bool.not_true, Bool.false_eq_true, or_self, not_false_eq_true]

/-- A member's response of the current generation for a line of a domain that is not DOWN reaches the line. -/
theorem exec_biRsp {n dla t : Nat} (hr : s.runs = true) (hport : s.die.portReady m.port = true) (hstop : s.die.flt.doorstop = false)
    (hline : (s.die.arrival m.port).memberLine m = some (n, dla, t)) (hup : (s.die.arrival m.port).domDown n = false)
    (hgen : ¬((s.die.arrival m.port).domFcx n = true ∧ m.ext.gen ≠ ((s.die.arrival m.port).ten t).gen)) (rsp : Rsp) (dirty : Bool) :
    exec (.biRsp m rsp dirty) s = .next (s.withDie ((s.die.arrival m.port).laneRsp dla m.port t m.ta rsp dirty)) := by
  change execBiRsp m rsp dirty s = _
  refine onLive_leaves hr rfl ((if_neg (biGuard_passes hport hstop)).trans ?_)
  simp only [hline, hup, hgen, Bool.false_eq_true, or_self, ↓reduceIte]

/-- A standard-mode member's conflict is owed its acknowledgement. -/
theorem exec_biConflict {n dla t : Nat} (hr : s.runs = true) (hport : s.die.portReady m.port = true)
    (hstop : s.die.flt.doorstop = false) (hline : (s.die.arrival m.port).memberLine m = some (n, dla, t))
    (hup : (s.die.arrival m.port).domDown n = false) (hstd : (s.die.arrival m.port).domFcx n = false) :
    exec (.biConflict m) s = .next (s.withDie
      (let d := s.die.arrival m.port
       { d with home := { d.home with conflicts := d.home.conflicts ++ [(m.port, m.ta / 64 * 64)] } })) := by
  change execBiConflict m s = _
  refine onLive_leaves hr rfl ((if_neg (biGuard_passes hport hstop)).trans ?_)
  simp only [hline, hup, hstd, Bool.false_eq_true, ↓reduceIte]

end Rows

/-- Settles O17: the coherent messages by their COH, the back-invalidate messages by the line they name. -/
theorem coherentMessagesComplete : Obligations.CoherentMessagesComplete := by
  unfold Obligations.CoherentMessagesComplete
  refine ⟨?reads, ?writeLane, ?readLane, ?response, ?conflict, ?conflictAck⟩
  case reads =>
    intro s m d ten e h hfcx hstd
    have hserved (coh : Nat) (hcoh : coh ≠ 0) := onLive_m2s_coh (c := .rd) h hfcx hcoh hstd 0 0
    exact ⟨hserved 1 (by decide), hserved 2 (by decide), hserved 3 (by decide), hserved 4 (by decide)⟩
  case writeLane =>
    intro s m d ten e data h hfcx hport hstd
    have hserved (coh : Nat) (hcoh : coh ≠ 0) := onLive_m2s_coh (c := .wr) h hfcx hcoh hstd data 0
    exact ⟨hserved 5 (by decide), (onLive_fcxPort h.1 hport _).trans (hserved 8 (by decide))⟩
  case readLane =>
    intro s m d ten e h hfcx hport hstd
    have hserved (coh : Nat) (hcoh : coh ≠ 0) :=
      (onLive_fcxPort h.1 hport _).trans (onLive_m2s_coh (c := .rd) h hfcx hcoh hstd 0 0)
    exact ⟨hserved 6 (by decide), hserved 7 (by decide)⟩
  case response =>
    exact fun s m rsp dirty n dla t hr hport hstop hline hup hgen => exec_biRsp hr hport hstop hline hup hgen rsp dirty
  case conflict => exact fun s m n dla t hr hport hstop hline hup hstd => exec_biConflict hr hport hstop hline hup hstd
  case conflictAck =>
    exact fun s m hr hport howed => (onLive_leaves hr rfl (if_pos ⟨hport, howed⟩) : execBiConflictAck m s = _)

end Sys2Proof.Machine
end

section
/-! Directory events complete (O18): what the home makes of each event whose conditions hold, and the statement row by row. -/

namespace Sys2Proof.Machine

/-! ## Directory sets and waiting requests (R166, R181, R188) -/

/-- A clean set that returns loads, and the request that asked for it is served with what the line's Busy entry kept. -/
theorem Die.directoryFetched_clean {d : Die} {dla n : Nat} {t : Txn}
    (ht : d.txns.find? (fun t => decide (t.stage = .dirFetch) && decide (t.dla / 64 = dla / 64) &&
      !d.hbmWaits (.dirFetch (dla / 64 * 64))) = some t)
    (hdom : ((d.dirLoad dla).clearBusy dla).domOf dla = some n) :
    d.directoryFetched dla .clean =
      ((d.dirLoad dla).clearBusy dla).serve n t (((d.busyOf dla).map (·.kept)).getD []) := by
  simp only [Die.directoryFetched, ht, reduceCtorEq, ↓reduceIte, hdom]

/-- The oldest waiting request of a line that nothing holds goes on: to its domain's home, or past it. -/
theorem Die.startWaiting_starts {d : Die} {dla : Nat} {t : Txn}
    (ht : (d.startRecalls dla).txns.find? (fun t => decide (t.stage = .waitlist) && decide (t.dla / 64 = dla / 64)) = some t)
    (hidle : ((d.startRecalls dla).busyOf dla).any (fun b => decide (b.txn = some t.id)) = false)
    (hbay : (d.startRecalls dla).bayLost t = false) (hfree : (d.startRecalls dla).lineBlocked t = false) :
    d.startWaiting dla = match (d.startRecalls dla).domOf t.dla with
      | some n => (d.startRecalls dla).coh n t
      | none => (d.startRecalls dla).passOne t false := by
  cases hdom : (d.startRecalls dla).domOf t.dla with
  | some n => simp only [Die.startWaiting, ht, hidle, hbay, hfree, hdom, Bool.false_eq_true, ↓reduceIte]
  | none => simp only [Die.startWaiting, ht, hidle, hbay, hfree, hdom, Bool.false_eq_true, ↓reduceIte]

/-! ## Silent members (R186, R187) -/

/-- A late response or CompAck of port `p` is counted, raised as an event and marked for those who wait for it. -/
def Die.noteLate (d : Die) (dla p : Nat) : Die :=
  ((d.count (R.chaSnpLate (homeOf dla)) 1).event (R.chaEvent (homeOf dla)) 3).markHostLate dla p

theorem Die.snoopLate_ack {d : Die} {dla p due : Nat} {b : Busy} (hb : d.busyOf dla = some b)
    (hack : b.ack = some (p, some due, false)) (hdue : due + 50 ≤ d.time) :
    d.snoopLate dla p = (d.setBusy { b with ack := some (p, some due, true) }).noteLate dla p := by
  simp only [Die.snoopLate, hb, hack, hdue, and_self, ↓reduceIte]
  rfl

theorem Die.snoopLate_response {d : Die} {dla p : Nat} {b : Busy} (hb : d.busyOf dla = some b) (hack : b.ack = none)
    (hlate : b.snoops.any (fun x => decide (x.port = p) && !b.answered x && !x.late && decide (x.due + 50 ≤ d.time)) = true) :
    d.snoopLate dla p =
      (d.setBusy { b with snoops := b.snoops.map fun x => if x.port = p then { x with late := true } else x }).noteLate dla p := by
  simp only [Die.snoopLate, hb, hack, hlate, ↓reduceIte]
  rfl

/-- A response past its time-out takes the domain down with cause 1. -/
theorem Die.memberTimeout_response {d : Die} {dla p : Nat} {b : Busy} (hb : d.busyOf dla = some b) (hack : b.ack = none)
    (hover : b.snoops.any (fun x => decide (x.port = p) && !b.answered x && decide (d.timeoutAt b.dom x.due ≤ d.time)) = true) :
    d.memberTimeout dla p = (d.markHostLate dla p).domainDown b.dom 1 p := by
  simp only [Die.memberTimeout, hb, hack, hover, ↓reduceIte]

/-- A CompAck past its time-out takes the domain down with cause 2. -/
theorem Die.memberTimeout_ack {d : Die} {dla p due : Nat} {late : Bool} {b : Busy} (hb : d.busyOf dla = some b)
    (hack : b.ack = some (p, some due, late)) (hover : d.timeoutAt b.dom due ≤ d.time) :
    d.memberTimeout dla p = (d.markHostLate dla p).domainDown b.dom 2 p := by
  simp only [Die.memberTimeout, hb, hack, hover, and_self, ↓reduceIte]

/-! ## Sweeps (R145, R146, R192) -/

/-- The lines that sweep `x` has read in the transom under way. -/
def Die.sweepUsed (d : Die) (x : Sweep) : Nat := if x.last.1 = d.transom then x.last.2 else 0

/-- The lines that its next step reads: of those left, at most 320 a transom. -/
def Die.sweepLines (d : Die) (x : Sweep) : Nat := min (320 - d.sweepUsed x) x.linesLeft

/-- What a step of sweep `x` leaves once it has read `n` lines: the sweep that much further, and what it wants there recalled. -/
def Die.sweptOn (d : Die) (i : Nat) (x : Sweep) (used n : Nat) : Die :=
  let pos := dirLines - x.linesLeft
  let here (k : Nat) : Bool := decide (x.linesLeft = 0) ||
    (decide (pos / 2 ≤ hbmPlace (k * 64)) && decide (hbmPlace (k * 64) < (pos + n) / 2))
  let d1 := d.setSweep i { x with linesLeft := x.linesLeft - n, last := (d.transom, used + n) }
  (d1.home.dir.filter fun (e : Nat × DirEnt) => here e.1 && x.wants e.1 e.2).foldl
    (fun (d : Die) (e : Nat × DirEnt) => d.recall (e.1 * 64)) d1

/-- A sweep that recalls goes on by the lines it may read, its reads taken by the HBM controller. -/
theorem Die.sweepStep_recalls {d d1 : Die} {i : Nat} {x : Sweep} (hx : d.home.sweeps.find? i = some x) (hclear : x.clear = false)
    (hqueue : d.sweepWaits = false) (hroom : x.linesLeft ≠ 0 → d.sweepLines x ≠ 0)
    (hread : (if d.sweepLines x = 0 then (true, d)
      else d.hbm 3 0 (dirLineAddr (dirLines - x.linesLeft)) 14 false (.sweep (d.sweepLines x))) = (true, d1)) :
    d.sweepStep i = d1.sweptOn i x (d.sweepUsed x) (d.sweepLines x) := by
  have hmay : ¬((x.linesLeft ≠ 0 ∧ d.sweepLines x = 0) ∨ d.sweepWaits = true) := by
    rintro (⟨hleft, hnone⟩ | hwaits)
    · exact hroom hleft hnone
    · simp only [hqueue, Bool.false_eq_true] at hwaits
  have hrecalls : ¬x.clear = true := by simp only [hclear, Bool.false_eq_true, not_false_eq_true]
  unfold Die.sweepLines Die.sweepUsed at hmay hread
  simp only [Die.sweepStep, hx, if_neg hmay, hread, if_neg hrecalls, Bool.not_true, Bool.false_eq_true, ↓reduceIte]
  rfl

/-- A bay's sweep that is over lets the bay's removal go on to its fence (R147). -/
theorem Die.sweepDone_bay {d : Die} {i bay : Nat} {x : Sweep} {o : BayOp} (hx : d.home.sweeps.find? i = some x)
    (hover : d.sweepOver x = true) (hcmd : x.cmd = none) (hbay : x.bay = some bay) (ho : (d.dropSweep i).bayOp? bay = some o)
    (hphase : o.phase = .recall) : d.sweepDone i = (d.dropSweep i).setBayOp { o with phase := .fence } := by
  simp only [Die.sweepDone, hx, hover, hcmd, hbay, ho, hphase, Bool.not_true, Bool.false_eq_true, ↓reduceIte]

/-- Settles O18: each event runs its operation on the die, and the operation's rule says what it leaves. -/
theorem directoryEventsComplete : Obligations.DirectoryEventsComplete := by
  unfold Obligations.DirectoryEventsComplete
  refine ⟨?fetchReturn, ?waitlistStart, ?lateAck, ?lateResponse, ?responseTimeout, ?ackTimeout, ?sweepStep, ?sweepDone⟩
  case fetchReturn =>
    exact fun s dla n t hr ht hdom =>
      (onLive_leaves hr rfl (Die.directoryFetched_clean ht hdom) : execDirectoryFetchReturn dla .clean s = _)
  case waitlistStart =>
    exact fun s dla t hr ht hidle hbay hfree =>
      (onLive_leaves hr rfl (Die.startWaiting_starts ht hidle hbay hfree) : execWaitlistStart dla s = _)
  case lateAck =>
    exact fun s dla p due b hr hb hack hdue =>
      (onLive_leaves hr rfl (Die.snoopLate_ack hb hack hdue) : execSnoopLate dla p s = _)
  case lateResponse =>
    exact fun s dla p b hr hb hack hlate =>
      (onLive_leaves hr rfl (Die.snoopLate_response hb hack hlate) : execSnoopLate dla p s = _)
  case responseTimeout =>
    exact fun s dla p b hr hb hack hover =>
      (onLive_leaves hr rfl (Die.memberTimeout_response hb hack hover) : execMemberTimeout dla p s = _)
  case ackTimeout =>
    exact fun s dla p due late b hr hb hack hover =>
      (onLive_leaves hr rfl (Die.memberTimeout_ack hb hack hover) : execMemberTimeout dla p s = _)
  case sweepStep =>
    exact fun s i x d hr hx hclear hqueue hroom hread =>
      (onLive_leaves hr rfl (Die.sweepStep_recalls hx hclear hqueue hroom hread) : execDirectorySweepStep i s = _)
  case sweepDone =>
    exact fun s i bay x o hr hx hover hcmd hbay ho hphase =>
      (onLive_leaves hr rfl (Die.sweepDone_bay hx hover hcmd hbay ho hphase) : execDirectorySweepDone i s = _)

end Sys2Proof.Machine
end

section
/-! Key and domain commands complete (O6): what the commands' bodies do when none of their checks refuses, and one lemma per row of
the statement. -/

namespace Sys2Proof.Machine

/-! ## Rules of the key and domain commands -/

/-- A command that names a tenancy in use goes on to its body. -/
theorem Die.withTen_used {d : Die} {t : Nat} (ht : t ≤ 1023) (hused : (d.ten t).st ≠ .free) (h : Hdr) (op : Nat) (body : Die) :
    d.withTen h op t body = body := by
  simp only [Die.withTen, Nat.not_lt.mpr ht, hused, or_self, ↓reduceIte]

/-- A tenancy that may join the domain joins by commits: an entry for each of the domain's bays, then the domain's table (R144). -/
theorem Die.domJoin_commits {d : Die} {n t : Nat} {list : List Nat}
    (hport : (d.members n ++ d.joining n).any (fun m => decide (m.1 = d.tenPort t)) = false) (hst : (d.ten t).st = .active)
    (hmember : d.domOfTen t = none)
    (hjoining : (List.range 64).any (fun k => (d.joining k).any fun m => decide (m.2 = t)) = false)
    (hmode : ¬(d.domFcx n ∧ !(d.port (d.tenPort t)).fcxActive)) (hlen : list.length = (d.domBaysSoon n).length)
    (htake : (d.takeIndices t 21 2 true list).2 = none) (h : Hdr) :
    d.domJoin h n t list = (d.interim h 0x0601).domCommits (.domJoin h n t list)
      ((d.domBaysSoon n).zipWith (fun b i => ((d.futureSeg t).1 + i,
        { (d.domEntry n b) with ten := t, st := .fenced, inDom := true, dom := n }, false)) (d.takeIndices t 21 2 true list).1)
      (domWrites n (d.domFcx n) (d.domSnpTo n) (d.members n ++ [(d.tenPort t, t)])) := by
  simp only [Die.domJoin, hport, hst, hmember, hjoining, hmode, hlen, htake, Option.isSome_none, Bool.false_eq_true, ne_eq,
    not_true_eq_false, or_self, ↓reduceIte]

/-- Place `i` of DOM_ADD_BAY's list names one of `others`, not named at an earlier place, and a free index of its segment. -/
def Die.placeOk (d : Die) (others list : List (Nat × Nat)) (i : Nat) : Prop :=
  others.any (fun (m : Nat × Nat) => decide (m.2 = (list.getD i (0, 0)).1)) = true ∧
  (list.take i).any (fun (x : Nat × Nat) => decide (x.1 = (list.getD i (0, 0)).1)) = false ∧
  (d.takeIndices (list.getD i (0, 0)).1 (25 + 4 * i) 0 false [(list.getD i (0, 0)).2]).2 = none

/-- The members and joiners of domain `n` but for the bay's owner. -/
def Die.otherMembers (d : Die) (n owner : Nat) : List (Nat × Nat) :=
  (d.members n ++ d.joining n).filter fun (m : Nat × Nat) => decide (m.2 ≠ owner)

/-- A bay that may join the domain joins by commits: the owner's entry changed, one more for each other member (R147). -/
theorem Die.domAddBay_commits {d : Die} {n owner e : Nat} {list : List (Nat × Nat)}
    (hplaces : ∀ i < list.length, d.placeOk (d.otherMembers n owner) list i) (hlen : list.length = (d.otherMembers n owner).length)
    (hlive : (d.bt e).st = .live) (hout : (d.bt e).inDom = false) (hring : d.holdsRing e = false) (hlog : d.holdsLog e none = false)
    (hclass : d.classBars e = false) (hidle : d.tenRunning owner = false) (h : Hdr) :
    d.domAddBay h n owner e list =
      let b1 : Bt := { (d.bt e) with inDom := true, dom := n }
      d.domCommits (.domAddBay h n owner (e - d.segBase owner) list)
        ((e, b1, true) :: list.map fun x => ((d.futureSeg x.1).1 + x.2, { b1 with ten := x.1 }, false)) [] := by
  have hnamed : (List.range list.length).find? (fun i =>
      !((d.otherMembers n owner).any fun (m : Nat × Nat) => decide (m.2 = (list.getD i (0, 0)).1)) ||
        (list.take i).any fun (x : Nat × Nat) => decide (x.1 = (list.getD i (0, 0)).1)) = none := by
    refine List.find?_eq_none.mpr fun i hi => ?_
    obtain ⟨hmember, hfirst, -⟩ := hplaces i (List.mem_range.mp hi)
    simp only [hmember, hfirst, Bool.not_true, Bool.or_self, Bool.false_eq_true, not_false_eq_true]
  have hfree : (List.range list.length).findSome? (fun i =>
      (d.takeIndices (list.getD i (0, 0)).1 (25 + 4 * i) 0 false [(list.getD i (0, 0)).2]).2) = none := by
    refine List.findSome?_eq_none_iff.mpr fun i hi => ?_
    obtain ⟨-, -, hplace⟩ := hplaces i (List.mem_range.mp hi)
    exact hplace
  have hall : ¬list.length ≠ (d.otherMembers n owner).length := fun hne => hne hlen
  have hjoins : ¬((d.bt e).st ≠ .live ∨ (d.bt e).inDom = true) := by
    simp only [hlive, hout, ne_eq, not_true_eq_false, Bool.false_eq_true, or_self, not_false_eq_true]
  unfold Die.otherMembers at hnamed hall
  simp only [Die.domAddBay, hnamed, if_neg hall, if_neg hjoins, hring, hlog, hclass, hidle, hfree, Bool.or_self, Bool.false_eq_true,
    ↓reduceIte]

/-! ## The rows -/

section Rows

variable {s : State} {h : Hdr} {d : Die}

/-- A list of indices, none of them in the list of a tenancy outside the domain, becomes the tenancy's allowed list (R256). -/
theorem exec_keyAllow {ten : Nat} {list : List Nat} (ht : s.takes h 0x0500 [.f] (4 + 2 * list.length) d) (hten : ten ≤ 1023)
    (hused : (d.ten ten).st ≠ .free) (hlen : list.length ≤ 16)
    (hrange : (List.range list.length).find? (fun i => decide (4095 < list.getD i 0)) = none)
    (hkeys : list.find? (d.keyElsewhere ten) = none) :
    exec (.keyAllow h ten list) s = .next (s.withDie
      ({ d with keys := { d.keys with allowed := d.keys.allowed.set [] ten list } }.ok h 0x0500 [])) := by
  change execKeyAllow h ten list s = _
  refine onCmd_leaves ht rfl ((Die.withTen_used hten hused ..).trans ?_)
  simp only [Nat.not_lt.mpr hlen, hrange, hkeys, ↓reduceIte]

/-- A retirement that nothing refuses starts at the next boundary (R262, R264). -/
theorem exec_keyRetire {a mode phys target : Nat} {list : List (Nat × Nat)} (ht : s.takes h 0x0501 [.f] (8 + 4 * list.length) d)
    (ha : a ≤ 4095) (hmode : mode ≤ 1) (hphys : phys ≤ 1) (htarget : mode = 0 → target ≤ 4095)
    (hok : d.retireRefused a (decide (mode = 1)) target list = none) :
    exec (.keyRetire h a mode phys target list) s = .next (s.withDie
      ((d.addRetire a (decide (mode = 1)) (decide (phys = 1)) target list none).ok h 0x0501 [(8, d.transom + 1)])) := by
  have hindex : ¬(mode = 0 ∧ 4095 < target) := fun hbad => Nat.not_lt.mpr (htarget hbad.1) hbad.2
  change execKeyRetire h a mode phys target list s = _
  refine onCmd_leaves ht rfl ?_
  simp only [Nat.not_lt.mpr ha, Nat.not_lt.mpr hmode, Nat.not_lt.mpr hphys, hindex, hok, ↓reduceIte]

/-- What KEY_QUERY adds of an index's retirement (R276). -/
def Die.retirePay (d : Die) (k : Nat) : List PayVal :=
  match d.retire? k with
  | some r => [(4, (d.retA r).toNat), (4, r.b.toNat)]
  | none => [(4, 0), (4, 0)]

/-- KEY_QUERY answers the slot and its retirement. -/
theorem exec_keyQuery {k : Nat} (ht : s.takes h 0x0502 [.f, .k, .s] 2 d) (hk : k ≤ 4095) :
    exec (.keyQuery h k) s = .next (s.withDie
      (d.ok h 0x0502 ([(4, (d.slotLo k).toNat), (4, (d.slotHi k).toNat)] ++ d.retirePay k))) := by
  change execKeyQuery h k s = _
  exact onCmd_leaves ht rfl (if_neg (Nat.not_lt.mpr hk))

/-- DOM_CREATE of members that can be ones asks for the table of the domain named, or of the lowest free one (R142, R143). -/
theorem exec_domCreate {dom n snpTo : Nat} {members : List Nat} (ht : s.takes h 0x0600 [.f] (5 + 2 * members.length) d)
    (hdom : dom ≤ 63 ∨ dom = 0xff) (hto : snpTo ≤ 1023) (hlen : members.length ≤ 6)
    (hnamed : dom ≠ 0xff → d.domTaken dom = false ∧ n = dom)
    (hlowest : dom = 0xff → (List.range 64).find? (fun n => !d.domTaken n) = some n) (hmembers : d.membersBad n 21 members = none) :
    exec (.domCreate h dom snpTo members) s = .next (s.withDie (d.commit .dom (some (.domCreate h n snpTo members))
      (domWrites n (d.domMode members) snpTo (d.withPorts members)))) := by
  have hrange : ¬(63 < dom ∧ dom ≠ 0xff) := by omega
  have hfree : ¬(dom ≠ 0xff ∧ d.domTaken dom = true) := by
    rintro ⟨hne, htaken⟩
    simp only [(hnamed hne).1, Bool.false_eq_true] at htaken
  have hchosen : (if dom = 0xff then (List.range 64).find? fun n => !d.domTaken n else some dom) = some n := by
    split
    next hany => exact hlowest hany
    next hne => rw [(hnamed hne).2]
  change execDomCreate h dom snpTo members s = _
  refine onCmd_leaves ht rfl ?_
  simp only [if_neg hrange, Nat.not_lt.mpr hto, Nat.not_lt.mpr hlen, if_neg hfree, hchosen, hmembers, ↓reduceIte]

/-- DOM_JOIN of an active tenancy to an UP domain runs its body. -/
theorem exec_domJoin {dom ten : Nat} {list : List Nat} (ht : s.takesLong h 0x0601 [.f] (5 + 2 * list.length) d)
    (hup : d.needUp dom = none) (hten : ten ≤ 1023) (hst : (d.ten ten).st = .active) :
    exec (.domJoin h dom ten list) s = .next (s.withDie (d.domJoin h dom ten list)) := by
  change execDomJoin h dom ten list s = _
  refine onCmd_leavesLong ht rfl ?_
  simp only [hup, Nat.not_lt.mpr hten, hst, reduceCtorEq, or_self, ↓reduceIte]

/-- A member leaves a domain of three or more by the sweep of its port's lines (R145). -/
theorem exec_domLeave {dom ten p : Nat} (ht : s.takesLong h 0x0602 [.f] 3 d) (hup : d.needUp dom = none)
    (hmember : d.memberOf dom ten = some p) (hmany : 2 < (d.members dom).length)
    (hkeys : d.keyShared ((d.members dom).map Prod.snd) (fun t u => decide (t = ten ∨ u = ten)) = none) :
    exec (.domLeave h dom ten) s = .next (s.withDie
      (((d.setDomStat dom (3, 0, 7)).sweepFor dom (some p) false (.domLeave h dom ten)).interim h 0x0602)) := by
  change execDomLeave h dom ten s = _
  refine onCmd_leavesLong ht rfl ?_
  simp only [hup, hmember, Nat.not_le.mpr hmany, hkeys, ↓reduceIte]

/-- A member destroys its domain by the sweep of all its lines (R145). -/
theorem exec_domDestroy {dom ten p : Nat} (ht : s.takesLong h 0x0603 [.f] 3 d) (hup : d.needUp dom = none)
    (hmember : d.memberOf dom ten = some p)
    (hkeys : d.keyShared ((d.members dom).map Prod.snd) (fun _ _ => true) = none) :
    exec (.domDestroy h dom ten) s = .next (s.withDie
      (((d.setDomStat dom (3, 0, 7)).sweepFor dom none false (.domDestroy h dom ten)).interim h 0x0603)) := by
  change execDomDestroy h dom ten s = _
  refine onCmd_leavesLong ht rfl ?_
  simp only [hup, hmember, hkeys]

/-- A DOWN domain is rebuilt by the sweep that clears its lines (R192). -/
theorem exec_domRebuild {dom : Nat} {members : List Nat} (ht : s.takesLong h 0x0604 [.f] (3 + 2 * members.length) d)
    (hdom : dom ≤ 63) (hexists : (d.domStat dom).1 ≠ 0) (hdown : d.domDown dom = true) (hidle : d.rebuilding dom = false)
    (hlen : members.length ≤ 6) (hmembers : d.membersBad dom 19 members = none) (hroom : d.rebuildFull dom members = none)
    (hkeys : d.keyShared (((d.members dom).map Prod.snd ++ members).eraseDups)
      (fun t u => !(members.contains t && members.contains u)) = none) :
    exec (.domRebuild h dom members) s = .next (s.withDie
      ((d.sweepFor dom none true (.domRebuild h dom members)).interim h 0x0604)) := by
  change execDomRebuild h dom members s = _
  refine onCmd_leavesLong ht rfl ?_
  simp only [Nat.not_lt.mpr hdom, hexists, hdown, hidle, Nat.not_lt.mpr hlen, hmembers, hroom, hkeys, Bool.not_true,
    Bool.false_eq_true, or_self, ↓reduceIte]

/-- DOM_ADD_BAY of a member's bay to an UP domain runs its body. -/
theorem exec_domAddBay {dom owner bay e : Nat} {list : List (Nat × Nat)} (ht : s.takes h 0x0605 [.f] (7 + 4 * list.length) d)
    (hup : d.needUp dom = none) (howner : (d.members dom).any (fun (m : Nat × Nat) => decide (m.2 = owner)) = true)
    (he : d.bayEntry owner bay = some e) :
    exec (.domAddBay h dom owner bay list) s = .next (s.withDie (d.domAddBay h dom owner e list)) := by
  change execDomAddBay h dom owner bay list s = _
  refine onCmd_leaves ht rfl ?_
  simp only [hup, howner, he, Bool.not_true, Bool.false_eq_true, ↓reduceIte]

end Rows

/-- Settles O6: row by row; a join and a bay's addition end in their commits. -/
theorem keyAndDomainCommandsComplete : Obligations.KeyAndDomainCommandsComplete := by
  unfold Obligations.KeyAndDomainCommandsComplete
  refine ⟨?allow, ?retire, ?query, ?queryRetiring, ?create, ?join, ?leave, ?destroy, ?rebuild, ?addBay, ?domQuery⟩
  case allow => exact fun s h d ten list ht hten hused hlen hrange hkeys => exec_keyAllow ht hten hused hlen hrange hkeys
  case retire =>
    exact fun s h d a mode phys target list ht ha hmode hphys htarget hok => exec_keyRetire ht ha hmode hphys htarget hok
  case query =>
    intro s h d k ht hk hnone
    rw [exec_keyQuery ht hk, Die.retirePay, hnone]
    rfl
  case queryRetiring =>
    intro s h d k r ht hk hr
    rw [exec_keyQuery ht hk, Die.retirePay, hr]
    rfl
  case create =>
    exact fun s h d dom n snpTo members ht hdom hto hlen hnamed hlowest hmembers =>
      exec_domCreate ht hdom hto hlen hnamed hlowest hmembers
  case join =>
    intro s h d dom ten list ht hup hten hst hport hmember hjoining hmode hlen htake entry
    rw [exec_domJoin ht hup hten hst, Die.domJoin_commits hport hst hmember hjoining hmode hlen htake]
  case leave => exact fun s h d dom ten p ht hup hmember hmany hkeys => exec_domLeave ht hup hmember hmany hkeys
  case destroy => exact fun s h d dom ten p ht hup hmember hkeys => exec_domDestroy ht hup hmember hkeys
  case rebuild =>
    exact fun s h d dom members ht hdom hexists hdown hidle hlen hmembers hroom hkeys =>
      exec_domRebuild ht hdom hexists hdown hidle hlen hmembers hroom hkeys
  case addBay =>
    intro s h d dom owner bay e list ht hup howner he others hplaces hlen hlive hout hring hlog hclass hidle c b1
    rw [exec_domAddBay ht hup howner he, Die.domAddBay_commits hplaces hlen hlive hout hring hlog hclass hidle]
  case domQuery =>
    exact fun s h d dom ht hdom => (onCmd_leaves ht rfl (if_neg (Nat.not_lt.mpr hdom)) : execDomQuery h dom s = _)

end Sys2Proof.Machine
end

section
/-! Integrity events complete (O20), an unwritten granule reads as zeros (O56) and a sealed granule opens (O57): what the tree walker's
operations do in each case, the verdict on a granule as it was sealed, and the statements assembled from them. -/

namespace Sys2Proof.Machine

/-! ## A node's read (R212, R219, R220, R237) -/

section NodeReads

variable {d : Die} {level idx : Nat} {p : Node} {a : NodeArrival}

/-- A read of an interior node that verifies is taken in, unless it is a line test or the decoder corrected it. -/
theorem Die.homeReturn_verifies {ph : Nat} (hlevel : level ≠ 0) (hph : ph ≠ phAgain) (hchk : a.chk ≠ .corrected)
    (hok : d.nodeOk level idx p ((d.itr.home.find? (nodeKey level idx)).getD Stored.blank) a = true) :
    d.homeReturn level idx ph p a =
      d.nodeGood (nodeKey level idx) ((d.itr.home.find? (nodeKey level idx)).getD Stored.blank) false := by
  simp only [Die.homeReturn, hlevel, hph, hchk, hok, false_and, and_false, decide_false, ↓reduceIte]

variable {f : Nat × Nat}
  (hfetch : d.itr.fetches.find? (fun (f : Nat × Nat) => decide (f.1 = nodeKey level idx)) = some f) (hserved : f.2 ≠ phDenied)
  (hissued : d.nodeIssued (nodeKey level idx) = true) (hparent : d.itr.latest (level + 1) (idx / 64) = some p)

include hfetch hserved hissued hparent

/-- A node whose version minor is 0 was never written: what its read gives is not looked at. -/
theorem Die.nodeReturn_unwritten (hminor : p.minor (idx % 64) = 0) :
    d.nodeReturn level idx a = (d.dropFetch (nodeKey level idx)).formAll.resumeArrived := by
  simp only [Die.nodeReturn, hfetch, hserved, hissued, hparent, hminor, Bool.not_true, Bool.false_eq_true, ↓reduceIte]

/-- No block holds an interior node: its read is one of its home. -/
theorem Die.nodeReturn_interior (hlevel : level ≠ 0) (hminor : p.minor (idx % 64) ≠ 0) :
    d.nodeReturn level idx a = d.homeReturn level idx f.2 p a := by
  simp only [Die.nodeReturn, hfetch, hserved, hissued, hparent, hminor, hlevel, false_and, Bool.not_true, Bool.false_eq_true, ↓reduceIte]

end NodeReads

/-! ## Write-back (R214, R215) -/

theorem Die.writeBackOne_oldest {d : Die} {k : Nat} (hk : d.itr.oldestDirty (fun k => !d.homeOut k) = some k) :
    d.writeBackOne = d.writeBack k := by
  simp only [Die.writeBackOne, hk]

/-! ## Re-encryption (R230, R231) -/

/-- What the re-encryption of a granule is charged to where no contract pays for it. -/
def Pending.bestEffortCharge (p : Pending) : Charge := { group := 4, due := 0, louvre := p.louvre, con := none }

/-- The lane's entry for a granule whose reads `w` are in: its store under index `k`, its data still to be put in. -/
def Die.reencEntry (d : Die) (w : WOp) (p : Pending) (dga k : Nat) : LaneEnt :=
  d.underEntry w.own { LaneEnt.metaFor p.bestEffortCharge dga (d.listedBay (bayOf dga) k) with
    kind := (d.heldGranule dga).kind, kidx := k, reenc := true }

section Reencryption

variable {d d1 : Die} {page slot k : Nat} {p : Pending} (hpend : d.itr.pendOf page = some p) (hslot : slot < 64)
  (hmask : p.mask.contains slot = true) (hbuf : d.buffered (page * 4096 + slot * 64) = none)
  (hchan : (d.chan (d.chanOf (page * 4096 + slot * 64))).excluded = false)
  (hindex : d.indexOf (page * 4096 + slot * 64) (d.keysOfPhys (bayOf (page * 4096 + slot * 64))) = some k) (hcon : p.con = none)

include hpend hslot hmask hbuf hchan hindex hcon

/-- A pending granule is read first. -/
theorem Die.reencrypt_reads
    (hreads : d.reads (.reenc (page * 4096 + slot * 64)) [page * 4096 + slot * 64] p.bestEffortCharge = (none, d1))
    (dist : List (Nat × Arrival)) : d.reencrypt page slot dist = d1 := by
  unfold Pending.bestEffortCharge at hreads
  simp only [Die.reencrypt, hpend, Nat.mod_eq_of_lt hslot, hmask, hbuf, hchan, hindex, hcon, hreads, Option.isSome_none, Bool.not_true,
    Bool.false_eq_true, or_self, ↓reduceIte, ite_self]

/-- A pending granule whose read gives data enters its lane for the store under its new counter. -/
theorem Die.reencrypt_pushes {d2 : Die} {w : WOp} {l : Line} {dist : List (Nat × Arrival)}
    (hreads : d.reads (.reenc (page * 4096 + slot * 64)) [page * 4096 + slot * 64] p.bestEffortCharge = (some w, d1))
    (hdata : d1.readWhole (page * 4096 + slot * 64) k (bayOf (page * 4096 + slot * 64))
      (d1.heldGranule (page * 4096 + slot * 64)).kind 10 0xffff 0 p.bestEffortCharge dist = (.data l, d2)) :
    d.reencrypt page slot dist =
      (d2.push { d1.reencEntry w p (page * 4096 + slot * 64) k with data := l }).endReads w p.louvre := by
  unfold Pending.bestEffortCharge at hreads hdata
  simp only [Die.reencrypt, hpend, Nat.mod_eq_of_lt hslot, hmask, hbuf, hchan, hindex, hcon, hreads, hdata, Option.isSome_none,
    Bool.not_true, Bool.false_eq_true, or_self, ↓reduceIte]
  rfl

end Reencryption

/-! ## Unpinned blocks (R222, R594) -/

/-- A block without dirty lines queues no write-back. -/
theorem Die.queueUnpins_clean {d : Die} {block : Nat} (hclean : d.itr.dirtyLines block = []) (bay : Nat) :
    d.queueUnpins block bay = d := by
  rw [Die.queueUnpins, hclean, List.foldl_nil]

/-- A block that is being written back and has no dirty line left is done. -/
theorem Die.unpinBlock_clean {d : Die} {block bay : Nat} (hwriting : (d.itr.block block).writing = true)
    (hbay : (d.itr.block block).bay = some bay) (hclean : d.itr.dirtyLines block = []) :
    d.unpinBlock block = d.setBlock block { d.itr.block block with writing := false } := by
  simp only [Die.unpinBlock, hwriting, hbay, hclean, List.foldl_nil, Die.queueUnpins_clean hclean, ne_eq, not_true_eq_false, decide_false]

/-! ## The verdict on a granule (R199, R224) -/

/-- The tag a granule is sealed with verifies under the key and counter it is sealed under (R199, R226). -/
theorem tagVerifies_sealGranule (key kidx dga major minor kind : Nat) (poison : Bool) (plain : Line) :
    tagVerifies (sealGranule key kidx dga major minor kind poison plain) key kidx dga major minor = true :=
  decide_eq_true rfl

/-- The keystream taken off again leaves the line (R245, R246). -/
theorem sealGranule_data_xor_keystream (key kidx dga major minor kind : Nat) (poison : Bool) (plain : Line) :
    (sealGranule key kidx dga major minor kind poison plain).data ^^^ keystream key kidx dga major minor = plain := by
  rw [sealGranule, BitVec.xor_assoc, BitVec.xor_self, BitVec.xor_zero]

/-- A sealed granule passes every check of R224 under its own key and counter: what is left to tell is its poison. -/
theorem verdict_sealGranule {minor : Nat} {ecc : Ecc} (hminor : minor ≠ 0) (hecc : ecc ≠ .uncorrectable)
    (key kidx dga major kind : Nat) (poison : Bool) (plain : Line) :
    verdict key kidx dga major minor kind (sealGranule key kidx dga major minor kind poison plain) ecc =
      if poison then .poisoned else .data plain := by
  have hunwritten : (sealGranule key kidx dga major minor kind poison plain).unwritten = false := rfl
  have hkic : (sealGranule key kidx dga major minor kind poison plain).kic = kicFor kind kidx := rfl
  have hkind : (sealGranule key kidx dga major minor kind poison plain).kind = kind := rfl
  have hpoison : (sealGranule key kidx dga major minor kind poison plain).poison = poison := rfl
  simp only [verdict, hminor, hecc, hunwritten, hkic, hkind, hpoison, tagVerifies_sealGranule, sealGranule_data_xor_keystream, ne_eq,
    not_true_eq_false, Bool.not_true, Bool.false_eq_true, ↓reduceIte]

/-- A granule whose minor is 0 is data of zeros as it arrives: no key, cached copy or stored granule is looked at (R202). -/
theorem Die.arrive_unwritten {d : Die} {t : Txn} {g major : Nat} (hlost : d.itr.isLost g = false)
    (hbuf : d.bufferedBefore g t.seq = none)
    (hcounter : (((t.ks.find? fun x => decide (x.1 = g)).map fun x => (x.2.1, x.2.2.1)) <|> d.itr.counter g) = some (major, 0))
    (a : Arrival) (again : Bool) :
    d.arrive t g a again = ({ d with itr := d.itr.touch (nodeKey 0 (nodeIdx 0 g)) } : Die).granuleResult
      { t with slip := t.slip || a.slip } g (.data 0) false again := by
  simp only [Die.arrive, hlost, hbuf, hcounter, Bool.false_eq_true, ↓reduceIte]

/-! ## The rows -/

section Rows

variable {s : State}

/-- A read below L3 that comes back is its node's (R212). -/
theorem exec_nodeFetchReturn {level idx : Nat} {a : NodeArrival} {d1 : Die} (hr : s.runs = true) (hlevel : level < 3)
    (hd : s.die.nodeReturn level idx a = d1) : exec (.nodeFetchReturn level idx a) s = .next (s.withDie d1) :=
  (onLive_leaves hr rfl ((if_neg (Nat.not_le.mpr hlevel)).trans hd) : execNodeFetchReturn level idx a s = _)

/-- Within 1,024 of DIRTY_MAX the oldest dirty node is written back (R214). -/
theorem exec_dirtyWriteback {k : Nat} (hr : s.runs = true) (hnear : fld (s.die.act R.itrCfg) 16 0 ≤ s.die.itr.dirty + 1024)
    (hk : s.die.itr.oldestDirty (fun k => !s.die.homeOut k) = some k) :
    exec .dirtyWriteback s = .next (s.withDie (s.die.writeBack k)) :=
  (onLive_leaves hr rfl ((if_pos hnear).trans (Die.writeBackOne_oldest hk)) : execDirtyWriteback s = _)

theorem exec_reencryptGranule {page slot : Nat} {dist : List (Nat × Arrival)} {d1 : Die} (hr : s.runs = true)
    (hd : s.die.reencrypt page slot dist = d1) : exec (.reencryptGranule page slot dist) s = .next (s.withDie d1) :=
  (onLive_leaves hr rfl hd : execReencryptGranule page slot dist s = _)

theorem exec_unpinWritebackDone {block : Nat} {d1 : Die} (hr : s.runs = true) (hd : s.die.unpinBlock block = d1) :
    exec (.unpinWritebackDone block) s = .next (s.withDie d1) :=
  (onLive_leaves hr rfl hd : execUnpinWritebackDone block s = _)

end Rows

/-- Settles O20: row by row; a node's read by its version minor, a re-encryption by what its read gives. -/
theorem integrityEventsComplete : Obligations.IntegrityEventsComplete := by
  unfold Obligations.IntegrityEventsComplete
  refine ⟨?unwrittenNode, ?interiorNode, ?writeBack, ?reencRead, ?reencPush, ?unpinned⟩
  case unwrittenNode =>
    exact fun s level idx f p a hr hlevel hfetch hserved hissued hparent hminor =>
      exec_nodeFetchReturn hr hlevel (Die.nodeReturn_unwritten hfetch hserved hissued hparent hminor)
  case interiorNode =>
    intro s level idx f p a hr hlevel hinner hfetch hserved hph hissued hparent hminor hchk home hok
    exact exec_nodeFetchReturn hr hlevel ((Die.nodeReturn_interior hfetch hserved hissued hparent hinner hminor).trans
      (Die.homeReturn_verifies hinner hph hchk hok))
  case writeBack => exact fun s k hr hnear hk => exec_dirtyWriteback hr hnear hk
  case reencRead =>
    intro s page slot k p d1 dist hr hpend hslot hmask dga hbuf hchan hindex hcon hreads
    exact exec_reencryptGranule hr (Die.reencrypt_reads hpend hslot hmask hbuf hchan hindex hcon hreads dist)
  case reencPush =>
    intro s page slot k p l w d1 d2 dist hr hpend hslot hmask dga c hbuf hchan hindex hcon hreads kind hdata e
    exact exec_reencryptGranule hr (Die.reencrypt_pushes hpend hslot hmask hbuf hchan hindex hcon hreads hdata)
  case unpinned =>
    intro s block bay hr hwriting hbay hclean b
    exact exec_unpinWritebackDone hr (Die.unpinBlock_clean hwriting hbay hclean)

/-- Settles O56: the counter of the granule decides before anything that arrived is looked at. -/
theorem unwrittenGranuleReadsZeros : Obligations.UnwrittenGranuleReadsZeros := by
  unfold Obligations.UnwrittenGranuleReadsZeros
  intro s id dga major t a hr ht hexpects hlost hbuf hcounter d1
  rw [exec_granuleReadReturn hr ht hexpects, Die.arrive_unwritten hlost hbuf hcounter]

/-- Settles O57: the two values of the poison bit a granule is sealed with. -/
theorem sealedGranuleOpens : Obligations.SealedGranuleOpens := by
  unfold Obligations.SealedGranuleOpens
  intro key kidx dga major minor kind plain ecc hminor hecc
  exact ⟨verdict_sealGranule hminor hecc key kidx dga major kind false plain,
    verdict_sealGranule hminor hecc key kidx dga major kind true plain⟩

end Sys2Proof.Machine
end

section
/-! World events complete (O25): what a gate, a halt request and a debug access do when their conditions hold, and the statement
assembled from them. -/

namespace Sys2Proof.Machine

/-! ## The gate (R421, R423, R425) -/

section Gate

variable {d : Die} {k : Nat} (hruns : d.coreRuns k = true)

include hruns

/-- A normal core's fetch of an entry point whose bit is set enters the secure world. -/
theorem Die.gateEntry_enters {offset : Nat} (hnormal : (d.core k).secure = false) (hpoint : entryPoint offset = true)
    (hbit : bit (d.regR R.mulWorld) (24 + k) = true) (ret : Nat) :
    d.gateEntry k offset ret = d.setCore k
      (Core.fill { (d.core k) with secure := true, ret := ret % 2 ^ 64, pc := offset, held := true } offset) := by
  simp only [Die.gateEntry, hruns, hnormal, hpoint, hbit, Bool.not_true, Bool.not_false, Bool.false_eq_true, and_self, ↓reduceIte]

/-- A secure core's fetch of the exit point returns to the normal world. -/
theorem Die.gateExit_returns (hsecure : (d.core k).secure = true) :
    d.gateExit k 0xfc0 =
      let c := d.core k
      d.setCore k
        { c with secure := false, held := false, pc := c.ret, x := c.x.filter (fun (e : Nat × Nat) => decide (e.1 = 10 ∨ e.1 = 11)),
                 f := [], fcsr := 0, resv := false, halted := c.haltHeld, haltHeld := false } := by
  simp only [Die.gateExit, hruns, hsecure, Bool.not_true, Bool.false_eq_true, ne_eq, not_true_eq_false, or_self, ↓reduceIte]

end Gate

/-! ## Halts (R428) -/

/-- Under NI a halt request stops a running core, but for a secure core without SI, where it is held. -/
theorem Die.haltCore_invasive {d : Die} {k : Nat} (hk : k < 4) (hrunning : (d.core k).halted = false) (hni : d.dbg.ni = true) :
    d.haltCore k = d.setCore k (if (d.core k).secure && !d.dbg.si then { (d.core k) with haltHeld := true }
      else { (d.core k) with halted := true }) := by
  have hreached : ¬(4 ≤ k ∨ (d.core k).halted = true) := by
    simp only [hrunning, Bool.false_eq_true, or_false, Nat.not_le.mpr hk, not_false_eq_true]
  rw [Die.haltCore, if_neg hreached]
  cases hsecure : (d.core k).secure with
  | false => simp only [hsecure, hni, Bool.false_and, Bool.false_eq_true, ↓reduceIte]
  | true =>
    cases d.dbg.si with
    | false => simp only [hsecure, hni, Bool.not_false, Bool.and_self, Bool.false_eq_true, ↓reduceIte]
    | true => simp only [hsecure, Bool.not_true, Bool.and_false, Bool.false_eq_true, ↓reduceIte]

/-- On running blocks, out of the recovery hold, a halt request reaches its core and wakes the device (R482). -/
theorem exec_debugHalt_runs {s : State} (hr : s.runs = true) (k : Nat) :
    exec (.debugHalt k) s = .next (s.withDie ((s.die.haltCore k).wake 12)) := by
  simp only [State.runs, Bool.and_eq_true] at hr
  obtain ⟨hreleased, hlive⟩ := hr
  have hhold : s.die.boot.hold = false := by
    simp only [Die.live, Bool.and_eq_true, Bool.not_eq_true'] at hlive
    exact hlive.1
  change execDebugHalt k s = _
  rw [execDebugHalt, onDie_released hreleased, hhold, if_neg Bool.false_ne_true, if_pos hlive, State.withDie]

/-! ## Debug accesses (R260, R429) -/

/-- A debug access to a LIVE bay of the bound tenancy, under a key that nothing refuses, goes to the line's home. -/
theorem Die.debugAccess_reaches {d : Die} {ta e : Nat} {write : Bool} {key : Option Nat}
    (hbound : bit (d.regR R.dbgBind) 31 = true) (hni : d.dbg.ni = true) (hused : (d.ten (fld (d.regR R.dbgBind) 9 0)).st ≠ .free)
    (hentry : d.entryOf (fld (d.regR R.dbgBind) 9 0) ta = some e) (hlive : (d.bt e).st = .live) :
    let t := fld (d.regR R.dbgBind) 9 0
    let sel := if d.portFcx (d.tenPort t) then key else none
    let k := d.remap (d.bt e).dlaBay (sel.getD (d.bt e).defKey)
    d.keyRefused t e k.1 sel.isSome k.2 write = false → ∀ data : Line, d.debugAccess ta write data key =
      d.toHome (d.newTxn (internalHdr 12 0 ta) (if write then .wr else .rd) t e ((d.bt e).dlaBay * 2 ^ 30 + ta % 2 ^ 30 / 64 * 64) k.1 4
        data (BitVec.allOnes 64)) := by
  intro t sel k hkey data
  have hgoes : (!bit (d.regR R.dbgBind) 31 || !d.dbg.ni || decide ((d.ten (fld (d.regR R.dbgBind) 9 0)).st = .free)) = false := by
    simp only [hbound, hni, hused, Bool.not_true, decide_false, Bool.or_self]
  simp only [Die.debugAccess, hgoes, hentry, hlive, Bool.false_eq_true, ne_eq, not_true_eq_false, ↓reduceIte]
  exact if_neg (Bool.eq_false_iff.mp hkey)

/-- Settles O25: row by row; the gate's two on the awake die. -/
theorem worldEventsComplete : Obligations.WorldEventsComplete := by
  unfold Obligations.WorldEventsComplete
  refine ⟨?gateEntry, ?gateExit, ?debugHalt, ?debugAccess⟩
  case gateEntry =>
    exact fun s k offset ret hr hruns hnormal hpoint hbit =>
      (onLive_leaves hr rfl (Die.gateEntry_enters hruns hnormal hpoint hbit ret) : execGateEntry k offset ret s = _)
  case gateExit =>
    exact fun s k hr hruns hsecure => (onLive_leaves hr rfl (Die.gateExit_returns hruns hsecure) : execGateExit k 0xfc0 s = _)
  case debugHalt =>
    intro s k hr hk hrunning hni
    rw [exec_debugHalt_runs hr, Die.haltCore_invasive hk hrunning hni]
  case debugAccess =>
    intro s ta e write b hr t hbound hni hused hentry hlive sel k dla hkey x
    exact (onLive_leaves hr rfl (Die.debugAccess_reaches hbound hni hused hentry hlive hkey b.line) : execDebugAccess ta write b s = _)

end Sys2Proof.Machine
end

section
/-! Retirement events complete (O23): what the flush, its walk, a removal and the mover's log do in each case, and the statement
assembled from them. -/

namespace Sys2Proof.Machine

/-! ## The flush (R263, R349) -/

/-- The lanes are flushed: an event of each channel's lane. -/
def Die.lanesFlushed (d : Die) : Die := (List.range 16).foldl (fun (d : Die) c => d.event (R.cryEvent (d.chan c).lane) 2) d

/-- A part of a flush that is clean leaves it. -/
theorem Die.flushPart_clean {d : Die} {a : Nat} {p : FlushPart} {r : Retire} (hret : d.retire? a = some r)
    (hphase : r.phase = .flushing) (hpart : r.parts.contains p = true) (hclean : d.partClean r p = true) :
    d.flushPart a p =
      (if p = .lanes then (d.setRet { r with parts := r.parts.filter (· ≠ p) }).lanesFlushed
        else d.setRet { r with parts := r.parts.filter (· ≠ p) }).retsGo := by
  simp only [Die.flushPart, Die.lanesFlushed, hret, hphase, hpart, hclean, ne_eq, not_true_eq_false, Bool.not_true,
    Bool.false_eq_true, or_self, ↓reduceIte]

/-- The walk's reads of its `k` next sets from `n` on, each an access of the third group. -/
def Die.walkReads (d : Die) (n k : Nat) : Die :=
  (List.range k).foldl (fun (d : Die) i => (d.hbm 3 0 (wayAddr ((n + i) % hbSets) 0) 14 true (.flush ((n + i) % hbSets))).2) d

/-- A walk that waits for nothing covers FLUSH_RATE sets. -/
theorem Die.flushStep_covers {d : Die} {n : Nat} (hwalk : d.hbc.walk = some n) (hwaits : d.flushWaits = false) :
    d.flushStep =
      let k := fld (d.act R.hbcCfg) 24 16
      let d1 := d.walkReads n k
      let kics := d.walkFor.map fun (r : Retire) => kicOf r.a
      let covered (x : Nat) : Bool := decide (n ≤ x ∧ x < n + k) || decide (x + hbSets < n + k)
      let ways := d1.hbc.ways.filter fun (w : Nat × CacheWay) => !(covered (w.1 / 8) && kics.contains w.2.kic)
      let rets := d.keys.rets.map fun (r : Retire) => if r.phase = .flushing then { r with setsLeft := r.setsLeft - k } else r
      { d1 with hbc := { d1.hbc with ways := ways, walk := some ((n + k) % hbSets), walkAt := some d.transom },
                keys := { d1.keys with rets := rets } } := by
  simp only [Die.flushStep, Die.walkReads, hwalk, hwaits, Bool.false_eq_true, ↓reduceIte]

/-- The retirements whose cache part a walk has covered. -/
def Die.walkedRets (d : Die) : List Retire :=
  d.keys.rets.filter fun (r : Retire) => decide (r.phase = .flushing) && r.parts.contains .cache && decide (r.setsLeft = 0)

/-- A walk that has covered every set for some retirements ends their cache part, and itself where none is left. -/
theorem Die.flushDone_covered {d : Die} {n : Nat} (hwalk : d.hbc.walk = some n) (hmine : d.walkedRets ≠ []) :
    d.flushDone =
      let d1 := d.walkedRets.foldl (fun (d : Die) (r : Retire) => d.setRet { r with parts := r.parts.filter (· ≠ FlushPart.cache) }) d
      let d2 := if d1.walkFor = [] then { d1 with hbc := { d1.hbc with walk := none } } else d1
      (d2.event R.hbcEvent 1).retsGo := by
  have hover : ¬(d.hbc.walk.isNone = true ∨ d.walkedRets = []) := by
    simp only [hwalk, Option.isNone_some, Bool.false_eq_true, hmine, or_self, not_false_eq_true]
  exact if_neg hover

/-! ## The mover's log (R260, R382) -/

/-- The lane's entry for a bitmap line of a log bay `b`, its data still to be put in. -/
def Die.logEntry (d : Die) (b : Bt) (dla kidx : Nat) : LaneEnt :=
  { LaneEnt.base with
    dga := dla, dla := dla, kidx := kidx, bay := b.dlaBay, cache := d.bayCache b.dlaBay, master := 8, louvre := d.moverLouvre }

section Log

variable {d d1 : Die} {i : Nat} {e : LogEnt} (he : d.tens.logs[i]? = some e)

include he

/-- The bitmap line of a log buffer entry is read first. -/
theorem Die.logOr_reads :
    let ent := fld (d.act (R.tenLog e.ten)) 13 0
    let b := d.bt ent
    let k := d.remap b.dlaBay b.defKey
    d.plainEntry ent = true → d.keyRefused 0xffff ent k.1 false k.2 true = false →
    d.reads (.log e.ten e.mapB e.line) [b.dlaBay * 2 ^ 30 + b2n e.mapB * 0x20000000 + e.line * 64] d.moverCharge = (none, d1) →
    d.logOr i = d1 := by
  intro ent b k hplain hkey hreads
  simp only [ent, b, k] at hplain hkey hreads
  simp only [Die.logOr, he, hplain, hkey, hreads, Bool.not_true, Bool.false_eq_true, ↓reduceIte]

/-- A bitmap line that is read takes the entry's bits, or is poisoned where its read gives no data. -/
theorem Die.logOr_stores {w : WOp} :
    let ent := fld (d.act (R.tenLog e.ten)) 13 0
    let b := d.bt ent
    let dla := b.dlaBay * 2 ^ 30 + b2n e.mapB * 0x20000000 + e.line * 64
    let k := d.remap b.dlaBay b.defKey
    d.plainEntry ent = true → d.keyRefused 0xffff ent k.1 false k.2 true = false →
    d.reads (.log e.ten e.mapB e.line) [dla] d.moverCharge = (some w, d1) →
    d1.lineFree dla = true → d1.laneFull (d1.chanOf dla) = false →
    d.logOr i =
      let d2 : Die := { d1 with tens := { d1.tens with logs := d1.tens.logs.filter fun x => decide (x ≠ e) } }
      let r := d2.readWhole dla k.1 b.dlaBay 0 8 b.ten (d1.taOf ent dla) d1.moverCharge []
      let l : LaneEnt := r.2.underEntry w.own (d1.logEntry b dla k.1)
      ((r.2.push (match r.1 with
        | .data x => { l with data := x ||| e.bits }
        | _ => { l with poison := true })).endReads w d1.moverLouvre).endHarvests := by
  intro ent b dla k hplain hkey hreads hfree hroom
  simp only [ent, b, dla, k] at hplain hkey hreads hfree hroom
  simp only [Die.logOr, he, hplain, hkey, hreads, hfree, hroom, Bool.not_true, Bool.false_eq_true, or_self, ↓reduceIte]
  rfl

end Log

/-! ## The rows -/

section Rows

variable {s : State}

/-- The last request of a stopped index starts its flush (R262). -/
theorem exec_retireDrainEnd {a : Nat} {r : Retire} (hr : s.runs = true) (hret : s.die.retire? a = some r)
    (hphase : r.phase = .stopped) (hidle : s.die.usesIndex a = false) :
    exec (.retireDrainEnd a) s = .next (s.withDie (s.die.startFlush r)) := by
  change execRetireDrainEnd a s = _
  refine onLive_leaves hr rfl ?_
  simp only [hret, hphase, hidle, Bool.not_false, and_self, ↓reduceIte]

theorem exec_flushPartDone {a : Nat} {p : FlushPart} {d1 : Die} (hr : s.runs = true) (hd : s.die.flushPart a p = d1) :
    exec (.flushPartDone a p) s = .next (s.withDie d1) :=
  (onLive_leaves hr rfl hd : execFlushPartDone a p s = _)

/-- The last request of a draining bay starts its scrub (R369). -/
theorem exec_bayDrainEnd {bay : Nat} {o : BayOp} (hr : s.runs = true) (ho : s.die.bayOp? bay = some o) (hphase : o.phase = .drain)
    (hidle : s.die.bayInUse bay = false) :
    exec (.bayDrainEnd bay) s = .next (s.withDie
      (let o1 : BayOp := { o with phase := .scrub }
       let d1 := (s.die.setBaySt bay .scrubbing).setBayOp o1
       if d1.scrubOver o1 then d1.scrubDone o1 else d1)) := by
  change execBayDrainEnd bay s = _
  refine onLive_leaves hr rfl ?_
  simp only [ho, hphase, hidle, ne_eq, not_true_eq_false, Bool.false_eq_true, or_self, ↓reduceIte]

/-- The extent a removal waits for is released: the removal goes on (R368). -/
theorem exec_hostExtentRelease {port ta : Nat} {o : BayOp} (hr : s.runs = true)
    (ho : s.die.tens.bayOps.find? (fun (o : BayOp) => decide (o.phase = .waitHost) && decide (s.die.tenPort o.ten = port) &&
      decide (s.die.taOf o.entry 0 = ta / 2 ^ 30 * 2 ^ 30)) = some o) :
    exec (.hostExtentRelease port ta) s = .next (s.withDie (s.die.setBayOp { o with phase := s.die.afterRelease o.bay })) := by
  change execHostExtentRelease port ta s = _
  refine onLive_leaves hr rfl ?_
  simp only [ho]

/-- A removal whose wait is over fails, and the bay stays LIVE (R368). -/
theorem exec_releaseWaitTimeout {entry : Nat} {o : BayOp} {h : Hdr} (hr : s.runs = true)
    (ho : s.die.tens.bayOps.find? (fun (o : BayOp) =>
      decide (o.phase = .waitHost) && decide (o.entry = entry) && decide (o.until_ ≤ s.die.time)) = some o) (hh : o.hdr = some h) :
    exec (.releaseWaitTimeout entry) s = .next (s.withDie ((s.die.dropBayOp o.bay).fail h 0x0301 St.hostHolds entry)) := by
  change execReleaseWaitTimeout entry s = _
  refine onLive_leaves hr rfl ?_
  simp only [ho, hh]

theorem exec_logBufferOr {i : Nat} {d1 : Die} (hr : s.runs = true) (hd : s.die.logOr i = d1) :
    exec (.logBufferOr i) s = .next (s.withDie d1) :=
  (onLive_leaves hr rfl hd : execLogBufferOr i s = _)

end Rows

/-- Settles O23: row by row; a log buffer entry by what its line's read gives. -/
theorem retirementEventsComplete : Obligations.RetirementEventsComplete := by
  unfold Obligations.RetirementEventsComplete
  refine ⟨?drainEnd, ?part, ?lanes, ?walkStep, ?walkDone, ?bayDrain, ?extent, ?timeout, ?logRead, ?logStore⟩
  case drainEnd => exact fun s a r hr hret hphase hidle => exec_retireDrainEnd hr hret hphase hidle
  case part =>
    intro s a p r hr hret hphase hpart hclean hlanes
    rw [exec_flushPartDone hr (Die.flushPart_clean hret hphase hpart hclean), if_neg hlanes]
  case lanes =>
    intro s a r hr hret hphase hpart hclean
    rw [exec_flushPartDone hr (Die.flushPart_clean hret hphase hpart hclean), if_pos rfl, Die.lanesFlushed]
  case walkStep =>
    exact fun s n hr hwalk hwaits => (onLive_leaves hr rfl (Die.flushStep_covers hwalk hwaits) : execCacheFlushWalkStep s = _)
  case walkDone =>
    exact fun s n hr hwalk hmine => (onLive_leaves hr rfl (Die.flushDone_covered hwalk hmine) : execCacheFlushWalkDone s = _)
  case bayDrain => exact fun s bay o hr ho hphase hidle => exec_bayDrainEnd hr ho hphase hidle
  case extent => exact fun s port ta o hr ho => exec_hostExtentRelease hr ho
  case timeout => exact fun s entry o h hr ho hh => exec_releaseWaitTimeout hr ho hh
  case logRead =>
    exact fun s i e d1 hr he hplain hkey hreads => exec_logBufferOr hr (Die.logOr_reads he hplain hkey hreads)
  case logStore =>
    exact fun s i e w d1 hr he hplain hkey hreads hfree hroom =>
      exec_logBufferOr hr (Die.logOr_stores he hplain hkey hreads hfree hroom)

end Sys2Proof.Machine
end

section
/-! Mover events complete (O22): what a scan, a move, a re-key, an erase, PHYS fill and a scrub do in each case, and the statement
assembled from them. -/

namespace Sys2Proof.Machine

/-- Of a mover that works, a meaning `e` that is an event `f` of its leaves what `f` makes of the die. -/
theorem onMover_leaves {s : State} {f : Die → Die} {d : Die} {e : Host.Outcome State Fault Refusal} (h : s.runs = true)
    (hm : s.die.moverRuns = true) (he : e = onMover s f) (hd : f s.die = d) : e = .next (s.withDie d) := by
  rw [he, onMover_runs h hm, hd, State.withDie]

/-! ## Scans (R332, R333) -/

section Scans

variable {d : Die} {bay : Nat} {b : Bt} (hentry : d.tieredEntry bay = some b)

include hentry

/-- A period of a TIERED bay that no scan runs on starts one. -/
theorem Die.scanStart_starts (hperiod : d.transom % 2 ^ fld (d.policyOf b) 28 24 = 0)
    (hnone : d.tir.scans.any (fun (x : Scan) => decide (x.bay = bay)) = false) :
    d.scanStart bay = { d with tir := { d.tir with scans := d.tir.scans ++ [{ bay := bay, next := 0, asked := false }] } } := by
  simp only [Die.scanStart, hentry, hperiod, hnone, ne_eq, not_true_eq_false, Bool.false_eq_true, ↓reduceIte]

/-- A step of a scan treats its pages; the scan ends where they cover the bay. -/
theorem Die.scanStep_treats {x : Scan} (hscan : d.tir.scans.find? (fun (x : Scan) => decide (x.bay = bay)) = some x) (lines : Nat) :
    d.scanStep bay lines =
      let r := Die.scanPages b bay (4 * min lines (fld (d.act R.tirCfg) 12 4)) d x.next x.asked
      if 2 ^ 18 ≤ r.2.1 then { r.1 with tir := { r.1.tir with scans := r.1.tir.scans.filter fun (x : Scan) => decide (x.bay ≠ bay) } }
      else { r.1 with tir := { r.1.tir with
        scans := r.1.tir.scans.map fun (x : Scan) => if x.bay = bay then { x with next := r.2.1, asked := r.2.2 } else x } } := by
  simp only [Die.scanStep, hscan, hentry]

end Scans

/-! ## Moves (R334, R337–R339) -/

section Moves

variable {d d1 : Die} {page : Nat} {m : Move} {r : Option WOp}
  (hmove : d.tir.moves.find? (fun (m : Move) => decide (m.page = page) && decide (m.phase = 1)) = some m)

include hmove

/-- A promotion copies its page once its panes' reads have issued. -/
theorem Die.moveCopy_promotes (hst : (d.pgEntry page).st = .packed) (hup : m.toPlain = true) (dist : List (Nat × Arrival)) :
    d.reads (.copy page) ((List.range 8).flatMap (d.pgEntry page).paneDgas) d.moverCharge = (r, d1) →
    d.moveCopy page dist = match r with
      | none => d1
      | some w => d1.promote w page (d.pgEntry page) dist := by
  intro hreads
  simp only [Die.moveCopy, hmove, hst, hup, hreads, and_self, true_or, ↓reduceIte]
  cases r <;> rfl

/-- A demotion copies its page once its lines' reads have issued. -/
theorem Die.moveCopy_demotes (hst : (d.pgEntry page).st = .plain) (hdown : m.toPlain = false) (dist : List (Nat × Arrival)) :
    d.reads (.copy page) ((List.range 64).map (d.pgEntry page).dga) d.moverCharge = (r, d1) →
    d.moveCopy page dist = match r with
      | none => d1
      | some w => d1.demotePage w page (d.pgEntry page) dist := by
  intro hreads
  simp only [Die.moveCopy, hmove, hst, hdown, hreads, Bool.not_false, Bool.false_eq_true, and_false, and_self, or_true, ↓reduceIte]
  cases r <;> rfl

end Moves

/-- An operation that stands first on its page, nothing of its page running or being repacked, begins. -/
theorem Die.runPageOp_begins {d : Die} {page : Nat} {o : PageOp} (hidle : d.runningOp page = none) (hfront : d.frontOp page = some o)
    (hrepack : o.repack = none) (dist : List (Nat × Arrival)) : d.runPageOp page dist = d.beginOp o dist := by
  simp only [Die.runPageOp, hidle, hfront, hrepack]

theorem Die.beginOp_commit {o : PageOp} (hop : o.op = .commit) (d : Die) (dist : List (Nat × Arrival)) :
    d.beginOp o dist = d.commitMove o := by
  simp only [Die.beginOp, hop]

/-! ## Re-keys (R268, R309) -/

/-- The granule `g` of a re-key's bay `b` re-keyed: the bay's record is `b1` before, and `b2` once the granule is stored anew. -/
def Die.rekeyAs (d : Die) (a g : Nat) (r : Retire) (b b1 b2 : RetBay) (dist : List (Nat × Arrival)) : Die :=
  let x := ((d.setRetBay a b1).reopenPage (g / 4096) b).rekeyGranule g a r.t (bayOf g) dist
  if x.1 then (x.2.setRetBay a b2).retsGo else x.2

/-- The granules out of reach that a re-key passes over between `from_` and `g`: they are left for last (R594). -/
def Die.rekeySkipped (d : Die) (a from_ g : Nat) : List Nat :=
  (d.dram.map fun (e : Nat × Granule) => e.1 * 64).filter fun x => decide (bayOf x = bayOf g) &&
    decide (from_ ≤ x) && decide (x < g) && !d.reach x && d.rekeyMine a x

section Rekey

variable {d : Die} {a g : Nat} {r : Retire} {b : RetBay} (hbay : d.clearingBay a (bayOf g) false = some (r, b))
  (hplain : mappedBay (bayOf g) = false) (hgranule : g % 64 = 0)

include hbay hplain hgranule

/-- A granule left for last is re-keyed once it is in reach, and the order goes on where it stood. -/
theorem Die.rekeyOne_late (horder : d.rekeyNext (bayOf g) a b.next d.reach ≠ some g) (hleft : b.left.contains g = true)
    (hreach : d.reach g = true) (dist : List (Nat × Arrival)) :
    d.rekeyOne a g dist = d.rekeyAs a g r b b { b with left := b.left.filter fun y => decide (y ≠ g) } dist := by
  simp only [Die.rekeyOne, Die.rekeyAs, hbay, hplain, hgranule, horder, hleft, hreach, decide_false, Bool.and_self, Bool.and_false,
    Bool.not_true, Bool.not_false, Bool.false_eq_true, ne_eq, not_true_eq_false, or_self, List.append_nil, ↓reduceIte,
    Bool.not_eq_true', ← Bool.not_eq_true, ite_not]

/-- The next granule in order is re-keyed, and those it passes over are left for last. -/
theorem Die.rekeyOne_ordered (horder : d.rekeyNext (bayOf g) a b.next d.reach = some g) (dist : List (Nat × Arrival)) :
    d.rekeyOne a g dist =
      let b1 : RetBay := { b with next := g, left := b.left ++ d.rekeySkipped a b.next g }
      d.rekeyAs a g r b b1 { b1 with next := g + 64, left := b1.left.filter fun y => decide (y ≠ g) } dist := by
  simp only [Die.rekeyOne, Die.rekeyAs, Die.rekeySkipped, hbay, hplain, hgranule, horder, decide_true, Bool.not_true, Bool.false_and,
    Bool.false_eq_true, ne_eq, not_true_eq_false, or_self, ↓reduceIte, Bool.not_eq_true', ← Bool.not_eq_true, ite_not]
  rfl

end Rekey

/-- The next pane's operation joins its page's, and runs where it stands first. -/
theorem Die.rekeyPane_runs {d : Die} {a page pane : Nat} {r : Retire} {b : RetBay} {o : PageOp}
    (hbay : d.clearingBay a (pageBay page) false = some (r, b)) (hnext : d.paneNext (pageBay page) a b.next = some (page * 8 + pane)) :
    let d1 := (d.setRetBay a { b with next := page * 8 + pane + 1 }).pageOp page (.rekey a pane)
    d1.frontOp page = some o → o.op = .rekey a pane →
    ∀ dist : List (Nat × Arrival), d.rekeyPane a page pane dist = (d1.runPageOp page dist).retsGo := by
  intro d1 hfront hop dist
  simp only [d1] at hfront
  simp only [Die.rekeyPane, hbay, hnext, hfront, hop, ne_eq, not_true_eq_false, ↓reduceIte, d1]

/-! ## Erasures (R271, R272, R308) -/

/-- The leaves of the pages in reach erased, and the pages that are left for last (R594). -/
def Die.erasePages (d : Die) (reset : Bool) (pages : List Nat) : List Nat × Die :=
  pages.foldl (fun (x : List Nat × Die) p => if x.2.pageOut p then (x.1 ++ [p], x.2) else (x.1, x.2.eraseLeaf p reset)) ([], d)

section Erasures

variable {d : Die} {a bay : Nat} {r : Retire} {b : RetBay} (hbay : d.clearingBay a bay true = some (r, b))

include hbay

/-- An erasure of a PLAIN bay erases its leaves, the bay being done once none is left. -/
theorem Die.eraseBay_plain (hdone : b.done = false) (hpending : d.bayPending bay = false) (hplain : mappedBay bay = false) :
    d.eraseBay a bay =
      let x := d.erasePages b.reset (if b.next = 0 then range' (bay * 2 ^ 18) (2 ^ 18) else b.left)
      if x.1 = [] then ((x.2.bayCleared r b).setRetBay a { b with done := true, next := 0, left := [] }).retsGo
      else x.2.setRetBay a { b with next := 1, left := x.1 } := by
  simp only [Die.eraseBay, Die.erasePages, hbay, hdone, hpending, hplain, Bool.false_eq_true, or_self, ↓reduceIte]

/-- An erasure of a mapped bay that no page operation and no PHYS fill holds up unmaps it. -/
theorem Die.eraseBay_mapped (hdone : b.done = false) (hpending : d.bayPending bay = false) (hmapped : mappedBay bay = true)
    (hops : d.opsInBay bay = false) (hfilled : b.physLeft = false) :
    d.eraseBay a bay =
      ((((d.abandonMoves fun (m : Move) => decide (pageBay m.page = bay)).unmapBay bay).bayCleared r b).setRetBay a
        { b with done := true, physLeft := false }).retsGo := by
  simp only [Die.eraseBay, hbay, hdone, hpending, hmapped, hops, hfilled, Bool.false_eq_true, or_self, ↓reduceIte]

/-- PHYS fill of an erased PLAIN bay writes its next page, where that is in reach and the lanes have room. -/
theorem Die.physPage_fills {d1 : Die} (hplain : mappedBay bay = false) (hdone : b.done = true) (hphys : b.physLeft = true)
    (hnext : b.next < 2 ^ 18) :
    let gs := (List.range 64).map fun i => (bay * 2 ^ 18 + b.next) * 4096 + i * 64
    (gs.any fun g => (d.chan (d.chanOf g)).excluded) = false → d.pushFill bay gs = some d1 →
    d.physPage a bay =
      let b1 : RetBay := { b with next := b.next + 1 }
      if 2 ^ 18 ≤ b1.next ∧ b1.left = [] then (d1.setRetBay a { b1 with physLeft := false }).retsGo else d1.setRetBay a b1 := by
  intro gs hreach hroom
  simp only [gs] at hreach hroom
  simp only [Die.physPage, hbay, hplain, hdone, hphys, hnext, hreach, hroom, Option.map_some, Bool.not_true, Bool.false_eq_true,
    ↓reduceIte]

theorem Die.physPage_mapped (hmapped : mappedBay bay = true) (hphys : b.physLeft = true) : d.physPage a bay = d.physRun a bay b := by
  simp only [Die.physPage, hbay, hmapped, hphys, Bool.not_true, Bool.false_eq_true, ↓reduceIte]

end Erasures

/-! ## Scrubs (R234, R369) -/

theorem range'_zero (lo : Nat) : range' lo 0 = [] := rfl

/-- The next page in order of a PLAIN bay, in reach, is scrubbed, and no page is passed over. -/
theorem Die.scrubStep_next {d : Die} {o : BayOp} (hplain : mappedBay o.bay = false) (hnext : o.next < 2 ^ 18)
    (hreach : d.pageOut (o.bay * 2 ^ 18 + o.next) = false) :
    d.scrubStep o (o.bay * 2 ^ 18 + o.next) =
      let o1 : BayOp := { o with next := o.next + 1 }
      let d1 := (d.scrubLeaf (o.bay * 2 ^ 18 + o.next)).setBayOp o1
      if d1.scrubOver o1 then d1.scrubDone o1 else d1 := by
  have hin : o.bay * 2 ^ 18 + o.next ≤ o.bay * 2 ^ 18 + o.next ∧ o.bay * 2 ^ 18 + o.next < o.bay * 2 ^ 18 + 2 ^ 18 := by omega
  have hafter : o.bay * 2 ^ 18 + o.next + 1 - o.bay * 2 ^ 18 = o.next + 1 := by omega
  simp only [Die.scrubStep, hplain, hreach, if_pos hin, hafter, Nat.sub_self, range'_zero, List.all_nil, List.append_nil,
    Bool.false_eq_true, ↓reduceIte]

/-! ## The rows -/

section Rows

variable {s : State} (hr : s.runs = true) (hm : s.die.moverRuns = true)

include hr hm

theorem exec_scanStep {bay lines : Nat} {d1 : Die} (hd : s.die.scanStep bay lines = d1) :
    exec (.scanStep bay lines) s = .next (s.withDie d1) :=
  (onMover_leaves hr hm rfl hd : execScanStep bay lines s = _)

theorem exec_moveCopy {page : Nat} {dist : List (Nat × Arrival)} {d1 : Die} (hd : s.die.moveCopy page dist = d1) :
    exec (.moveCopy page dist) s = .next (s.withDie d1) :=
  (onMover_leaves hr hm rfl hd : execMoveCopy page dist s = _)

/-- A commit that stands first on its page commits its move (R334). -/
theorem exec_moveCommit {page : Nat} {o : PageOp} (hidle : s.die.runningOp page = none) (hfront : s.die.frontOp page = some o)
    (hrepack : o.repack = none) (hop : o.op = .commit) : exec (.moveCommit page) s = .next (s.withDie (s.die.commitMove o)) := by
  change execMoveCommit page s = _
  refine onMover_leaves hr hm rfl ?_
  simp only [hfront, hop, ↓reduceIte, Die.runPageOp_begins hidle hfront hrepack, Die.beginOp_commit hop]

theorem exec_rekeyOperation {a g : Nat} {dist : List (Nat × Arrival)} {d1 : Die} (hd : s.die.rekeyOne a g dist = d1) :
    exec (.rekeyOperation a g dist) s = .next (s.withDie d1) :=
  (onMover_leaves hr hm rfl hd : execRekeyOperation a g dist s = _)

theorem exec_paneRekeyOperation {a page pane : Nat} {dist : List (Nat × Arrival)} {d1 : Die} (hpane : pane < 8)
    (hd : s.die.rekeyPane a page pane dist = d1) : exec (.paneRekeyOperation a page pane dist) s = .next (s.withDie d1) :=
  (onMover_leaves hr hm rfl ((if_neg (Nat.not_le.mpr hpane)).trans hd) : execPaneRekeyOperation a page pane dist s = _)

/-- An erase of a bay that no seal has listed is its retirement's (R271). -/
theorem exec_eraseLeafReset {a bay : Nat} {d1 : Die} (hseal : s.die.dbg.erase.contains bay = false)
    (hd : s.die.eraseBay a bay = d1) : exec (.eraseLeafReset a bay) s = .next (s.withDie d1) :=
  (onMover_leaves hr hm rfl ((if_neg (Bool.eq_false_iff.mp hseal)).trans hd) : execEraseLeafReset a bay s = _)

theorem exec_physFill {a bay : Nat} {d1 : Die} (hd : s.die.physPage a bay = d1) :
    exec (.physFill a bay) s = .next (s.withDie d1) :=
  (onMover_leaves hr hm rfl hd : execPhysFill a bay s = _)

theorem exec_scrubPage {bay page : Nat} {o : BayOp} {d1 : Die} (ho : s.die.bayOp? bay = some o) (hphase : o.phase = .scrub)
    (hd : s.die.scrubStep o page = d1) : exec (.scrubPage bay page) s = .next (s.withDie d1) := by
  change execScrubPage bay page s = _
  refine onMover_leaves hr hm rfl ?_
  simp only [ho, hphase, hd, ↓reduceIte]

end Rows

/-- Settles O22: row by row; a re-key's granule by whether it stands in order, an erase and PHYS fill by the bay's kind. -/
theorem moverEventsComplete : Obligations.MoverEventsComplete := by
  unfold Obligations.MoverEventsComplete
  refine ⟨?scanStart, ?scanStep, ?moveCopy, ?moveCommit, ?rekeyLate, ?rekeyOrdered, ?paneRekey, ?erasePlain, ?eraseMapped, ?physPlain,
    ?physMapped, ?scrub⟩
  case scanStart =>
    exact fun s bay b hr hm hentry hperiod hnone =>
      (onMover_leaves hr hm rfl (Die.scanStart_starts hentry hperiod hnone) : execScanStart bay s = _)
  case scanStep =>
    intro s bay lines b x hr hm hscan hentry r
    have htreats := Die.scanStep_treats hentry hscan lines
    exact ⟨fun hrest => exec_scanStep hr hm (htreats.trans (if_neg (Nat.not_le.mpr hrest))),
      fun hover => exec_scanStep hr hm (htreats.trans (if_pos hover))⟩
  case moveCopy =>
    exact fun s page m r d dist hr hm hmove =>
      ⟨fun hst hup hreads => exec_moveCopy hr hm (Die.moveCopy_promotes hmove hst hup dist hreads),
        fun hst hdown hreads => exec_moveCopy hr hm (Die.moveCopy_demotes hmove hst hdown dist hreads)⟩
  case moveCommit =>
    exact fun s page o hr hm hidle hfront hrepack hop => exec_moveCommit hr hm hidle hfront hrepack hop
  case rekeyLate =>
    exact fun s a g r b dist hr hm hbay hplain hgranule horder hleft hreach =>
      exec_rekeyOperation hr hm (Die.rekeyOne_late hbay hplain hgranule horder hleft hreach dist)
  case rekeyOrdered =>
    exact fun s a g r b dist hr hm hbay hplain hgranule horder =>
      exec_rekeyOperation hr hm (Die.rekeyOne_ordered hbay hplain hgranule horder dist)
  case paneRekey =>
    exact fun s a page pane r b o dist hr hm hpane hbay hnext hfront hop =>
      exec_paneRekeyOperation hr hm hpane (Die.rekeyPane_runs hbay hnext hfront hop dist)
  case erasePlain =>
    exact fun s a bay r b hr hm hseal hbay hdone hpending hplain =>
      exec_eraseLeafReset hr hm hseal (Die.eraseBay_plain hbay hdone hpending hplain)
  case eraseMapped =>
    exact fun s a bay r b hr hm hseal hbay hdone hpending hmapped hops hfilled =>
      exec_eraseLeafReset hr hm hseal (Die.eraseBay_mapped hbay hdone hpending hmapped hops hfilled)
  case physPlain =>
    exact fun s a bay r b d1 hr hm hbay hplain hdone hphys hnext hreach hroom =>
      exec_physFill hr hm (Die.physPage_fills hbay hplain hdone hphys hnext hreach hroom)
  case physMapped =>
    exact fun s a bay r b hr hm hbay hmapped hphys => exec_physFill hr hm (Die.physPage_mapped hbay hmapped hphys)
  case scrub =>
    rintro s bay page o hr hm ho hphase hplain rfl hnext hreach
    exact exec_scrubPage hr hm ho hphase (Die.scrubStep_next hplain hnext hreach)

end Sys2Proof.Machine
end

section
/-! Queue commands complete (O7): one lemma per row of the statement. -/

namespace Sys2Proof.Machine

/-- A queue command on one of the 64 queues, a tenant's on a queue bound to its tenancy, goes on to its body (R394). -/
theorem Die.queueParam_permitted {d : Die} {h : Hdr} {op q : Nat} (hq : q ≤ 63)
    (hown : d.asTenant h op = true → d.jobTen q = some (hdrTen h)) (body : Die) : d.queueParam h op q body = body := by
  have hpermitted : ¬(d.asTenant h op = true ∧ d.jobTen q ≠ some (hdrTen h)) := fun hother => hother.2 (hown hother.1)
  rw [Die.queueParam, if_neg (Nat.not_lt.mpr hq), if_neg hpermitted]

/-! ## The rows -/

section Rows

variable {s : State} {h : Hdr} {d : Die} {q : Nat}

/-- Q_SETUP of a disabled queue, under a LIVE index that its tenancy may use, asks for the commit of its registers (R311). -/
theorem exec_qSetup {cfg key sq cq : Nat} {ten : Option Nat} (ht : s.takes h 0x0700 [.f] 17 d) (hq : q ≤ 63)
    (hrsv : firstRsv [(17, R.cjeQcfg q, cfg), (21, R.cjeQkey q, key), (25, R.cjeQsq q, sq), (29, R.cjeQcq q, cq)] = none)
    (hoff : (d.job q).st = 0)
    (hten : (if bit (BitVec.ofNat 32 cfg) 28 then some (fld (BitVec.ofNat 32 cfg) 9 0) else none) = ten)
    (hused : ten.any (fun t => decide ((d.ten t).st = .free)) = false) (hkey : d.jobKeyOk ten key = true)
    (hlive : d.live? key = true) :
    exec (.qSetup h q cfg key sq cq) s = .next (s.withDie (d.commitFor .cje (.qSetup h q cfg key sq cq)
      [(R.cjeQcfg q, cfg), (R.cjeQkey q, key), (R.cjeQsq q, sq), (R.cjeQcq q, cq)])) := by
  change execQSetup h q cfg key sq cq s = _
  refine onCmd_leaves ht rfl ?_
  simp only [Nat.not_lt.mpr hq, hrsv, hoff, hten, hused, hkey, hlive, Bool.not_true, Bool.false_eq_true, ne_eq, not_true_eq_false,
    ↓reduceIte]

/-- Q_RESTART runs a queue that is enabled (R321). -/
theorem exec_qRestart (ht : s.takes h 0x0701 [.f, .t] 1 d) (hq : q ≤ 63)
    (hown : d.asTenant h 0x0701 = true → d.jobTen q = some (hdrTen h)) (hon : (d.job q).st ≠ 0) :
    exec (.qRestart h q) s = .next (s.withDie ((d.setJob q { (d.job q) with st := 1 }).ok h 0x0701 [])) := by
  change execQRestart h q s = _
  exact onCmd_leaves ht rfl ((Die.queueParam_permitted hq hown _).trans (if_neg hon))

/-- Q_DISABLE of a queue with a job in progress waits for the job's end (R311). -/
theorem exec_qDisable_busy (ht : s.takesLong h 0x0702 [.f] 1 d) (hq : q ≤ 63) (hon : (d.job q).st ≠ 0)
    (hfirst : (d.job q).disabling = none) (hjob : (d.job q).job ≠ none) :
    exec (.qDisable h q) s = .next (s.withDie ((d.setJob q { (d.job q) with disabling := some h }).interim h 0x0702)) := by
  change execQDisable h q s = _
  refine onCmd_leavesLong ht rfl ?_
  simp only [Nat.not_lt.mpr hq, hon, hfirst, Option.isSome_none, Option.isSome_iff_ne_none.mpr hjob, Bool.false_eq_true, ↓reduceIte]

/-- Q_DISABLE of a queue without a job stops it and asks for the commit of its EN bit (R311). -/
theorem exec_qDisable_idle (ht : s.takesLong h 0x0702 [.f] 1 d) (hq : q ≤ 63) (hon : (d.job q).st ≠ 0)
    (hfirst : (d.job q).disabling = none) (hidle : (d.job q).job = none) :
    let d1 := (d.setJob q { (d.job q) with st := 2 }).interim h 0x0702
    exec (.qDisable h q) s = .next (s.withDie
      (d1.commitFor .cje (.qDisable h q) [(R.cjeQcfg q, (setFld (d1.qcfg q) 31 31 0).toNat)])) := by
  intro d1
  change execQDisable h q s = _
  refine onCmd_leavesLong ht rfl ?_
  simp only [Nat.not_lt.mpr hq, hon, hfirst, hidle, Option.isSome_none, Bool.false_eq_true, ↓reduceIte, d1]

/-- Q_DISABLE of a disabled queue is answered at once. -/
theorem exec_qDisable_disabled (ht : s.takesLong h 0x0702 [.f] 1 d) (hq : q ≤ 63) (hoff : (d.job q).st = 0) :
    exec (.qDisable h q) s = .next (s.withDie (d.ok h 0x0702 [])) := by
  change execQDisable h q s = _
  exact onCmd_leavesLong ht rfl ((if_neg (Nat.not_lt.mpr hq)).trans (if_pos hoff))

theorem exec_qQuery (ht : s.takes h 0x0703 [.f, .t] 1 d) (hq : q ≤ 63)
    (hown : d.asTenant h 0x0703 = true → d.jobTen q = some (hdrTen h)) :
    exec (.qQuery h q) s = .next (s.withDie (d.ok h 0x0703 [(4, (d.qcfg q).toNat), (4, (d.qStat q).toNat)])) := by
  change execQQuery h q s = _
  exact onCmd_leaves ht rfl (Die.queueParam_permitted hq hown _)

/-- A doorbell from a host reaches the queues of tenancies on its own port; it needs the engine's domain awake (R311, R478). -/
theorem exec_jobDoorbell {src : Src} (tail : Nat) (hw : s.window src = true) (hq : q < 64)
    (hport : ∀ t, s.die.active.memWake.jobTen q = some t → src.master < 6 → s.die.active.memWake.tenPort t = src.port) :
    exec (.jobDoorbell src q tail) s =
      .next (s.withDie (s.die.active.memWake.regW (R.cjeDb q) (BitVec.ofNat 32 (tail % 4096)))) := by
  change execJobDoorbell src q tail s = _
  rw [execJobDoorbell, onWindow_window hw]
  simp only [if_neg (Nat.not_le.mpr hq)]
  cases hten : s.die.active.memWake.jobTen q with
  | none => rfl
  | some t =>
    have hmay : ¬(decide (src.master < 6) && decide (s.die.active.memWake.tenPort t ≠ src.port)) = true := by
      simp only [Bool.and_eq_true, decide_eq_true_eq]
      exact fun hother => hother.2 (hport t hten hother.1)
    simp only [if_neg hmay, State.withDie]

end Rows

/-- Settles O7: row by row; Q_DISABLE by the queue's state and whether a job of it is in progress. -/
theorem queueCommandsComplete : Obligations.QueueCommandsComplete := by
  unfold Obligations.QueueCommandsComplete
  refine ⟨?setup, ?restart, ?disableBusy, ?disableIdle, ?disableDisabled, ?query, ?doorbell⟩
  case setup =>
    intro s h d q cfg key sq cq ht hq hrsv hoff ten hused hkey hlive
    exact exec_qSetup ht hq hrsv hoff rfl hused hkey hlive
  case restart => exact fun s h d q ht hq hown hon => exec_qRestart ht hq hown hon
  case disableBusy => exact fun s h d q ht hq hon hfirst hjob => exec_qDisable_busy ht hq hon hfirst hjob
  case disableIdle => exact fun s h d q ht hq hon hfirst hidle => exec_qDisable_idle ht hq hon hfirst hidle
  case disableDisabled => exact fun s h d q ht hq hoff => exec_qDisable_disabled ht hq hoff
  case query => exact fun s h d q ht hq hown => exec_qQuery ht hq hown
  case doorbell => exact fun s src q tail hw hq hport => exec_jobDoorbell tail hw hq hport

end Sys2Proof.Machine
end

section
/-! Page events complete (O21): how far each event moves a page's operation on, and the statement assembled from them. -/

namespace Sys2Proof.Machine

variable {d : Die} {slice page : Nat} {o : PageOp}

/-! ## The page map's line (R290) -/

/-- A fetched page-map line that comes back clean is kept, and the requests that waited for it pass. -/
theorem Die.pageMapReturn_clean (hfetch : d.pmap.fetch.contains (slice, page) = true)
    (hready : d.hbmWaits (.pageMap slice page) = false) :
    d.pageMapReturn slice page .clean =
      let fs := d.pmap.fetch.filter fun (x : Nat × Nat) => decide (x ≠ (slice, page))
      let d3 := { d with pmap := { d.pmap with fetch := fs } }.pmInsert slice page
      (d3.txns.filter fun t => decide (t.stage = .pageMap) && decide (homeOf t.dla = slice) && decide (pageOf t.dla = page)).foldl
        (fun d t => d.passOne t false) d3 := by
  simp only [Die.pageMapReturn, hfetch, hready, Bool.not_true, Bool.false_eq_true, or_self, ↓reduceIte]

/-! ## The operations (R297, R300) -/

theorem Die.beginOp_mark (hop : o.op = .mark) (d : Die) (dist : List (Nat × Arrival)) : d.beginOp o dist = d.markPage o := by
  simp only [Die.beginOp, hop]

theorem Die.beginOp_wb {dla kidx port louvre : Nat} {data : Line} (hop : o.op = .wb dla data kidx port louvre) (d : Die)
    (dist : List (Nat × Arrival)) :
    d.beginOp o dist =
      let w := d.wbWriter dla kidx port louvre
      d.paneWrite { o with writer := some w } (dla / 64 % 64) data (BitVec.allOnes 64) none w dist := by
  simp only [Die.beginOp, hop]

/-! ## The HOLD exchange (R300) -/

section Exchange

variable (hrun : d.runningOp page = some o)

include hrun

/-- An operation under way is published once it may be. -/
theorem Die.runPageOp_goesOn (dist : List (Nat × Arrival)) : d.runPageOp page dist = d.publishReady o := by
  rw [Die.runPageOp, hrun]

/-- HOLD: the slice gives up the page's entry, holds its requests and owes an answer. -/
theorem Die.holdReceived_holds (hleft : o.holdLeft.contains slice = true) :
    d.holdReceived slice page =
      let d1 := d.pmDrop slice page
      { d1 with pmap := { d1.pmap with held := d1.pmap.held ++ [(slice, page)] } }.setOp
        { o with holdLeft := o.holdLeft.erase slice, answerLeft := o.answerLeft ++ [slice] } := by
  simp only [Die.holdReceived, hrun, hleft, Bool.not_true, Bool.false_eq_true, ↓reduceIte]

/-- A slice that owes an answer and has passed no partial write still under way gives it. -/
theorem Die.holdAnswer_answers (hleft : o.answerLeft.contains slice = true) (hnone : d.passedBefore slice page = false) :
    d.holdAnswer slice page =
      let o1 : PageOp := { o with answerLeft := o.answerLeft.erase slice }
      (d.setOp o1).publishReady o1 := by
  simp only [Die.holdAnswer, hrun, hleft, hnone, Bool.not_true, Bool.false_eq_true, or_self, ↓reduceIte]

/-- RELEASE: the slice takes the new entry and passes what it held; the last RELEASE ends the operation. -/
theorem Die.releaseReceived_resumes (hleft : o.relLeft.contains slice = true) :
    d.releaseReceived slice page =
      let o1 : PageOp := { o with relLeft := o.relLeft.erase slice }
      let d1 := d.pmInsert slice page
      let d2 := { d1 with pmap := { d1.pmap with held := d1.pmap.held.filter fun (x : Nat × Nat) => decide (x ≠ (slice, page)) } }
      let d3 := if o1.relLeft = [] then (d2.endOp o1).markDone o1 else d2.setOp o1
      (d3.txns.filter fun t => decide (t.stage = .pageHold) && decide (homeOf t.dla = slice) && mappedBay (bayOf t.dla) &&
        decide (pageOf t.dla = page)).foldl (fun d t => d.passOne t false) d3 := by
  simp only [Die.releaseReceived, hrun, hleft, Bool.not_true, Bool.false_eq_true, ↓reduceIte]

end Exchange

/-- While a partial write that the slice has passed is under way, no answer is given, whatever runs on the page (R336). -/
theorem Die.holdAnswer_waits (hpassed : d.passedBefore slice page = true) : d.holdAnswer slice page = d := by
  rw [Die.holdAnswer]
  cases d.runningOp page with
  | none => rfl
  | some o => exact if_pos (.inr hpassed)

/-! ## The rows -/

section Rows

variable {s : State} (hr : s.runs = true)

include hr

theorem exec_paneOperation {dist : List (Nat × Arrival)} {d1 : Die} (hd : s.die.runPageOp page dist = d1) :
    exec (.paneOperation page dist) s = .next (s.withDie d1) :=
  (onLive_leaves hr rfl hd : execPaneOperation page dist s = _)

theorem exec_holdAnswer {d1 : Die} (hd : s.die.holdAnswer slice page = d1) :
    exec (.holdAnswer slice page) s = .next (s.withDie d1) :=
  (onLive_leaves hr rfl hd : execHoldAnswer slice page s = _)

end Rows

/-- Settles O21: row by row; the page's first operation by its kind, a slice's answer by the partial writes it has passed. -/
theorem pageEventsComplete : Obligations.PageEventsComplete := by
  unfold Obligations.PageEventsComplete
  refine ⟨?mapReturn, ?mark, ?writeBack, ?running, ?hold, ?answer, ?answerWaits, ?release⟩
  case mapReturn =>
    exact fun s slice page hr hfetch hready =>
      (onLive_leaves hr rfl (Die.pageMapReturn_clean hfetch hready) : execPageMapFetchReturn slice page .clean s = _)
  case mark =>
    exact fun s page o dist hr hidle hfront hrepack hop =>
      exec_paneOperation hr ((Die.runPageOp_begins hidle hfront hrepack dist).trans (Die.beginOp_mark hop s.die dist))
  case writeBack =>
    exact fun s page dla kidx port louvre data o dist hr hidle hfront hrepack hop =>
      exec_paneOperation hr ((Die.runPageOp_begins hidle hfront hrepack dist).trans (Die.beginOp_wb hop s.die dist))
  case running => exact fun s page o dist hr hrun => exec_paneOperation hr (Die.runPageOp_goesOn hrun dist)
  case hold =>
    exact fun s slice page o hr hrun hleft =>
      (onLive_leaves hr rfl (Die.holdReceived_holds hrun hleft) : execHoldReceived slice page s = _)
  case answer =>
    exact fun s slice page o hr hrun hleft hnone => exec_holdAnswer hr (Die.holdAnswer_answers hrun hleft hnone)
  case answerWaits => exact fun s slice page hr hpassed => exec_holdAnswer hr (Die.holdAnswer_waits hpassed)
  case release =>
    exact fun s slice page o hr hrun hleft =>
      (onLive_leaves hr rfl (Die.releaseReceived_resumes hrun hleft) : execReleaseReceived slice page s = _)

end Sys2Proof.Machine
end

section
/-! Job events complete (O24): a queue's next fetch and the steps of a job by its phase, and the statement assembled from them. -/

namespace Sys2Proof.Machine

/-! ## The fetch (R314, R315) -/

/-- The job of a queue's head whose descriptor is still to come, under the index `k` (R314). -/
def Die.fetching (d : Die) (q k : Nat) : Job :=
  { idx := (d.job q).head, desc := [], kidx := k, phase := .fetch, got := [], wfail := false, barred := false, res := none, rerun := false,
    gen := match d.jobTen q with | some t => (d.ten t).gen | none => 0 }

/-- The queue whose turn it is, under a LIVE index it may use (R259), reads the descriptor at its head. -/
theorem Die.jobFetch_reads {d d2 : Die} {q : Nat} (hturn : d.nextQueue = some q) :
    let k := fld (d.act (R.cjeQkey q)) 11 0
    d.jobKeyOk (d.jobTen q) k = true → d.live? k = true →
    ({ d with jobTurn := q }.setJob q { (d.job q) with job := some (d.fetching q k) }).jobTxns q k .rd
      [((d.act (R.cjeQsq q)).toNat * 4096 + 64 * (d.job q).head, 0, 0)] = .ok d2 →
    d.jobFetch q = d2 := by
  intro k hkey hlive hreads
  have hgoes : ¬((!d.jobKeyOk (d.jobTen q) k) = true ∨ (!d.live? k) = true) := by
    simp only [hkey, hlive, Bool.not_true, Bool.false_eq_true, or_self, not_false_eq_true]
  rw [Die.jobFetch, if_neg (not_not_intro hturn), if_neg hgoes]
  split
  next hok => exact Except.ok.inj (hok.symm.trans hreads)
  next herror => cases herror.symm.trans hreads

/-! ## The steps (R314, R315) -/

section Steps

variable {d : Die} {q : Nat} {j : Job} (hjob : (d.job q).job = some j) (hback : d.jobBusy q = false) (hrerun : j.rerun = false)

include hjob hback hrerun

/-- A descriptor that has come starts its job. -/
theorem Die.jobStep_fetch {a : Nat} {l : Line} {rest : List (Nat × Option Line)} (hphase : j.phase = .fetch) (hnone : j.desc = [])
    (hgot : j.got = (a, some l) :: rest) :
    d.jobStep q = (d.setJobNow q { j with desc := lineBytes l }).startJob q { j with desc := lineBytes l } := by
  simp only [Die.jobStep, hjob, hback, hrerun, hphase, hnone, hgot, Bool.false_eq_true, false_and, ne_eq, not_true_eq_false,
    ↓reduceIte]

theorem Die.jobStep_read (hphase : j.phase = .read) : d.jobStep q = d.runJob q j := by
  simp only [Die.jobStep, hjob, hback, hrerun, hphase, Bool.false_eq_true, false_and, ↓reduceIte]

/-- An output that is written whole goes on to its completion record. -/
theorem Die.jobStep_write {r : JobRes} (hphase : j.phase = .write) (hres : j.res = some r) (hwhole : j.wfail = false) :
    d.jobStep q = d.jobRecord q j r := by
  simp only [Die.jobStep, hjob, hback, hrerun, hphase, hres, hwhole, Bool.false_eq_true, false_and, ↓reduceIte]

theorem Die.jobStep_record {r : JobRes} (hphase : j.phase = .record) (hres : j.res = some r) :
    d.jobStep q = d.endJob q j r !j.wfail := by
  simp only [Die.jobStep, hjob, hback, hrerun, hphase, hres, Bool.false_eq_true, false_and, ↓reduceIte]

end Steps

theorem exec_jobComplete {s : State} {q : Nat} {d1 : Die} (hr : s.runs = true) (hd : s.die.jobStep q = d1) :
    exec (.jobComplete q) s = .next (s.withDie d1) :=
  (onLive_leaves hr rfl hd : execJobComplete q s = _)

/-- Settles O24: the fetch on the engine that runs, and a job's step by its phase. -/
theorem jobEventsComplete : Obligations.JobEventsComplete := by
  unfold Obligations.JobEventsComplete
  refine ⟨?fetch, ?steps⟩
  case fetch =>
    intro s q d2 hr hengine hturn k hkey hlive j hreads
    exact (onLive_leaves hr rfl ((if_pos hengine).trans (Die.jobFetch_reads hturn hkey hlive hreads)) : execJobFetch q s = _)
  case steps =>
    intro s q j hr hjob hback hrerun
    exact ⟨fun a l rest hphase hnone hgot => exec_jobComplete hr (Die.jobStep_fetch hjob hback hrerun hphase hnone hgot),
      fun hphase => exec_jobComplete hr (Die.jobStep_read hjob hback hrerun hphase),
      fun r hphase hres hwhole => exec_jobComplete hr (Die.jobStep_write hjob hback hrerun hphase hres hwhole),
      fun r hphase hres => exec_jobComplete hr (Die.jobStep_record hjob hback hrerun hphase hres)⟩

end Sys2Proof.Machine
end

section
/-! Tenancy commands complete (O2): what the commands' shared checks let through, the two ways a segment is resized, and one lemma
per row of the statement. -/

namespace Sys2Proof.Machine

/-! ## Rules of the tenancy commands -/

/-- A command that names an ACTIVE tenancy goes on to its body. -/
theorem Die.withTen_active {d : Die} {t : Nat} (ht : t ≤ 1023) (hst : (d.ten t).st = .active) (h : Hdr) (op : Nat) (body : Die) :
    d.withTen h op t body = body :=
  Die.withTen_used ht (by simp only [hst, ne_eq, reduceCtorEq, not_false_eq_true]) h op body

/-- A tenancy parameter in range, a tenant's its own, goes on to the body (R394). -/
theorem Die.tenParam_own {d : Die} {h : Hdr} {op t : Nat} (ht : t ≤ 1023) (hown : d.asTenant h op = true → t = hdrTen h) (off : Nat)
    (body : Die) : d.tenParam h op t off body = body := by
  have hother : ¬(d.asTenant h op = true ∧ t ≠ hdrTen h) := fun hbad => hbad.2 (hown hbad.1)
  rw [Die.tenParam, if_neg hother, if_neg (Nat.not_lt.mpr ht)]

/-- A tenancy that is ACTIVE, with nothing running on it, no bay being added and no request of an earlier generation left, is not busy
(R374, R379). -/
theorem Die.tenancy_not_busy {d : Die} {t : Nat} (hst : (d.ten t).st = .active) (hidle : d.tenRunning t = false)
    (hadds : d.tens.adds.contains t = false) (hgen : d.oldGen t = false) :
    ¬((d.ten t).st ≠ .active ∨ d.tenRunning t = true ∨ d.tens.adds.contains t = true ∨ d.oldGen t = true) := by
  simp only [hst, hidle, hadds, hgen, ne_eq, not_true_eq_false, Bool.false_eq_true, or_self, not_false_eq_true]

/-! ## Resizing a segment (R371, R595) -/

/-- The segments of the tenancies other than `t`. -/
def Die.otherSegs (d : Die) (t : Nat) : List (Nat × Nat) := d.segsTaken (d.tenTaken.filter (· ≠ t))

/-- The request that copies entry `e` of tenancy `t` to the segment at `b`. -/
def Die.copyEntry (d : Die) (t b e : Nat) : CommitReq :=
  { group := .ten, at_ := d.time, cmd := none, writes := btuWrites (b + (e - d.segBase t)) (d.bt e), source := some e }

/-- The request that changes the segment of `t` to `len` entries at `b`. -/
def Die.stageSeg (d : Die) (h : Hdr) (t len b : Nat) : CommitReq :=
  { group := .ten, at_ := d.time, cmd := some (.tenResize h t len), writes := [(R.tenSeg t, BitVec.ofNat 32 (b * 2 ^ 16 + len))] }

/-- A segment with room where it stands keeps its base. -/
theorem Die.resize_stays {d : Die} {t len : Nat} (hroom : segFree (d.otherSegs t) (d.segBase t) len = true) (h : Hdr) :
    d.resize h t len = (d.acceptTenOp h 0x0204 t 2 false).askCommits [d.stageSeg h t len (d.segBase t)] := by
  unfold Die.otherSegs at hroom
  simp only [Die.resize, hroom, ↓reduceIte, List.map_nil, List.nil_append, Die.stageSeg]

/-- A segment without room moves: its entries are copied, then it changes. -/
theorem Die.resize_moves {d : Die} {t len b : Nat} (hroom : segFree (d.otherSegs t) (d.segBase t) len = false)
    (hplace : placeSeg ((d.segBase t, d.segLen t) :: d.otherSegs t) len = some b) (hmoves : b ≠ d.segBase t) (h : Hdr) :
    d.resize h t len = (d.acceptTenOp h 0x0204 t 2 false).askCommits
      (((d.acceptTenOp h 0x0204 t 2 false).tenEntries t).map (d.copyEntry t b) ++ [d.stageSeg h t len b]) := by
  unfold Die.otherSegs at hroom hplace
  simp only [Die.resize, hroom, hplace, hmoves, Bool.false_eq_true, ↓reduceIte, Die.stageSeg]
  rfl

/-! ## The rows -/

section Rows

variable {s : State} {h : Hdr} {d : Die} {ten : Nat}

/-- TEN_CREATE of a record that is free asks for its registers, the segment at the lowest base with room (R595). -/
theorem exec_tenCreate {port ld segLen t b : Nat} (ht : s.takes h 0x0200 [.f] 6 d) (hten : ten ≤ 1023 ∨ ten = 0xffff)
    (hport : port ≤ 5) (hld : ld ≤ 15 ∨ ld = 31) (hlen : segLen ≠ 0) (hmax : segLen ≤ 4096)
    (hchosen : (if ten = 0xffff then (List.range 1024).find? (fun t => !d.tenTaken.contains t)
      else if d.tenTaken.contains ten then none else some ten) = some t)
    (hkey : d.tenTaken.find? (fun k => decide (ld ≠ 31) && decide (d.tenKey k = port * 32 + ld)) = none)
    (hplace : placeSeg (d.segsTaken d.tenTaken) segLen = some b) :
    exec (.tenCreate h ten port ld segLen) s = .next (s.withDie (d.commitFor .ten (.tenCreate h t port ld segLen)
      [(R.tenCfg t, cfgWord port ld), (R.tenSeg t, b * 2 ^ 16 + segLen)])) := by
  have hrange : ¬(1023 < ten ∧ ten ≠ 0xffff) := by omega
  have hldRange : ¬(15 < ld ∧ ld ≠ 31) := by omega
  change execTenCreate h ten port ld segLen s = _
  refine onCmd_leaves ht rfl ?_
  simp only [if_neg hrange, Nat.not_lt.mpr hport, if_neg hldRange, hlen, Nat.not_lt.mpr hmax, or_self, hchosen, hkey, hplace,
    ↓reduceIte]

/-- TEN_SET keeps the default class of a tenancy with a contract (R86). -/
theorem exec_tenSet {cls louvre : Nat} (ht : s.takes h 0x0201 [.f] 4 d) (hten : ten ≤ 1023) (hused : (d.ten ten).st ≠ .free)
    (hcls : cls ≤ 4)
    (hallowed : cls ≠ fld (d.future (R.tenCfg ten)) 22 20 → d.contracts.any (fun c => decide (c.ten = ten)) = false) :
    exec (.tenSet h ten cls louvre) s = .next (s.withDie (d.commitFor .ten (.tenSet h ten cls louvre)
      [(R.tenCfg ten, (setFld (setFld (d.future (R.tenCfg ten)) 22 20 cls) 7 0 louvre).toNat)])) := by
  have hclass : ¬(cls ≠ fld (d.future (R.tenCfg ten)) 22 20 ∧ d.contracts.any (fun c => decide (c.ten = ten)) = true) :=
    fun hbad => Bool.eq_false_iff.mp (hallowed hbad.1) hbad.2
  change execTenSet h ten cls louvre s = _
  exact onCmd_leaves ht rfl ((Die.withTen_used hten hused ..).trans ((if_neg (Nat.not_lt.mpr hcls)).trans (if_neg hclass)))

theorem exec_tenSet_notAllowed {cls : Nat} (louvre : Nat) (ht : s.takes h 0x0201 [.f] 4 d) (hten : ten ≤ 1023)
    (hused : (d.ten ten).st ≠ .free) (hcls : cls ≤ 4) (hother : cls ≠ fld (d.future (R.tenCfg ten)) 22 20)
    (hcon : d.contracts.any (fun c => decide (c.ten = ten)) = true) :
    exec (.tenSet h ten cls louvre) s = .next (s.withDie (d.fail h 0x0201 St.classNotAllowed ten)) := by
  change execTenSet h ten cls louvre s = _
  exact onCmd_leaves ht rfl ((Die.withTen_used hten hused ..).trans ((if_neg (Nat.not_lt.mpr hcls)).trans (if_pos ⟨hother, hcon⟩)))

theorem exec_tenLog {en entry : Nat} (ht : s.takes h 0x0205 [.f] 5 d) (hten : ten ≤ 1023) (hused : (d.ten ten).st ≠ .free)
    (hen : en ≤ 1) (hentry : entry ≤ 16383) :
    exec (.tenLog h ten en entry) s = .next (s.withDie (d.commitFor .ten (.tenLog h ten en entry)
      ([(R.tenCfg ten, (setFld (d.future (R.tenCfg ten)) 19 19 en).toNat)] ++ if en = 1 then [(R.tenLog ten, entry)] else []))) := by
  change execTenLog h ten en entry s = _
  exact onCmd_leaves ht rfl
    ((Die.withTen_used hten hused ..).trans ((if_neg (Nat.not_lt.mpr hen)).trans (if_neg (Nat.not_lt.mpr hentry))))

/-- TEN_RESET of a tenancy that is not busy is accepted (R376). -/
theorem exec_tenReset {scrub : Nat} (ht : s.takesLong h 0x0202 [.f] 3 d) (hten : ten ≤ 1023) (hscrub : scrub ≤ 1)
    (hst : (d.ten ten).st = .active) (hidle : d.tenRunning ten = false) (hadds : d.tens.adds.contains ten = false)
    (hgen : d.oldGen ten = false) :
    exec (.tenReset h ten scrub) s = .next (s.withDie (d.acceptTenOp h 0x0202 ten 0 (decide (scrub = 1)))) := by
  change execTenReset h ten scrub s = _
  exact onCmd_leavesLong ht rfl ((Die.withTen_active hten hst ..).trans
    ((if_neg (Nat.not_lt.mpr hscrub)).trans (if_neg (Die.tenancy_not_busy hst hidle hadds hgen))))

/-- TEN_REMOVE of one that is not busy, with no ring nor another's log in its bays, is accepted (R378). -/
theorem exec_tenRemove (ht : s.takesLong h 0x0203 [.f] 2 d) (hten : ten ≤ 1023) (hst : (d.ten ten).st = .active)
    (hidle : d.tenRunning ten = false) (hadds : d.tens.adds.contains ten = false) (hgen : d.oldGen ten = false)
    (hheld : (d.segEntries ten).find? (fun e => decide ((d.bt e).st ≠ .empty) && (d.holdsRing e || d.holdsLog e (some ten))) = none) :
    exec (.tenRemove h ten) s = .next (s.withDie (d.acceptTenOp h 0x0203 ten 1 true)) := by
  change execTenRemove h ten s = _
  refine onCmd_leavesLong ht rfl ((Die.withTen_active hten hst ..).trans ?_)
  rw [if_neg (Die.tenancy_not_busy hst hidle hadds hgen), hheld]

/-- TEN_RESIZE of an ACTIVE tenancy on which nothing runs, all of its entries LIVE, resizes its segment (R371). -/
theorem exec_tenResize {segLen : Nat} (ht : s.takesLong h 0x0204 [.f] 4 d) (hten : ten ≤ 1023) (hlen : segLen ≠ 0)
    (hmax : segLen ≤ 4096) (hst : (d.ten ten).st = .active) (hidle : d.tenRunning ten = false)
    (hlive : (d.tenEntries ten).any (fun e => decide ((d.bt e).st ≠ .live)) = false) :
    exec (.tenResize h ten segLen) s = .next (s.withDie (d.resize h ten segLen)) := by
  change execTenResize h ten segLen s = _
  refine onCmd_leavesLong ht rfl ((Die.withTen_active hten hst ..).trans ?_)
  simp only [hlen, Nat.not_lt.mpr hmax, hst, hidle, hlive, ne_eq, not_true_eq_false, Bool.false_eq_true, or_self, ↓reduceIte]

/-- TEN_HARVEST of a tenancy that logs waits for the boundary's swap of the maps (R383). -/
theorem exec_tenHarvest (ht : s.takesLong h 0x0206 [.f] 2 d) (hten : ten ≤ 1023) (hused : (d.ten ten).st ≠ .free)
    (hlog : d.logOn ten = true) :
    let x : Harvest := { ten := ten, mapB := false, swapped := none, hdr := h }
    exec (.tenHarvest h ten) s = .next (s.withDie
      ({ d with tens := { d.tens with harvests := d.tens.harvests ++ [x] } }.interim h 0x0206)) := by
  intro x
  change execTenHarvest h ten s = _
  refine onCmd_leavesLong ht rfl ((Die.withTen_used hten hused ..).trans ?_)
  simp only [hlog, Bool.not_true, Bool.false_eq_true, ↓reduceIte, x]

theorem exec_tenQuery (ht : s.takes h 0x0207 [.f, .t] 2 d) (hten : ten ≤ 1023) (hown : d.asTenant h 0x0207 = true → ten = hdrTen h) :
    exec (.tenQuery h ten) s = .next (s.withDie (d.ok h 0x0207
      ([(4, (d.act (R.tenCfg ten)).toNat), (4, (d.act (R.tenSeg ten)).toNat), (4, (d.act (R.tenLog ten)).toNat),
        (4, (d.tenStatReg ten).toNat)] ++ payList 2 (d.allowedOf ten)))) := by
  change execTenQuery h ten s = _
  exact onCmd_leaves ht rfl (Die.tenParam_own hten hown ..)

end Rows

/-- Settles O2: row by row; TEN_CREATE by the record it takes, TEN_RESIZE by whether the segment stays or moves. -/
theorem tenancyCommandsComplete : Obligations.TenancyCommandsComplete := by
  unfold Obligations.TenancyCommandsComplete
  refine ⟨?createLowest, ?createNamed, ?set, ?setNotAllowed, ?log, ?reset, ?remove, ?resizeStays, ?resizeMoves, ?harvest, ?query⟩
  case createLowest =>
    intro s h d port ld segLen t b ht hport hld hlen hmax hlowest hkey hplace
    exact exec_tenCreate ht (.inr rfl) hport hld hlen hmax ((if_pos rfl).trans hlowest) hkey hplace
  case createNamed =>
    intro s h d t port ld segLen b ht hport hld hlen hmax hten hfree hkey hplace
    have hnamed : t ≠ 0xffff := by omega
    exact exec_tenCreate ht (.inl hten) hport hld hlen hmax
      ((if_neg hnamed).trans (if_neg (Bool.eq_false_iff.mp hfree))) hkey hplace
  case set => exact fun s h d ten cls louvre ht hten hused hcls hallowed => exec_tenSet ht hten hused hcls hallowed
  case setNotAllowed =>
    exact fun s h d ten cls louvre ht hten hused hcls hother hcon => exec_tenSet_notAllowed louvre ht hten hused hcls hother hcon
  case log => exact fun s h d ten en entry ht hten hused hen hentry => exec_tenLog ht hten hused hen hentry
  case reset =>
    exact fun s h d ten scrub ht hten hscrub hst hidle hadds hgen => exec_tenReset ht hten hscrub hst hidle hadds hgen
  case remove => exact fun s h d ten ht hten hst hidle hadds hgen hheld => exec_tenRemove ht hten hst hidle hadds hgen hheld
  case resizeStays =>
    intro s h d ten segLen ht hten hlen hmax hst hidle hlive hroom
    rw [exec_tenResize ht hten hlen hmax hst hidle hlive, Die.resize_stays hroom, Die.stageSeg]
  case resizeMoves =>
    intro s h d ten segLen b ht hten hlen hmax hst hidle hlive hroom hplace hmoves d1 copy
    rw [exec_tenResize ht hten hlen hmax hst hidle hlive, Die.resize_moves hroom hplace hmoves]
    rfl
  case harvest => exact fun s h d ten ht hten hused hlog => exec_tenHarvest ht hten hused hlog
  case query => exact fun s h d ten ht hten hown => exec_tenQuery ht hten hown

end Sys2Proof.Machine
end

section
/-! Bay commands complete (O3): an add whose parameters are in range, and one lemma per row of the statement. -/

namespace Sys2Proof.Machine

/-! ## Adding a bay (R364, R365) -/

/-- The DLA bay that an add takes: the lowest free one of its set, or of mapped storage. -/
def Die.bayToAdd (d : Die) (p : BayAddP) : Option Nat := if p.mode = 0 then d.freePhys p.set else d.freeMapped

/-- The bay index that an add takes: the lowest free one, or the one it names. -/
def Die.indexToAdd (d : Die) (p : BayAddP) : Option Nat :=
  if p.bay = 0xffff then (List.range (d.futureSeg p.ten).2).find? (d.indexFree p.ten)
  else if d.indexFree p.ten p.bay then some p.bay else none

/-- An add under a LIVE index, of a bay and at an index that are free, asks for the commit of the entry. -/
theorem Die.bayAddGo_commits {d : Die} {p : BayAddP} {b i : Nat} (hmode : ¬(p.cache = 1 ∧ p.mode = 1))
    (hlive : d.live? p.defKey = true) (hbay : d.bayToAdd p = some b) (hindex : d.indexToAdd p = some i) (h : Hdr) :
    d.bayAddGo h p = ({ d with tens := { d.tens with adds := d.tens.adds ++ [p.ten] } }.commit .ten
      (some (.bayAdd h { p with bay := i })) (btuWrites ((d.futureSeg p.ten).1 + i) (newEntry p b))) := by
  unfold Die.bayToAdd at hbay
  unfold Die.indexToAdd at hindex
  simp only [Die.bayAddGo, if_neg hmode, hlive, hbay, hindex, Bool.not_true, Bool.false_eq_true, ↓reduceIte]

/-! ## The rows -/

section Rows

variable {s : State} {h : Hdr} {d : Die} {ten bay : Nat}

/-- BAY_ADD to an ACTIVE tenancy, its parameters in range, runs the add (R365, R379). -/
theorem exec_bayAdd {p : BayAddP} (ht : s.takes h 0x0300 [.f] 18 d) (hten : p.ten ≤ 1023) (hst : (d.ten p.ten).st = .active)
    (hbay : p.bay = 0xffff ∨ p.bay < (d.futureSeg p.ten).2) (hok : d.bayAddBad p = none) :
    exec (.bayAdd h p) s = .next (s.withDie (d.bayAddGo h p)) := by
  have hactive : ¬(d.ten p.ten).st ≠ .active := not_not_intro hst
  have hrange : ¬(p.bay ≠ 0xffff ∧ (d.futureSeg p.ten).2 ≤ p.bay) := by omega
  change execBayAdd h p s = _
  refine onCmd_leaves ht rfl ((Die.withTen_active hten hst ..).trans ?_)
  rw [if_neg hactive, if_neg hrange, hok]

/-- BAY_SET of a LIVE bay asks for a commit of each of its entries, the named one's last (R363). -/
theorem exec_baySet {cache policy quota e : Nat} (ht : s.takes h 0x0302 [.f] 10 d) (hten : ten ≤ 1023)
    (hused : (d.ten ten).st ≠ .free) (he : d.bayEntry ten bay = some e) (hcache : cache ≤ 1) (hpolicy : policy ≤ 15)
    (hquota : quota ≤ 2097152) (hlive : (d.bt e).st = .live) (hmode : ¬(cache = 1 ∧ (d.bt e).mode = 1)) :
    let request (c : Option Instr) (i : Nat) (x : Bt) : CommitReq :=
      { group := .ten, at_ := d.time, cmd := c, writes := btuWrites i (x.changed cache policy), source := some i }
    let others := (d.sameBay (d.bt e).dlaBay).filter fun x => decide (x.1 ≠ e)
    exec (.baySet h ten bay cache policy quota) s = .next (s.withDie (d.askCommits (others.map (fun x => request none x.1 x.2) ++
      [request (some (.baySet h ten bay cache policy quota)) e (d.bt e)]))) := by
  intro request others
  change execBaySet h ten bay cache policy quota s = _
  refine onCmd_leaves ht rfl ((Die.withTen_used hten hused ..).trans ?_)
  simp only [he, Nat.not_lt.mpr hcache, Nat.not_lt.mpr hpolicy, Nat.not_lt.mpr hquota, hlive, if_neg hmode, ne_eq, not_true_eq_false,
    ↓reduceIte, request, others]

/-- BAY_REMOVE that nothing refuses tells the hosts and starts the removal (R368, R369). -/
theorem exec_bayRemove {force e : Nat} (waitMs : Nat) (ht : s.takesLong h 0x0301 [.f] 9 d) (hten : ten ≤ 1023)
    (hused : (d.ten ten).st ≠ .free) (he : d.bayEntry ten bay = some e) (hforce : force ≤ 1) (hok : d.removeRefused ten e = none) :
    let b := (d.bt e).dlaBay
    let d1 := d.extentEvent b .dcRelease
    let d2 := if force = 1 then d1.extentEvent b .dcForced else d1
    let o : BayOp := { entry := e, bay := b, phase := if force = 1 then d.afterRelease b else .waitHost, why := 0, ten := ten,
                       next := 0, left := [], until_ := d.time + waitMs * 100000, hdr := some h }
    exec (.bayRemove h ten bay force waitMs) s = .next (s.withDie
      ({ d2 with tens := { d2.tens with bayOps := d2.tens.bayOps ++ [o] } }.interim h 0x0301)) := by
  intro b d1 d2 o
  change execBayRemove h ten bay force waitMs s = _
  refine onCmd_leavesLong ht rfl ((Die.withTen_used hten hused ..).trans ?_)
  simp only [he, Nat.not_lt.mpr hforce, hok, ↓reduceIte, b, d1, d2, o]

/-- What BAY_QUERY adds of the store bays behind a mapped bay; of another, the values that stand for none. -/
def BayRec.mappedPay (r : BayRec) (mapped : Bool) : List PayVal :=
  if mapped then [(2, r.primary), (2, r.secondary), (4, r.quota), (4, r.used)] else [(2, 0xffff), (2, 0xffff), (4, 0), (4, 0)]

/-- BAY_QUERY of an index in the segment answers its entry and, unless it is EMPTY, its bay. -/
theorem exec_bayQuery (ht : s.takes h 0x0303 [.f, .t] 4 d) (hten : ten ≤ 1023) (hown : d.asTenant h 0x0303 = true → ten = hdrTen h)
    (hused : (d.ten ten).st ≠ .free) (hbay : bay < d.segLen ten) :
    let b := d.bt (d.segBase ten + bay)
    exec (.bayQuery h ten bay) s = .next (s.withDie (d.ok h 0x0303 ([(4, b.lo.toNat), (4, b.hi.toNat)] ++
      payList 2 (if b.st = .empty then [] else (d.bay b.dlaBay).keyList) ++
      (d.bay b.dlaBay).mappedPay (decide (b.st ≠ .empty) && mappedBay b.dlaBay)))) := by
  intro b
  change execBayQuery h ten bay s = _
  exact onCmd_leaves ht rfl ((Die.tenParam_own hten hown ..).trans ((if_neg hused).trans (if_neg (Nat.not_le.mpr hbay))))

end Rows

/-- Settles O3: row by row; BAY_QUERY by whether the entry is EMPTY. -/
theorem bayCommandsComplete : Obligations.BayCommandsComplete := by
  unfold Obligations.BayCommandsComplete
  refine ⟨?add, ?set, ?remove, ?queryEmpty, ?queryUsed⟩
  case add =>
    intro s h d p b i ht hten hst hrange hok hmode hlive hbay hindex
    rw [exec_bayAdd ht hten hst hrange hok, Die.bayAddGo_commits hmode hlive hbay hindex]
  case set =>
    exact fun s h d ten bay cache policy quota e ht hten hused he hcache hpolicy hquota hlive hmode =>
      exec_baySet ht hten hused he hcache hpolicy hquota hlive hmode
  case remove =>
    exact fun s h d ten bay force waitMs e ht hten hused he hforce hok => exec_bayRemove waitMs ht hten hused he hforce hok
  case queryEmpty =>
    intro s h d ten bay ht hten hown hused hbay hempty
    rw [exec_bayQuery ht hten hown hused hbay, if_pos hempty, hempty]
    rfl
  case queryUsed =>
    intro s h d ten bay ht hten hown hused hbay hfull
    rw [exec_bayQuery ht hten hown hused hbay, if_neg hfull, decide_eq_true hfull, Bool.true_and, BayRec.mappedPay]

end Sys2Proof.Machine
end

section
/-! Commands leave the queue (O39): a command is a meaning of the main die, a PERST# pin's event, a frame's arrival or an event of the
Ohmoux die, and none of them writes the queue. -/

namespace Sys2Proof.Machine

/-! ## The frames of the meanings -/

/-- A command that is no event of the Ohmoux die, of a PERST# pin or of the link is a meaning of the main die. -/
theorem exec_eq_onDie {c : Instr} (hohm : ofOhmoux c = false) (hperst : ofPerst c = false) (hlink : ofLink c = false) (s : State) :
    ∃ f : Die → Die, exec c s = onDie s f := by
  cases c
  case vbusRise | vbusFall | vbusOvervoltage | vbusOvResume | presenceDebounced | prsntRise | orderlyShutdown | presenceCycle |
      entryGood | seqEnable | mainDieRelease | fastTrip | soaTrip | rampTimeout | pgTimeout | pgLost | cooldownEnd | goodRunClear |
      fetShortDetect | fetShortRecheck | oringReverse | oringTurnOn | feedLost | statusFrameSend | standbyOhmClear |
      standbyOhmQuery => cases hohm
  case perstAssert | perstDeassert => cases hperst
  case ohmStatusFrame => cases hlink
  case transomBoundary => exact ⟨_, execTransomBoundary.eq_1 s⟩
  case jtagAccess => exact ⟨_, execJtagAccess.eq_1 ..⟩
  case debugHalt => exact ⟨_, execDebugHalt.eq_1 ..⟩
  case spdInterrupt => exact ⟨_, execSpdInterrupt.eq_1 ..⟩
  case wakeSource => exact ⟨_, execWakeSource.eq_1 ..⟩
  case wakeTimer => exact ⟨_, execWakeTimer.eq_1 s⟩
  all_goals exact ⟨_, rfl⟩

theorem pinChange_guarded_pending {b : Prop} [Decidable b] {s t : State} {p : Nat} {perst : Bool} {f : Die → Die}
    (h : (if b then .next s else pinChange s p perst f) = .next t) : t.pending = s.pending := by
  split at h
  · cases h; rfl
  · exact (pinChange_keeps h).1

/-- An event of a PERST# pin leaves the queue. -/
theorem exec_perst_pending {c : Instr} {s t : State} (hperst : ofPerst c = true) (hstep : exec c s = .next t) :
    t.pending = s.pending := by
  cases c
  case perstAssert | perstDeassert => exact pinChange_guarded_pending hstep
  all_goals cases hperst

theorem eq_ohmStatusFrame_of_ofLink {c : Instr} (hlink : ofLink c = true) : c = .ohmStatusFrame := by
  cases c
  case ohmStatusFrame => rfl
  all_goals cases hlink

/-- A frame's arrival leaves the queue. -/
theorem exec_ohmStatusFrame_pending {s t : State} (hstep : exec .ohmStatusFrame s = .next t) : t.pending = s.pending := by
  change execOhmStatusFrame s = _ at hstep
  rw [execOhmStatusFrame] at hstep
  split at hstep
  · cases hstep; rfl
  · exact (onDie_keeps hstep).1

/-! ## The events of the Ohmoux die -/

@[simp] theorem State.withOhm_pending (s : State) (o : Ohm) : (s.withOhm o).pending = s.pending := (withOhm_keeps s o).1

@[simp] theorem State.sendFrame_pending (s : State) : s.sendFrame.pending = s.pending := (sendFrame_keeps s).1

@[simp] theorem State.ohmEvent_pending (s : State) (bitNo : Nat) : (s.ohmEvent bitNo).pending = s.pending :=
  State.sendFrame_pending _

@[simp] theorem State.tripIn_pending (s : State) (p : OhmSt → Nat → Nat → Bool) (cause : Nat) :
    (s.tripIn p cause).pending = s.pending := by
  rw [State.tripIn]
  split
  · exact State.withOhm_pending s _
  · split
    · split <;> rfl
    · rfl

@[simp] theorem State.standby_pending (s : State) (opcode seq status : Nat) (payload : List PayVal) (o : Ohm) :
    (s.standby opcode seq status payload o).pending = s.pending := by
  simp only [State.standby]
  split <;> rfl

/-- A choice between two states that keep the queue keeps it. -/
theorem ite_pending {b : Prop} [Decidable b] {s u v : State} (hu : u.pending = s.pending) (hv : v.pending = s.pending) :
    (if b then u else v).pending = s.pending := by
  split
  · exact hu
  · exact hv

theorem pending_of_next {s t u : State} (h : (.next u : Host.Outcome State Fault Refusal) = .next t)
    (hu : u.pending = s.pending) : t.pending = s.pending := by
  cases h
  exact hu

/-- An event of the Ohmoux die leaves the queue, by what it does where its guard lets it act. -/
theorem exec_ohmoux_pending {c : Instr} {s t : State} (hohm : ofOhmoux c = true) (hstep : exec c s = .next t) :
    t.pending = s.pending := by
  cases c
  case vbusRise => exact pending_of_next hstep (ite_pending rfl (State.withOhm_pending ..))
  case vbusFall | vbusOvervoltage | vbusOvResume | presenceDebounced | orderlyShutdown | presenceCycle | entryGood | seqEnable |
      cooldownEnd | fetShortDetect => exact pending_of_next hstep (ite_pending (State.withOhm_pending ..) rfl)
  case fetShortRecheck =>
    exact pending_of_next hstep (ite_pending (ite_pending (State.withOhm_pending ..) (State.withOhm_pending ..)) rfl)
  case prsntRise =>
    exact pending_of_next hstep (ite_pending ((State.sendFrame_pending _).trans (State.withOhm_pending ..)) rfl)
  case mainDieRelease | oringTurnOn | statusFrameSend =>
    exact pending_of_next hstep (ite_pending (State.sendFrame_pending _) rfl)
  case goodRunClear | oringReverse | feedLost => exact pending_of_next hstep (ite_pending (State.ohmEvent_pending ..) rfl)
  case fastTrip | soaTrip | rampTimeout | pgTimeout | pgLost => exact pending_of_next hstep (State.tripIn_pending ..)
  case standbyOhmClear =>
    exact pending_of_next hstep (ite_pending rfl (ite_pending (State.standby_pending ..) (State.standby_pending ..)))
  case standbyOhmQuery => exact pending_of_next hstep (ite_pending rfl (State.standby_pending ..))
  all_goals cases hohm

/-- Settles O39: by the die, the pin or the link that the command acts on. -/
theorem commandsLeaveTheQueue : Obligations.CommandsLeaveTheQueue := by
  unfold Obligations.CommandsLeaveTheQueue
  intro c s t hstep
  cases hohm : ofOhmoux c with
  | true => exact exec_ohmoux_pending hohm hstep
  | false =>
    cases hperst : ofPerst c with
    | true => exact exec_perst_pending hperst hstep
    | false =>
      cases hlink : ofLink c with
      | true =>
        obtain rfl := eq_ohmStatusFrame_of_ofLink hlink
        exact exec_ohmStatusFrame_pending hstep
      | false =>
        obtain ⟨f, hf⟩ := exec_eq_onDie hohm hperst hlink s
        exact (onDie_keeps (hf.symm.trans hstep)).1

end Sys2Proof.Machine
end

section
/-! Every packet is checked first (O40), is refused before start and in doorstop (O41), and is replayed where it repeats (O42): every
packet command of the table is its body behind `Die.command`, and one rule per outcome of that. -/

namespace Sys2Proof.Machine

/-! ## A packet that does not reach its body -/

/-- Every packet command of the table is a body of its own behind the repeat rule and the shared checks of its row (R388). -/
theorem exec_eq_command {c : Instr} {p : Packet} (hp : packetRow c = some p) (s : State) :
    ∃ body : Die → Die, exec c s = onCmd s fun d => d.command p.hdr p.op p.roles p.want body := by
  cases c
  all_goals cases hp
  all_goals exact ⟨_, rfl⟩

/-- What `Die.command` makes of a running block's die whatever the body is, the packet command leaves. -/
theorem exec_packet {c : Instr} {p : Packet} {s : State} {d : Die} (hp : packetRow c = some p) (hr : s.runs = true)
    (hd : ∀ body : Die → Die, s.die.command p.hdr p.op p.roles p.want body = d) : exec c s = .next (s.withDie d) := by
  obtain ⟨body, hexec⟩ := exec_eq_command hp s
  rw [hexec, onCmd_runs hr, hd body, State.withDie]

section Command

variable {d d0 : Die} {h : Hdr} {op want : Nat} {roles : List Role}

/-- A packet that is no repeat is kept as its endpoint's most recent command, and the first shared check it fails answers it
(R389, R390). -/
theorem Die.command_refused {st det : Nat} (htake : d.active.take h op = some d0) (hnew : d0.isRepeat h op = false)
    (hcheck : (d0.keepLast (endpOf h.via) { seq := h.seq, opcode := op, reply := none }).hdrCheck h op roles want false =
      some (st, det)) (body : Die → Die) :
    d.command h op roles want body =
      (d0.keepLast (endpOf h.via) { seq := h.seq, opcode := op, reply := none }).fail h op st det := by
  simp only [Die.command, htake, hnew, hcheck, Bool.false_eq_true, ↓reduceIte]

/-- A repeat is answered as one (R390). -/
theorem Die.command_repeat (htake : d.active.take h op = some d0) (hrepeat : d0.isRepeat h op = true) (body : Die → Die) :
    d.command h op roles want body = d0.repeatReply h op := by
  simp only [Die.command, htake, hrepeat, ↓reduceIte]

/-- Before start-up has ended NOT_READY comes before every other check (R393). -/
theorem Die.hdrCheck_notStarted (hdone : d.boot.done = false) (long : Bool) :
    d.hdrCheck h op roles want long = some (St.notReady, 0) := by
  simp only [Die.hdrCheck, hdone, Bool.not_false, true_or, ↓reduceIte]

/-- In doorstop an opcode that is not one of the five is refused, once CXL has not marked it mismatched (R393, R396). -/
theorem Die.hdrCheck_doorstop (hdone : d.boot.done = true) (hhold : d.boot.hold = false) (hcxl : cxlMatches h op = true)
    (hdoor : d.flt.doorstop = true) (hop : inDoorstop op = false) (long : Bool) :
    d.hdrCheck h op roles want long = some (St.doorstopActive, 0) := by
  simp only [Die.hdrCheck, hdone, hhold, hcxl, hdoor, hop, Bool.not_true, Bool.not_false, Bool.false_eq_true, or_self, and_self,
    ↓reduceIte]

theorem inDoorstop_eq_false (hop : ¬(op = 0x0100 ∨ op = 0x0900 ∨ op = 0x0b00 ∨ op = 0x0b06 ∨ op = 0x0d05)) :
    inDoorstop op = false := by
  simpa [inDoorstop] using hop

theorem Die.isRepeat_of_lastOf {l : Last} (hlast : d.lastOf (endpOf h.via) = some l) (hseq : l.seq = h.seq)
    (hop : l.opcode = op) : d.isRepeat h op = true := by
  simp only [Die.isRepeat, hlast, hseq, hop, decide_true, Bool.and_self]

end Command

/-! ## Replay (R390) -/

/-- What answers a repeat: the kept reply marked as replayed, or an interim one while the command runs. -/
def Die.replay (d : Die) (h : Hdr) (op : Nat) : Reply :=
  match (d.lastOf (endpOf h.via)).bind (·.reply) with
  | some r => { r with replayed := true }
  | none => { via := h.via, seq := h.seq, opcode := op, interim := true, replayed := false, status := St.inProgress,
              detail := 0, payload := [] }

theorem Die.replay_kept {d : Die} {h : Hdr} {l : Last} {r : Reply} (hlast : d.lastOf (endpOf h.via) = some l)
    (hreply : l.reply = some r) (op : Nat) : d.replay h op = { r with replayed := true } := by
  rw [Die.replay, hlast, Option.bind_some, hreply]

theorem Die.replay_running {d : Die} {h : Hdr} {l : Last} (hlast : d.lastOf (endpOf h.via) = some l) (hreply : l.reply = none)
    (op : Nat) : d.replay h op =
      { via := h.via, seq := h.seq, opcode := op, interim := true, replayed := false, status := St.inProgress, detail := 0,
        payload := [] } := by
  rw [Die.replay, hlast, Option.bind_some, hreply]

/-- Off the rings a repeat's answer is sent, and nothing else changes. -/
theorem Die.repeatReply_offRing {h : Hdr} (hvia : offRing h.via = true) (d : Die) (op : Nat) :
    d.repeatReply h op = d.sendReply (d.replay h op) := by
  obtain ⟨via⟩ := h
  cases via with
  | ring => cases hvia
  | mailbox | ldMailbox | mctp | steward => rfl

/-! ## The statements -/

/-- Settles O40: the refusal of `Die.command` does not look at the body. -/
theorem everyPacketIsCheckedFirst : Obligations.EveryPacketIsCheckedFirst := by
  unfold Obligations.EveryPacketIsCheckedFirst
  intro c p s d0 st det hp hr htake hnew d1 hcheck
  exact exec_packet hp hr (Die.command_refused htake hnew hcheck)

/-- Settles O41: the two checks of R393 that fail. -/
theorem packetsRefusedBeforeStartAndInDoorstop : Obligations.PacketsRefusedBeforeStartAndInDoorstop := by
  unfold Obligations.PacketsRefusedBeforeStartAndInDoorstop
  intro c p s d0 hp hr htake hnew d1
  refine ⟨?notStarted, ?doorstop⟩
  case notStarted =>
    intro hdone
    exact exec_packet hp hr (Die.command_refused htake hnew (Die.hdrCheck_notStarted hdone false))
  case doorstop =>
    intro hdone hhold hdoor hcxl hop
    exact exec_packet hp hr
      (Die.command_refused htake hnew (Die.hdrCheck_doorstop hdone hhold hcxl hdoor (inDoorstop_eq_false hop) false))

/-- Settles O42: by whether the endpoint keeps a reply to the command or the command still runs. -/
theorem repeatedPacketsAreReplayed : Obligations.RepeatedPacketsAreReplayed := by
  unfold Obligations.RepeatedPacketsAreReplayed
  intro c p s d0 l hp hr hvia htake hlast hseq hop
  refine exec_packet hp hr fun body => ?_
  rw [Die.command_repeat htake (Die.isRepeat_of_lastOf hlast hseq hop), Die.repeatReply_offRing hvia]
  cases hreply : l.reply with
  | some r => rw [Die.replay_kept hlast hreply]
  | none => exact (congrArg d0.sendReply (Die.replay_running hlast hreply _)).trans (sendReply_offRing _ _ hvia)

end Sys2Proof.Machine
end

section
/-! Replies go out and are kept (O43): what is kept for each endpoint, and a final reply off the rings in its two parts, the manager's
records and the message. -/

namespace Sys2Proof.Machine

/-! ## What is kept for each endpoint (R390) -/

theorem Die.lastOf_keepLast_same (d : Die) (e : Endp) (l : Last) : (d.keepLast e l).lastOf e = some l := by
  simp only [Die.lastOf, Die.keepLast, List.find?_cons_of_pos, decide_true, Option.map_some]

theorem Die.lastOf_keepLast_other {e e' : Endp} (hne : e' ≠ e) (d : Die) (l : Last) :
    (d.keepLast e l).lastOf e' = d.lastOf e' := by
  have hfound (x : Endp × Last) : (x.1 ≠ e ∧ x.1 = e') ↔ x.1 = e' := ⟨And.right, fun hx => ⟨hx ▸ hne, hx⟩⟩
  simp only [Die.lastOf, Die.keepLast, List.find?_cons, hne.symm, decide_false, List.find?_filter, decide_eq_true_eq, hfound]

/-! ## A final reply off the rings (R387, R390, R392) -/

/-- The manager's records of a final reply `r`: a long command is over, and the endpoint keeps `r` where it answers its most recent
command. -/
def Die.keepReply (d : Die) (h : Hdr) (op : Nat) (r : Reply) : Die :=
  let d1 : Die :=
    { d with mgt := { d.mgt with longs := d.mgt.longs.filter fun (x : Endp × Nat) => decide (x ≠ (endpOf h.via, h.seq)) } }
  match d.lastOf (endpOf h.via) with
  | some l => if l.seq = h.seq ∧ l.opcode = op then d1.keepLast (endpOf h.via) { l with reply := some r } else d1
  | none => d1

theorem Die.answer_offRing {h : Hdr} {payload : List PayVal} (hvia : offRing h.via = true) (hfits : paySize payload ≤ payMax h.via)
    (d : Die) (op st det : Nat) :
    let r : Reply :=
      { via := h.via, seq := h.seq, opcode := op, interim := false, replayed := false, status := st, detail := det,
        payload := payload }
    d.answer h op st det payload = (d.keepReply h op r).emit (.reply r) := by
  have hlong : ¬payMax h.via < paySize payload := Nat.not_lt.mpr hfits
  simp only [Die.answer, hlong, decide_false, Bool.false_eq_true, ↓reduceIte]
  exact sendReply_offRing _ _ hvia

/-- The records of a reply are the manager's. -/
theorem Die.keepReply_frame (d : Die) (h : Hdr) (op : Nat) (r : Reply) :
    d.keepReply h op r = { d with mgt := (d.keepReply h op r).mgt } := by
  rw [Die.keepReply]
  split
  · split <;> rfl
  · rfl

theorem Die.keepReply_lastOf_same {d : Die} {h : Hdr} {op : Nat} {l : Last} (hlast : d.lastOf (endpOf h.via) = some l)
    (hseq : l.seq = h.seq) (hop : l.opcode = op) (r : Reply) :
    (d.keepReply h op r).lastOf (endpOf h.via) = some { l with reply := some r } := by
  simp only [Die.keepReply, hlast, hseq, hop, and_self, ↓reduceIte]
  exact Die.lastOf_keepLast_same _ _ _

theorem Die.keepReply_lastOf_other {e : Endp} {h : Hdr} (hne : e ≠ endpOf h.via) (d : Die) (op : Nat) (r : Reply) :
    (d.keepReply h op r).lastOf e = d.lastOf e := by
  rw [Die.keepReply]
  split
  · split
    · exact Die.lastOf_keepLast_other hne _ _
    · rfl
  · rfl

/-- Settles O43: the reply goes out after the records of it, which `Die.keepReply` holds. -/
theorem repliesGoOutAndAreKept : Obligations.RepliesGoOutAndAreKept := by
  unfold Obligations.RepliesGoOutAndAreKept
  intro d h op st det payload hvia hfits r d1
  have hreply : d1 = (d.keepReply h op r).emit (.reply r) := Die.answer_offRing hvia hfits d op st det
  rw [hreply]
  have hframe := d.keepReply_frame h op r
  refine ⟨?out, ?frame, ?kept, ?others⟩
  case out => rw [hframe]; rfl
  case frame => rw [hframe]; rfl
  case kept => exact fun l hlast hseq hop => Die.keepReply_lastOf_same hlast hseq hop r
  case others => exact fun e hne => Die.keepReply_lastOf_other hne d op r

end Sys2Proof.Machine
end

section
/-! Management commands complete (O1): one lemma per row of the statement that a guard decides. -/

namespace Sys2Proof.Machine

section Rows

variable {s : State} {h : Hdr} {d : Die}

/-- GET_NOTICES with no notice lost from its queue answers the oldest notices that fit and takes them out of the queue (R399). -/
theorem exec_getNotices {max : Nat} (ht : s.takes h 0x0102 [.f] 2 d) (hlost : d.lostOn 2 = 0) :
    let k := min max (noticeRoom h.via)
    exec (.getNotices h max) s = .next (s.withDie
      ({ d with mgt := { d.mgt with notices := d.mgt.notices.drop k } }.ok h 0x0102
        ((2, (d.mgt.notices.take k).length) :: (d.mgt.notices.take k).flatMap Notice.pay))) := by
  intro k
  have htaken : (if k = 0 then 0 else k) = k := by
    split <;> simp only [*]
  change execGetNotices h max s = _
  refine onCmd_leaves ht rfl ?_
  cases hqueue : d.mgt.notices <;>
    simp only [hqueue, hlost, ↓reduceIte, List.nil_append, List.length_nil, Nat.sub_zero, ne_eq, not_true_eq_false, and_false,
      htaken, k]

/-- SET_NOTICE_ROUTE with a ring route only where its ring is a manager's on a manager's port (R399). -/
theorem exec_setNoticeRoute {mask eid ring : Nat} (ht : s.takes h 0x0103 [.f, .k] 3 d) (hmask : mask ≤ 7)
    (hring : mask.testBit 1 = true →
      ring ≤ 7 ∧ (d.ring ring).valid = true ∧ (d.ring ring).role = 0 ∧ d.fmPort (d.ring ring).port = true) :
    exec (.setNoticeRoute h mask eid ring) s = .next (s.withDie
      ({ d with mgt := { d.mgt with routeMask := mask, routeEid := eid, routeRing := ring } }.ok h 0x0103 [])) := by
  have hnumber : ¬(mask.testBit 1 = true ∧ 7 < ring) := fun ⟨hbit, hlt⟩ => absurd (hring hbit).1 (Nat.not_le.mpr hlt)
  have hmanager : ¬(mask.testBit 1 = true ∧
      ((!(d.ring ring).valid) = true ∨ (d.ring ring).role ≠ 0 ∨ (!d.fmPort (d.ring ring).port) = true)) := by
    rintro ⟨hbit, hbad⟩
    obtain ⟨-, hvalid, hrole, hport⟩ := hring hbit
    simp only [hvalid, hrole, hport, Bool.not_true, Bool.false_eq_true, ne_eq, not_true_eq_false, or_self] at hbad
  change execSetNoticeRoute h mask eid ring s = _
  exact onCmd_leaves ht rfl ((if_neg (Nat.not_lt.mpr hmask)).trans ((if_neg hnumber).trans (if_neg hmanager)))

/-- RING_SETUP with LOG2 0 takes the ring away (R397). -/
theorem exec_ringSetup_off {ring role ten bay offset vector : Nat} (ht : s.takes h 0x0104 [.f] 12 d)
    (hok : badRing ring role offset 0 vector = none) :
    exec (.ringSetup h ring role ten bay offset 0 vector) s =
      .next (s.withDie ((d.setRing ring Ring.init).ok h 0x0104 [])) := by
  change execRingSetup h ring role ten bay offset 0 vector s = _
  refine onCmd_leaves ht rfl ?_
  simp only [hok, ↓reduceIte]

/-- RING_SETUP on a plain LIVE bay of a tenancy, the manager's ring on a manager's port, gives a ring at its start (R397). -/
theorem exec_ringSetup_on {ring role ten bay offset log2 vector : Nat} (ht : s.takes h 0x0104 [.f] 12 d)
    (hok : badRing ring role offset log2 vector = none) (hlog2 : log2 ≠ 0) (hten : ten ≤ 1023) (hused : (d.ten ten).st ≠ .free)
    (hport : role = 0 → d.fmPort (d.tenPort ten) = true) (hbay : bay < d.segLen ten)
    (hplain : d.plainEntry (d.segBase ten + bay) = true) :
    exec (.ringSetup h ring role ten bay offset log2 vector) s = .next (s.withDie ((d.setRing ring
      { valid := true, role := role, ten := ten, bay := bay, offset := offset, log2 := log2, vector := vector,
        port := d.tenPort ten, tail := 0, head := 0, fetched := 0, asked := false, got := [], subs := [] }).ok h 0x0104 [])) := by
  have hnamed : ¬(1023 < ten ∨ (d.ten ten).st = .free) := not_or.mpr ⟨Nat.not_lt.mpr hten, hused⟩
  have hallowed : ¬(role = 0 ∧ (!d.fmPort (d.tenPort ten)) = true) := by
    rintro ⟨hrole, hno⟩
    simp only [hport hrole, Bool.not_true, Bool.false_eq_true] at hno
  change execRingSetup h ring role ten bay offset log2 vector s = _
  refine onCmd_leaves ht rfl ?_
  simp only [hok, hlog2, hnamed, hallowed, Nat.not_le.mpr hbay, hplain, Bool.not_true, Bool.false_eq_true, ↓reduceIte]

theorem exec_eventEnable {base value o : Nat} (ht : s.takes h 0x0903 [.f] 8 d) (ho : eventEnOf base = some o)
    (hmask : value &&& regMask o = value) :
    exec (.eventEnable h base value) s =
      .next (s.withDie (((d.regWake o).regW o (BitVec.ofNat 32 value)).ok h 0x0903 [])) := by
  change execEventEnable h base value s = _
  refine onCmd_leaves ht rfl ?_
  simp only [ho, hmask, ne_eq, not_true_eq_false, ↓reduceIte]

/-- An opcode the table does not list fails unless it is a repeat: NOT_READY before start-up has ended, BAD_OPCODE after (R393,
R400). -/
theorem exec_unknownOpcode {opcode : Nat} (hr : s.runs = true) (hop : opcodes.contains opcode = false)
    (htake : s.die.active.take h opcode = some d) (hnew : d.isRepeat h opcode = false) :
    exec (.unknownOpcode h opcode) s = .next (s.withDie
      ((d.keepLast (endpOf h.via) { seq := h.seq, opcode := opcode, reply := none }).fail h opcode
        (if d.boot.done then St.badOpcode else St.notReady) 0)) := by
  have hstatus (b : Bool) :
      (if (!b) = true then St.notReady else St.badOpcode) = if b = true then St.badOpcode else St.notReady := by
    cases b <;> rfl
  change execUnknownOpcode h opcode s = _
  refine onLive_leaves hr rfl ?_
  simp only [hop, htake, hnew, Bool.false_eq_true, ↓reduceIte]
  exact congrArg (Die.fail _ h opcode · 0) (hstatus d.boot.done)

end Rows

/-- Settles O1: row by row; the rows without a guard of their own are their bodies. -/
theorem managementCommandsComplete : Obligations.ManagementCommandsComplete := by
  unfold Obligations.ManagementCommandsComplete
  refine ⟨?identity, ?capacity, ?notices, ?routeNoRing, ?routeRing, ?ringOff, ?ringOn, ?ohmQuery, ?ohmClear, ?eventEnable,
    ?unknown⟩
  case identity => exact fun s h d ht => (onCmd_leaves ht rfl rfl : execGetIdentity h s = _)
  case capacity => exact fun s h d ht => (onCmd_leaves ht rfl rfl : execGetCapacity h s = _)
  case notices => exact fun s h d max ht hlost => exec_getNotices ht hlost
  case routeNoRing =>
    intro s h d mask eid ring ht hmask hnoRing
    exact exec_setNoticeRoute ht hmask fun hbit => absurd hbit (Bool.eq_false_iff.mp hnoRing)
  case routeRing =>
    exact fun s h d mask eid ring ht hmask _ hring hvalid hrole hport =>
      exec_setNoticeRoute ht hmask fun _ => ⟨hring, hvalid, hrole, hport⟩
  case ringOff => exact fun s h d ring role ten bay offset vector ht hok => exec_ringSetup_off ht hok
  case ringOn =>
    exact fun s h d ring role ten bay offset log2 vector ht hok hlog2 hten hused hport hbay hplain =>
      exec_ringSetup_on ht hok hlog2 hten hused hport hbay hplain
  case ohmQuery => exact fun s h d ht => (onCmd_leaves ht rfl rfl : execOhmQuery h s = _)
  case ohmClear => exact fun s h d ht => (onCmd_leaves ht rfl rfl : execOhmClear h s = _)
  case eventEnable => exact fun s h d base value o ht ho hmask => exec_eventEnable ht ho hmask
  case unknown => exact fun s h d0 opcode hr hop htake hnew => exec_unknownOpcode hr hop htake hnew

end Sys2Proof.Machine
end

section
/-! Deadbolt commands complete (O12): the rules of claims, proposals and signatures, and one lemma per row of the statement. -/

namespace Sys2Proof.Machine

/-! ## Claims (R403) -/

section Claims

variable {d : Die} {h : Hdr}

/-- A keeper's claim of an unowned device is kept until the steward's comes. -/
theorem Die.claimDevice_keeper {eid port : Nat} {session : Bool} (hvia : h.via = .mctp eid session)
    (hunowned : d.dbl.owned = false) (hport : port ≤ 5) (secret : Nat) :
    d.claimDevice h secret port =
      (d.setDbl { d.dbl with claim := some { eid := eid, secret := secret, port := port, time := d.time } }).ok h 0x0d00 [] := by
  simp only [Die.claimDevice, hunowned, hvia, Nat.not_lt.mpr hport, Bool.false_eq_true, ↓reduceIte]

/-- The steward's claim on the port of a keeper's claim still waiting makes the device owned. -/
theorem Die.claimDevice_steward {p : Nat} {c : Claim} (hvia : h.via = .steward p) (hunowned : d.dbl.owned = false)
    (hclaim : d.claimNow = some c) (hport : c.port = p) (secret port : Nat) :
    let d1 := (d.storeSecret 1 c.secret).storeSecret 2 secret
    d.claimDevice h secret port =
      ((d1.setDbl { d1.dbl with owned := true, port := p, eid := c.eid, changes := 0, claim := none }).keepDbl).ok h 0x0d00 [] := by
  simp only [Die.claimDevice, hunowned, hvia, hclaim, hport, ne_eq, not_true_eq_false, Bool.false_eq_true, ↓reduceIte]

end Claims

/-! ## Proposals (R404) -/

/-- A proposal whose body stands, of a KIND not yet open, is kept under the next ID with a nonce of its own. -/
theorem Die.dblPropose_open {d : Die} {kind : Nat} {body : List Nat} (howned : d.dbl.owned = true)
    (hbody : d.bodyBad kind body = none) (hkind : d.dbl.props.any (fun (p : Proposal) => decide (p.kind = kind)) = false)
    (hroom : d.dbl.props.length < 4) (h : Hdr) :
    let id := d.dbl.nextId
    let head := d.propHead kind (partyOf h.via) id (Config.random d.draws % 2 ^ 128) body.length
    let p : Proposal :=
      { id := id, kind := kind, proposer := partyOf h.via, time := d.time, head := head, body := body, keeperSigned := false,
        stewardSigned := false, bad := 0, commit := none }
    let d1 : Die := { d with draws := d.draws + 1 }
    d.dblPropose h kind body = (d1.setDbl { d.dbl with nextId := (id + 1) % 2 ^ 32, props := d.dbl.props ++ [p] }).ok h 0x0d01
      [(4, id), bytesPay head, bytesPay p.digest, (8, d.time + dblWindow)] := by
  have hfree : ¬(d.dbl.props.any (fun (p : Proposal) => decide (p.kind = kind)) = true ∨ 4 ≤ d.dbl.props.length) :=
    not_or.mpr ⟨Bool.eq_false_iff.mp hkind, Nat.not_le.mpr hroom⟩
  have howner : ¬(!d.dbl.owned) = true := by simp only [howned, Bool.not_true, Bool.false_eq_true, not_false_eq_true]
  rw [Die.dblPropose, if_neg howner, hbody]
  exact if_neg hfree

theorem Die.withProp_open {d : Die} {id : Nat} {p : Proposal}
    (hp : d.dbl.props.find? (fun (p : Proposal) => decide (p.id = id)) = some p) (h : Hdr) (op : Nat) (body : Proposal → Die) :
    d.withProp h op id body = body p := by
  simp only [Die.withProp, hp]

/-! ## Signatures (R405, R406) -/

theorem partyOf_cases (v : Via) : partyOf v = 1 ∨ partyOf v = 2 := by
  cases v with
  | steward => exact .inr rfl
  | mailbox | ldMailbox | mctp | ring => exact .inl rfl

section Signatures

variable {d : Die} {h : Hdr} {p : Proposal} {mac : Nat}

/-- The first right signature is kept. -/
theorem Die.sign_first (hopen : p.commit = none) (hkeeper : p.keeperSigned = false) (hsteward : p.stewardSigned = false)
    (hmac : mac = d.signature p (partyOf h.via)) :
    d.sign h p mac = (d.setProp { p with keeperSigned := decide (partyOf h.via = 1),
                                         stewardSigned := decide (partyOf h.via = 2) }).ok h 0x0d03 [(1, 0), (8, 0)] := by
  obtain hme | hme := partyOf_cases h.via
  all_goals simp [Die.sign, hme, hopen, hkeeper, hsteward, hmac]

/-- The second party's right signature, on a body that still stands, sets the commit two transoms on. -/
theorem Die.sign_second (hopen : p.commit = none) (hkeeper : p.keeperSigned = decide (partyOf h.via = 2))
    (hsteward : p.stewardSigned = decide (partyOf h.via = 1)) (hmac : mac = d.signature p (partyOf h.via))
    (hbody : d.bodyBad p.kind p.body = none) :
    d.sign h p mac = (d.setProp { p with keeperSigned := true, stewardSigned := true, commit := some (d.transom + 2) }).ok h 0x0d03
      [(1, 1), (8, d.transom + 2)] := by
  obtain hme | hme := partyOf_cases h.via
  all_goals simp [Die.sign, hme, hopen, hkeeper, hsteward, hmac, hbody]

end Signatures

/-! ## The rows -/

section Rows

variable {s : State} {h : Hdr} {d : Die} {id : Nat} {p : Proposal}

theorem exec_dblClaim {want : Nat} (ht : s.takes h 0x0d00 [.k, .s] want d) (hwant : (if partyOf h.via = 1 then 49 else 48) = want)
    (secret port : Nat) : exec (.dblClaim h secret port) s = .next (s.withDie (d.claimDevice h (secret % 2 ^ 384) port)) := by
  subst hwant
  change execDblClaim h secret port s = _
  exact onCmd_leaves ht rfl rfl

theorem exec_claimTimeout (hr : s.runs = true) (hover : s.die.claimNow = none) :
    exec .claimTimeout s = .next (s.withDie (s.die.setDbl { s.die.dbl with claim := none })) := by
  have hnone : s.die.claimNow.isNone = true := by rw [hover, Option.isNone_none]
  change execClaimTimeout s = _
  exact onLive_leaves hr rfl (if_pos hnone)

/-- DBL_GET answers a proposal that is still open once those whose time is over are closed (R404). -/
theorem exec_dblGet (ht : s.takes h 0x0d02 [.k, .s] 4 d)
    (hp : d.expireProps.dbl.props.find? (fun (p : Proposal) => decide (p.id = id)) = some p) :
    exec (.dblGet h id) s = .next (s.withDie (d.expireProps.ok h 0x0d02
      [bytesPay p.head, bytesPay p.body, bytesPay p.digest, (1, b2n p.keeperSigned + 2 * b2n p.stewardSigned)])) := by
  change execDblGet h id s = _
  exact onCmd_leaves ht rfl (Die.withProp_open hp ..)

/-- DBL_SIGN adds its signature to such a proposal. -/
theorem exec_dblSign (hmac : Nat) (ht : s.takes h 0x0d03 [.k, .s] 52 d)
    (hp : d.expireProps.dbl.props.find? (fun (p : Proposal) => decide (p.id = id)) = some p) :
    exec (.dblSign h id hmac) s = .next (s.withDie (d.expireProps.sign h p (hmac % 2 ^ 384))) := by
  change execDblSign h id hmac s = _
  exact onCmd_leaves ht rfl (Die.withProp_open hp ..)

/-- A proposal without a commit set is withdrawn (R405). -/
theorem exec_dblWithdraw (ht : s.takes h 0x0d04 [.k, .s] 4 d)
    (hp : d.expireProps.dbl.props.find? (fun (p : Proposal) => decide (p.id = id)) = some p) (hopen : p.commit = none) :
    exec (.dblWithdraw h id) s = .next (s.withDie ((d.expireProps.closeProp p.id St.deadboltCancelled).ok h 0x0d04 [])) := by
  have hset : ¬p.commit.isSome = true := by rw [hopen, Option.isSome_none]; exact Bool.false_ne_true
  change execDblWithdraw h id s = _
  exact onCmd_leaves ht rfl ((Die.withProp_open hp ..).trans (if_neg hset))

end Rows

/-- Settles O12: row by row; the commands on a proposal by the one that is open under the ID. -/
theorem deadboltCommandsComplete : Obligations.DeadboltCommandsComplete := by
  unfold Obligations.DeadboltCommandsComplete
  refine ⟨?keeperClaim, ?stewardClaim, ?timeout, ?propose, ?get, ?signFirst, ?signSecond, ?withdraw, ?status⟩
  case keeperClaim =>
    intro s h d secret port eid session hvia ht hunowned hport
    rw [exec_dblClaim ht (by rw [hvia]; rfl), Die.claimDevice_keeper hvia hunowned hport]
  case stewardClaim =>
    intro s h d secret port p c hvia ht hunowned hclaim hport
    rw [exec_dblClaim ht (by rw [hvia]; rfl), Die.claimDevice_steward hvia hunowned hclaim hport]
  case timeout => exact fun s hr hover => exec_claimTimeout hr hover
  case propose =>
    intro s h d0 kind body ht d b howned hbody hkind hroom
    exact (onCmd_leaves ht rfl (Die.dblPropose_open howned hbody hkind hroom h) : execDblPropose h kind body s = _)
  case get => exact fun s h d id p ht hp => exec_dblGet ht hp
  case signFirst =>
    intro s h d id hmac p ht hp hopen hkeeper hsteward hright
    rw [exec_dblSign hmac ht hp, Die.sign_first hopen hkeeper hsteward hright]
  case signSecond =>
    intro s h d id hmac p ht hp hopen hkeeper hsteward hright hbody
    rw [exec_dblSign hmac ht hp, Die.sign_second hopen hkeeper hsteward hright hbody]
  case withdraw => exact fun s h d id p ht hp hopen => exec_dblWithdraw ht hp hopen
  case status => exact fun s h d ht => (onCmd_leaves ht rfl rfl : execDblStatus h s = _)

end Sys2Proof.Machine
end

section
/-! The two dies (O45, O46): a command of the main die leaves the Ohmoux die, and has no effect in reset. What an event of the Ohmoux die
can do to its state is said once, as `Ohm.Moves`; every command is one step of the supply (`State.SupplyStep`). -/

namespace Sys2Proof.Machine

/-! ## Commands of the main die -/

theorem pinChange_guarded_keeps {b : Prop} [Decidable b] {s t : State} {p : Nat} {perst : Bool} {f : Die → Die}
    (h : (if b then .next s else pinChange s p perst f) = .next t) : t.ohm = s.ohm ∧ t.link = s.link := by
  split at h
  · cases h; exact ⟨rfl, rfl⟩
  · exact (pinChange_keeps h).2

/-- An event of a PERST# pin leaves the Ohmoux die and the link. -/
theorem exec_perst_keeps {c : Instr} {s t : State} (hperst : ofPerst c = true) (hstep : exec c s = .next t) :
    t.ohm = s.ohm ∧ t.link = s.link := by
  cases c
  case perstAssert | perstDeassert => exact pinChange_guarded_keeps hstep
  all_goals cases hperst

/-- A frame's arrival leaves the Ohmoux die. -/
theorem exec_ohmStatusFrame_ohm {s t : State} (hstep : exec .ohmStatusFrame s = .next t) : t.ohm = s.ohm := by
  change execOhmStatusFrame s = _ at hstep
  rw [execOhmStatusFrame] at hstep
  split at hstep
  · cases hstep; rfl
  · exact (onDie_keeps hstep).2.1

/-- Settles O46: by the main die's own commands, the PERST# pins' and the link's. -/
theorem mainDieCommandsLeaveOhmoux : Obligations.MainDieCommandsLeaveOhmoux := by
  unfold Obligations.MainDieCommandsLeaveOhmoux
  intro c s t hohm hstep
  cases hperst : ofPerst c with
  | true =>
    obtain ⟨ho, hl⟩ := exec_perst_keeps hperst hstep
    exact ⟨ho, fun _ => hl⟩
  | false =>
    cases hlink : ofLink c with
    | true =>
      obtain rfl := eq_ohmStatusFrame_of_ofLink hlink
      exact ⟨exec_ohmStatusFrame_ohm hstep, fun h => nomatch h⟩
    | false =>
      obtain ⟨f, hf⟩ := exec_eq_onDie hohm hperst hlink s
      obtain ⟨-, ho, hl⟩ := onDie_keeps (hf.symm.trans hstep)
      exact ⟨ho, fun _ => hl⟩

/-- Settles O45: a meaning of the main die has no effect while the die is in reset. -/
theorem mainDieInResetIgnoresCommands : Obligations.MainDieInResetIgnoresCommands := by
  unfold Obligations.MainDieInResetIgnoresCommands
  intro c s hreset hohm hperst hlink
  obtain ⟨f, hf⟩ := exec_eq_onDie hohm hperst hlink s
  rw [hf, onDie_reset hreset]

/-! ## Moves of the Ohmoux die (R460) -/

/-- Two states of the Ohmoux die that differ at most in the feeds, what is still to be reported, the reply kept, and the trip of this
cycle. -/
def Ohm.SameSupply (a b : Ohm) : Prop :=
  a = { b with feedAOk := a.feedAOk, feedBOk := a.feedBOk, feedAOn := a.feedAOn, feedBOn := a.feedBOn, events := a.events,
               last := a.last, tripNow := a.tripNow }

/-- What command `c` can make of the Ohmoux die, with the part of its guard that the invariants need. -/
inductive Ohm.Moves (o : Ohm) : Instr → Ohm → Prop
  | stays (c : Instr) : Moves o c o
  | rise (mv : Nat) (straps : Straps) (damaged : Option Nat) (h : o.powered = false) :
      Moves o (.vbusRise mv straps damaged) (o.rise mv straps damaged)
  | stop (mv : Nat) : Moves o (.vbusFall mv) (o.stop mv)
  | holdOff (mv : Nat) (hon : o.powered = true) (hst : o.st ≠ .fetShort) : Moves o (.vbusOvervoltage mv)
      { o.off with st := .holdOff, vbusOk := false, vbus := mv, debounced := false, fltN := false }
  | resume (mv : Nat) (hst : o.st = .holdOff) : Moves o (.vbusOvResume mv) { o with vbusOk := true, vbus := mv }.actOn
  | present (cdh : Nat) : Moves o (.presenceDebounced cdh) (o.present cdh)
  | absent : Moves o .prsntRise o.absent
  | shutdown (h : o.leaving = true) : Moves o .orderlyShutdown { o.off with st := .waitPresent }
  | presenceCycle (hst : o.st = .latched) : Moves o .presenceCycle o.unlatch
  | standbyClear (q : Nat) (hst : o.st = .latched) : Moves o (.standbyOhmClear q) o.unlatch
  | entryGood (v : Nat) (hst : o.st = .ramp) : Moves o (.entryGood v) (o.entryGood v)
  | seqEnable (hst : o.st = .seq) : Moves o .seqEnable { o with pg := o.seqEn, seqEn := 2 * o.seqEn + 1 }
  | release (hst : o.st = .seq) (hen : o.seqEn = 255) : Moves o .mainDieRelease { o with st := .good, pg := 255, released := true }
  | trip {c : Instr} {cause : Nat} {lists : OhmSt → Nat → Nat → Bool} (hc : tripRow c = some (cause, lists))
      (hon : rampOn o.st = true) : Moves o c (o.trip cause)
  | joins {c : Instr} {cause : Nat} {lists : OhmSt → Nat → Nat → Bool} (hc : tripRow c = some (cause, lists)) :
      Moves o c (o.firstCause cause)
  | cools (cdh : Nat) : Moves o (.cooldownEnd cdh) { o with cdh := cdh }
  | rampAgain (cdh : Nat) (hst : o.st = .cooldown) : Moves o (.cooldownEnd cdh) { o with cdh := cdh }.ramp
  | goodRun : Moves o .goodRunClear { o with record := { o.record with retries := 0 } }
  | fetShort (v : Nat) (hon : o.powered = true) (hgate : o.gate = false) : Moves o (.fetShortDetect v)
      { o with st := .fetShort, fltN := true, killN := true, seqEn := 0, vout := v,
               record := { o.record with rstate := .fetShort, cause := 6 } }
  | fetCleared (v : Nat) (hst : o.st = .fetShort) (hkill : o.killN = false) : Moves o (.fetShortRecheck v)
      { o with st := .waitPresent, fltN := false, record := o.record.clear }
  | fetKilled (v : Nat) (hst : o.st = .fetShort) : Moves o (.fetShortRecheck v) { o with killN := true, vout := v }

/-- A main die in reset has not begun to start. -/
def State.Dark (s : State) : Prop := s.ohm.released = true ∨ s.die.boot.started = false

/-- What a step of command `c` does to the supply: one move of the Ohmoux die, and no start of a main die in reset. -/
structure State.SupplyStep (s : State) (c : Instr) (t : State) : Prop where
  moves : ∃ o, s.ohm.Moves c o ∧ t.ohm.SameSupply o
  dark : s.Dark → t.Dark

section Steps

variable {s t u : State} {c : Instr} {o : Ohm}

theorem State.SupplyStep.refl (s : State) (c : Instr) : s.SupplyStep c s := ⟨⟨s.ohm, .stays c, rfl⟩, id⟩

/-- A choice between two steps, each under its guard. -/
theorem State.SupplyStep.ite {b : Prop} [Decidable b] (hu : b → s.SupplyStep c t) (hv : ¬b → s.SupplyStep c u) :
    s.SupplyStep c (if b then t else u) := by
  split
  · exact hu ‹_›
  · exact hv ‹_›

theorem State.withOhm_ohm (s : State) (o : Ohm) : (s.withOhm o).ohm = { o with tripNow := none } := (withOhm_keeps s o).2

/-- A main die that loses its release loses its supply, and with it what it had started. -/
theorem State.withOhm_dark (o : Ohm) (h : s.Dark) : (s.withOhm o).Dark := by
  rw [State.withOhm]
  split
  · exact .inr rfl
  · next hkeeps =>
    refine h.imp_left fun hreleased => ?_
    simpa only [hreleased, Bool.true_and, Bool.not_eq_true, Bool.not_eq_false'] using hkeeps

theorem State.SupplyStep.withOhm (h : s.ohm.Moves c o) : s.SupplyStep c (s.withOhm o) :=
  ⟨⟨o, h, by rw [State.withOhm_ohm]; rfl⟩, State.withOhm_dark o⟩

/-- A new state of Ohmoux that keeps the main die's release, beside a main die that starts nothing. -/
theorem State.SupplyStep.keeps (h : s.ohm.Moves c o) (ho : t.ohm.SameSupply o) (hrel : o.released = s.ohm.released)
    (hboot : t.die.boot = s.die.boot) : s.SupplyStep c t :=
  ⟨⟨o, h, ho⟩, fun hd => by
    rw [State.Dark, hboot]
    rw [Ohm.SameSupply] at ho
    rw [ho]
    exact hd.imp_left hrel.trans⟩

theorem State.sendFrame_sameSupply (s : State) : s.sendFrame.ohm.SameSupply s.ohm := by
  rw [State.sendFrame]
  split <;> rfl

theorem Ohm.SameSupply.trans {a b c : Ohm} (hab : a.SameSupply b) (hbc : b.SameSupply c) : a.SameSupply c := by
  rw [Ohm.SameSupply] at *
  rw [hab, hbc]

theorem Ohm.SameSupply.released {a b : Ohm} (h : a.SameSupply b) : a.released = b.released := by
  rw [Ohm.SameSupply] at h
  rw [h]

/-- A frame that goes out after the step changes no more of the supply. -/
theorem State.SupplyStep.sendFrame (h : s.SupplyStep c t) : s.SupplyStep c t.sendFrame := by
  obtain ⟨⟨o, hm, ho⟩, hd⟩ := h
  refine ⟨⟨o, hm, t.sendFrame_sameSupply.trans ho⟩, fun hs => ?_⟩
  rw [State.Dark, t.sendFrame_sameSupply.released, (sendFrame_keeps t).2]
  exact hd hs

theorem State.SupplyStep.standby (opcode seq status : Nat) (payload : List PayVal) (h : s.ohm.Moves c o)
    (hrel : o.released = s.ohm.released) : s.SupplyStep c (s.standby opcode seq status payload o) := by
  simp only [State.standby]
  split
  · exact .keeps (.stays c) rfl rfl rfl
  · exact .keeps h rfl hrel rfl

/-- A trip that its own guard lists comes in a state with the gate on. -/
theorem State.SupplyStep.tripIn {cause : Nat} {lists p : OhmSt → Nat → Nat → Bool} (hc : tripRow c = some (cause, lists))
    (hon : p s.ohm.st s.ohm.seqEn s.ohm.pg = true → rampOn s.ohm.st = true) : s.SupplyStep c (s.tripIn p cause) := by
  rw [State.tripIn]
  split
  · next hp =>
    obtain ⟨-, hd⟩ := State.SupplyStep.withOhm (Ohm.Moves.trip hc (hon hp))
    refine ⟨⟨_, .trip hc (hon hp), ?_⟩, fun hs => ?_⟩
    · simp only [Ohm.SameSupply, State.withOhm_ohm]
    · exact hd hs
  · split
    · refine .ite (fun _ => ?_) (fun _ => .refl s c)
      exact .keeps (.joins hc) rfl rfl rfl
    · exact .refl s c

end Steps

theorem rampOn_of_seqOn {st : OhmSt} (h : seqOn st = true) : rampOn st = true := by
  cases st <;> simp_all [seqOn, rampOn]

/-- What an event of the Ohmoux die does to the supply, by its guard. -/
theorem exec_ohmoux_supply {c : Instr} {s t : State} (hohm : ofOhmoux c = true) (hstep : exec c s = .next t) :
    s.SupplyStep c t := by
  have hnext {u : State} (h : (.next u : Host.Outcome State Fault Refusal) = .next t) (hu : s.SupplyStep c u) :
      s.SupplyStep c t := by cases h; exact hu
  have hno (h : Prop) : ¬h → s.SupplyStep c s := fun _ => .refl s c
  cases c
  case vbusRise =>
    exact hnext hstep (.ite (fun _ => .refl ..) fun hoff => .withOhm (.rise _ _ _ (Bool.not_eq_true _ ▸ hoff)))
  case vbusFall => exact hnext hstep (.ite (fun _ => .withOhm (.stop _)) (hno _))
  case vbusOvervoltage => exact hnext hstep (.ite (fun h => .withOhm (.holdOff _ h.1 h.2)) (hno _))
  case vbusOvResume => exact hnext hstep (.ite (fun h => .withOhm (.resume _ h)) (hno _))
  case presenceDebounced => exact hnext hstep (.ite (fun _ => .withOhm (.present _)) (hno _))
  case prsntRise => exact hnext hstep (.ite (fun _ => .sendFrame (.withOhm .absent)) (hno _))
  case orderlyShutdown => exact hnext hstep (.ite (fun h => .withOhm (.shutdown h)) (hno _))
  case presenceCycle => exact hnext hstep (.ite (fun h => .withOhm (.presenceCycle h.1)) (hno _))
  case entryGood => exact hnext hstep (.ite (fun h => .withOhm (.entryGood _ h.1)) (hno _))
  case seqEnable => exact hnext hstep (.ite (fun h => .withOhm (.seqEnable h.1)) (hno _))
  case mainDieRelease =>
    exact hnext hstep (.ite (fun h => .sendFrame ⟨⟨_, .release h.1 h.2, rfl⟩, fun _ => .inl rfl⟩) (hno _))
  case fastTrip | soaTrip => exact hnext hstep (.tripIn rfl id)
  case rampTimeout =>
    refine hnext hstep (.tripIn rfl fun h => ?_)
    rw [of_decide_eq_true h, rampOn]
  case pgTimeout | pgLost => exact hnext hstep (.tripIn rfl fun h => rampOn_of_seqOn (Bool.and_eq_true_iff.mp h).1)
  case cooldownEnd =>
    refine hnext hstep (.ite (fun h => .withOhm ?_) (hno _))
    split
    · exact .rampAgain _ h
    · exact .cools _
  case goodRunClear => exact hnext hstep (.ite (fun _ => .sendFrame (.keeps .goodRun rfl rfl rfl)) (hno _))
  case fetShortDetect =>
    exact hnext hstep (.ite (fun ⟨hon, hgate, _⟩ => .withOhm (.fetShort _ hon (by simpa using hgate))) (hno _))
  case fetShortRecheck =>
    exact hnext hstep (.ite (fun ⟨hst, hkill⟩ => .ite (fun _ => .withOhm (.fetCleared _ hst (by simpa using hkill)))
      fun _ => .withOhm (.fetKilled _ hst)) (hno _))
  case oringReverse b | oringTurnOn b | feedLost b =>
    refine hnext hstep (.ite (fun _ => .sendFrame ?_) (hno _))
    cases b <;> exact .keeps (.stays _) rfl rfl rfl
  case statusFrameSend => exact hnext hstep (.ite (fun _ => .sendFrame (.refl ..)) (hno _))
  case standbyOhmClear =>
    exact hnext hstep (.ite (fun _ => .refl ..) fun _ =>
      .ite (fun h => .standby _ _ _ _ (.standbyClear _ h) rfl) fun _ => .standby _ _ _ _ (.stays _) rfl)
  case standbyOhmQuery => exact hnext hstep (.ite (fun _ => .refl ..) fun _ => .standby _ _ _ _ (.stays _) rfl)
  all_goals cases hohm

end Sys2Proof.Machine
end

section
/-! The supply's invariants, each a case split over the moves of the Ohmoux die: the legal states (O47, O48), the main die's release (O49),
the entry record (O50, O51). -/

namespace Sys2Proof.Machine

/-! ## Legal states (R442, R453, R458–R460) -/

/-- The clauses of `Ohm.legal`. -/
theorem Ohm.legal_iff (o : Ohm) : o.legal = true ↔
    o.gate = rampOn o.st ∧ o.entry = seqOn o.st ∧ o.released = decide (o.st = .good) ∧
    o.fltN = decide (o.st = .cooldown ∨ o.st = .latched ∨ o.st = .fetShort) ∧ (o.killN = true → o.st = .fetShort) ∧
    o.powered = decide (o.st ≠ .init) ∧ o.record.retries ≤ 7 ∧ (o.leaving = true → o.st = .good) ∧
    (seqOn o.st = false → o.seqEn = 0 ∧ o.pg = 0) := by
  simp only [Ohm.legal, Bool.and_eq_true, Bool.or_eq_true, decide_eq_true_eq, Bool.not_eq_true', and_assoc]
  cases o.killN <;> cases o.leaving <;> cases seqOn o.st <;> simp

/-- Nothing is driven: gate and enables off, the main die held in reset. -/
def Ohm.Resting (o : Ohm) : Prop :=
  o.gate = false ∧ o.entry = false ∧ o.released = false ∧ o.leaving = false ∧ (o.seqEn = 0 ∧ o.pg = 0) ∧ o.record.retries ≤ 7

theorem seqOn_of_rampOn_false {st : OhmSt} (h : rampOn st = false) : seqOn st = false := by
  cases st with
  | ramp | seq | good => cases h
  | _ => rfl

theorem ne_good_of_rampOn_false {st : OhmSt} (h : rampOn st = false) : st ≠ .good := by
  rintro rfl
  cases h

section Legal

variable {o : Ohm}

theorem Ohm.killN_of_legal (hl : o.legal = true) (hst : o.st ≠ .fetShort) : o.killN = false := by
  rw [Ohm.legal_iff] at hl
  obtain ⟨-, -, -, -, hkill, -, -, -, -⟩ := hl
  exact Bool.eq_false_iff.mpr fun h => hst (hkill h)

theorem Ohm.powered_of_legal (hl : o.legal = true) (hst : o.st ≠ .init) : o.powered = true := by
  rw [Ohm.legal_iff] at hl
  obtain ⟨-, -, -, -, -, hpow, -, -, -⟩ := hl
  rw [hpow, decide_eq_true hst]

theorem Ohm.init_of_unpowered (hl : o.legal = true) (hoff : o.powered = false) : o.st = .init :=
  Decidable.byContradiction fun hst => Bool.false_ne_true (hoff.symm.trans (Ohm.powered_of_legal hl hst))

theorem Ohm.good_of_leaving (hl : o.legal = true) (h : o.leaving = true) : o.st = .good := by
  rw [Ohm.legal_iff] at hl
  obtain ⟨-, -, -, -, -, -, -, hgood, -⟩ := hl
  exact hgood h

theorem Ohm.retries_of_legal (hl : o.legal = true) : o.record.retries ≤ 7 := by
  rw [Ohm.legal_iff] at hl
  obtain ⟨-, -, -, -, -, -, hretries, -, -⟩ := hl
  exact hretries

theorem Ohm.gate_of_legal (hl : o.legal = true) : o.gate = rampOn o.st := by
  rw [Ohm.legal_iff] at hl
  exact hl.1

/-- A legal state with the gate off is at rest. -/
theorem Ohm.legal_resting (hl : o.legal = true) (hgate : rampOn o.st = false) : o.Resting := by
  rw [Ohm.legal_iff] at hl
  obtain ⟨hg, he, hr, -, -, -, hretries, hleaving, hseq⟩ := hl
  have hgood := ne_good_of_rampOn_false hgate
  have hnoseq := seqOn_of_rampOn_false hgate
  exact ⟨hg.trans hgate, he.trans hnoseq, hr.trans (decide_eq_false hgood), Bool.eq_false_iff.mpr fun h => hgood (hleaving h),
    hseq hnoseq, hretries⟩

theorem Ohm.off_resting (hretries : o.record.retries ≤ 7) : o.off.Resting := ⟨rfl, rfl, rfl, rfl, ⟨rfl, rfl⟩, hretries⟩

/-- Rest is legal in every state with the gate off. -/
theorem Ohm.Resting.legal (h : o.Resting) (hgate : rampOn o.st = false) (hpow : o.powered = decide (o.st ≠ .init))
    (hflt : o.fltN = decide (o.st = .cooldown ∨ o.st = .latched ∨ o.st = .fetShort)) (hkill : o.killN = true → o.st = .fetShort) :
    o.legal = true := by
  obtain ⟨hg, he, hr, hleaving, hseq, hretries⟩ := h
  rw [Ohm.legal_iff]
  exact ⟨hg.trans hgate.symm, he.trans (seqOn_of_rampOn_false hgate).symm,
    hr.trans (decide_eq_false (ne_good_of_rampOn_false hgate)).symm, hflt, hkill, hpow, hretries,
    fun h => absurd h (ne_true_of_eq_false hleaving), fun _ => hseq⟩

/-- Acting on the record at rest (R455). -/
theorem Ohm.Resting.actOn_legal (h : o.Resting) (hpow : o.powered = true) (hkill : o.killN = false) : o.actOn.legal = true := by
  rw [Ohm.actOn]
  split <;> exact Ohm.Resting.legal h rfl hpow rfl fun h => absurd h (ne_true_of_eq_false hkill)

/-- A ramp begins at rest (R444). -/
theorem Ohm.Resting.ramp_legal (h : o.Resting) (hpow : o.powered = true) (hkill : o.killN = false) : o.ramp.legal = true := by
  obtain ⟨hg, he, hr, hleaving, hseq, hretries⟩ := h
  rw [Ohm.legal_iff]
  exact ⟨rfl, he, hr, rfl, fun h => absurd h (ne_true_of_eq_false hkill), hpow, hretries, fun h => absurd h (ne_true_of_eq_false hleaving),
    fun _ => hseq⟩

/-! ## What keeps the Ohmoux die legal -/

theorem Ohm.rise_legal (hl : o.legal = true) (hoff : o.powered = false) (mv : Nat) (straps : Straps) (damaged : Option Nat) :
    (o.rise mv straps damaged).legal = true := by
  have hst := Ohm.init_of_unpowered hl hoff
  have hkill := Ohm.killN_of_legal hl (by rw [hst]; decide)
  have hrest := Ohm.legal_resting hl (by rw [hst]; rfl)
  cases damaged with
  | none => exact Ohm.Resting.actOn_legal hrest rfl hkill
  | some b =>
    obtain ⟨hg, he, hr, hleaving, hseq, -⟩ := hrest
    refine Ohm.Resting.actOn_legal ⟨hg, he, hr, hleaving, hseq, ?_⟩ rfl hkill
    dsimp only
    split <;> omega

/-- PRSNT_N low for 50 ms, by the state (R460). -/
theorem Ohm.present_legal (hl : o.legal = true) (cdh : Nat) : (o.present cdh).legal = true := by
  rw [Ohm.present]
  split
  case h_1 hst | h_2 hst =>
    split
    · exact Ohm.Resting.ramp_legal (Ohm.legal_resting hl (by rw [hst]; rfl)) (Ohm.powered_of_legal hl (by rw [hst]; decide))
        (Ohm.killN_of_legal hl (by rw [hst]; decide))
    · exact hl
  case h_3 | h_4 => exact hl

/-- PRSNT_N high, by the state (R459, R460). -/
theorem Ohm.absent_legal (hl : o.legal = true) : o.absent.legal = true := by
  rw [Ohm.absent]
  split
  case h_1 hst | h_2 hst =>
    have hpow := Ohm.powered_of_legal hl (by rw [hst]; decide)
    have hkill := Ohm.killN_of_legal hl (by rw [hst]; decide)
    exact Ohm.Resting.actOn_legal (Ohm.off_resting (Ohm.retries_of_legal hl)) hpow hkill
  case h_3 hst =>
    rw [Ohm.legal_iff] at hl ⊢
    obtain ⟨hg, he, hr, hflt, hkill, hpow, hretries, -, hseq⟩ := hl
    exact ⟨hg, he, hr, hflt, hkill, hpow, hretries, fun _ => hst, hseq⟩
  case h_4 => exact hl

theorem retryMax_le (k : Nat) : retryMax k ≤ 7 := by
  have hstraps : ∀ k < 8, retryMax k ≤ 7 := by decide
  rcases Nat.lt_or_ge k 8 with hk | hk
  · exact hstraps k hk
  · rw [retryMax, List.getD_eq_getElem?_getD, List.getElem?_eq_none hk]
    decide

theorem Ohm.trip_st (o : Ohm) (cause : Nat) : (o.trip cause).st = .cooldown ∨ (o.trip cause).st = .latched := by
  dsimp only [Ohm.trip]
  split
  · exact .inl rfl
  · exact .inr rfl

/-- A trip leaves COOLDOWN or LATCHED, everything off, and RETRIES within its three bits (R449). -/
theorem Ohm.trip_legal (hl : o.legal = true) (hon : rampOn o.st = true) (cause : Nat) : (o.trip cause).legal = true := by
  have hkill : o.killN = false := Ohm.killN_of_legal hl (by rintro h; rw [h] at hon; cases hon)
  have hpow : o.powered = true := Ohm.powered_of_legal hl (by rintro h; rw [h] at hon; cases hon)
  have hmore : (o.record.trip (retryMax o.straps.retry) cause).retries ≤ 7 := by
    have hmax := retryMax_le o.straps.retry
    have hretries := Ohm.retries_of_legal hl
    dsimp only [EntryRec.trip]
    split <;> omega
  have hrest : (o.trip cause).Resting := ⟨rfl, rfl, rfl, rfl, ⟨rfl, rfl⟩, hmore⟩
  rcases Ohm.trip_st o cause with hst | hst
  all_goals
    exact hrest.legal (by rw [hst]; rfl) (by rw [hst]; exact hpow) (by rw [hst]; rfl) fun h => absurd h (ne_true_of_eq_false hkill)

/-- Every move keeps the Ohmoux die legal. -/
theorem Ohm.Moves.legal {c : Instr} {o' : Ohm} (h : o.Moves c o') (hl : o.legal = true) : o'.legal = true := by
  have hretries := Ohm.retries_of_legal hl
  have hrest {st : OhmSt} (hst : o.st = st) (hgate : rampOn st = false) : o.Resting := Ohm.legal_resting hl (hst ▸ hgate)
  have hpow {st : OhmSt} (hst : o.st = st) (hno : st ≠ .init) : o.powered = true := Ohm.powered_of_legal hl (hst ▸ hno)
  have hkill {st : OhmSt} (hst : o.st = st) (hno : st ≠ .fetShort) : o.killN = false := Ohm.killN_of_legal hl (hst ▸ hno)
  have hnokill {p : Prop} (h : o.killN = false) : o.killN = true → p := fun h' => absurd h' (ne_true_of_eq_false h)
  cases h
  case stays | cools | joins => exact hl
  case rise hoff => exact Ohm.rise_legal hl hoff ..
  case stop => exact Ohm.Resting.legal (Ohm.off_resting hretries) rfl rfl rfl fun h => nomatch h
  case holdOff hon hst =>
    exact Ohm.Resting.legal (Ohm.off_resting hretries) rfl hon rfl (hnokill (Ohm.killN_of_legal hl hst))
  case resume hst => exact Ohm.Resting.actOn_legal (hrest hst rfl) (hpow hst (by decide)) (hkill hst (by decide))
  case present => exact Ohm.present_legal hl _
  case absent => exact Ohm.absent_legal hl
  case shutdown h =>
    have hst := Ohm.good_of_leaving hl h
    have hflt : o.fltN = false := by
      rw [Ohm.legal_iff] at hl
      obtain ⟨-, -, -, hflt, -, -, -, -, -⟩ := hl
      rw [hflt, hst]
      rfl
    exact Ohm.Resting.legal (Ohm.off_resting hretries) rfl (hpow hst (by decide)) hflt (hnokill (hkill hst (by decide)))
  case presenceCycle hst | standbyClear hst =>
    obtain ⟨hg, he, hr, hleaving, hseq, -⟩ := hrest hst rfl
    exact Ohm.Resting.legal ⟨hg, he, hr, hleaving, hseq, Nat.zero_le 7⟩ rfl (hpow hst (by decide)) rfl
      (hnokill (hkill hst (by decide)))
  case entryGood hst | seqEnable hst | release hst _ =>
    rw [Ohm.legal_iff] at hl ⊢
    simp_all [rampOn, seqOn, Ohm.entryGood]
  case trip hon _ => exact Ohm.trip_legal hl hon _
  case rampAgain hst => exact Ohm.Resting.ramp_legal (hrest hst rfl) (hpow hst (by decide)) (hkill hst (by decide))
  case goodRun =>
    rw [Ohm.legal_iff] at hl ⊢
    obtain ⟨hg, he, hr, hflt, hkill, hpow, -, hleaving, hseq⟩ := hl
    exact ⟨hg, he, hr, hflt, hkill, hpow, Nat.zero_le 7, hleaving, hseq⟩
  case fetShort hon hgate =>
    obtain ⟨hg, he, hr, hleaving, ⟨-, hpg⟩, -⟩ := Ohm.legal_resting hl ((Ohm.gate_of_legal hl).symm.trans hgate)
    exact Ohm.Resting.legal ⟨hg, he, hr, hleaving, ⟨rfl, hpg⟩, hretries⟩ rfl hon rfl fun _ => rfl
  case fetCleared hst hkill =>
    obtain ⟨hg, he, hr, hleaving, hseq, -⟩ := hrest hst rfl
    exact Ohm.Resting.legal ⟨hg, he, hr, hleaving, hseq, Nat.zero_le 7⟩ rfl (hpow hst (by decide)) rfl (hnokill hkill)
  case fetKilled hst =>
    rw [Ohm.legal_iff] at hl ⊢
    obtain ⟨hg, he, hr, hflt, -, hpow, hretries, hleaving, hseq⟩ := hl
    exact ⟨hg, he, hr, hflt, fun _ => hst, hpow, hretries, hleaving, hseq⟩

end Legal

/-! ## Every step (O48) -/

theorem Ohm.SameSupply.legal {a b : Ohm} (h : a.SameSupply b) (hb : b.legal = true) : a.legal = true := by
  rw [Ohm.SameSupply] at h
  rw [h]
  exact hb

theorem State.supplyLegal_iff (s : State) : s.supplyLegal = true ↔ s.ohm.legal = true ∧ s.Dark := by
  rw [State.supplyLegal, Bool.and_eq_true, Bool.or_eq_true, Bool.not_eq_true', State.Dark]

theorem pinChange_guarded_boot {b : Prop} [Decidable b] {s t : State} {p : Nat} {perst : Bool} {f : Die → Die}
    (hreset : s.ohm.released = false) (h : (if b then .next s else pinChange s p perst f) = .next t) :
    t.die.boot = s.die.boot := by
  split at h
  · cases h; rfl
  · simp only [pinChange, hreset, Bool.false_and, Bool.false_eq_true, ↓reduceIte] at h
    cases h; rfl

/-- In reset no command of the main die touches its start-up. -/
theorem exec_reset_boot {c : Instr} {s t : State} (hreset : s.ohm.released = false) (hohm : ofOhmoux c = false)
    (hstep : exec c s = .next t) : t.die.boot = s.die.boot := by
  cases hperst : ofPerst c with
  | true =>
    cases c
    case perstAssert | perstDeassert => exact pinChange_guarded_boot hreset hstep
    all_goals cases hperst
  | false =>
    cases hlink : ofLink c with
    | true =>
      obtain rfl := eq_ohmStatusFrame_of_ofLink hlink
      change execOhmStatusFrame s = _ at hstep
      rw [execOhmStatusFrame] at hstep
      split at hstep
      · cases hstep; rfl
      · next rest _ =>
        rw [onDie_reset (s := { s with link := rest }) hreset] at hstep
        cases hstep; rfl
    | false =>
      rw [mainDieInResetIgnoresCommands c s hreset hohm hperst hlink] at hstep
      cases hstep; rfl

/-- A command of the main die starts nothing while the die is in reset. -/
theorem exec_main_supply {c : Instr} {s t : State} (hohm : ofOhmoux c = false) (hstep : exec c s = .next t) :
    s.SupplyStep c t := by
  have ho := (mainDieCommandsLeaveOhmoux c s t hohm hstep).1
  refine ⟨⟨s.ohm, .stays c, ho ▸ rfl⟩, fun hd => ?_⟩
  rw [State.Dark, ho]
  cases hr : s.ohm.released with
  | true => exact .inl rfl
  | false =>
    rw [exec_reset_boot hr hohm hstep]
    exact .inr (hd.resolve_left (ne_true_of_eq_false hr))

/-- Every command is a step of the supply. -/
theorem exec_supply {c : Instr} {s t : State} (hstep : exec c s = .next t) : s.SupplyStep c t := by
  cases hohm : ofOhmoux c with
  | true => exact exec_ohmoux_supply hohm hstep
  | false => exact exec_main_supply hohm hstep

/-- A command keeps the supply invariant. -/
theorem exec_supplyLegal {c : Instr} {s t : State} (h : s.supplyLegal = true) (hstep : exec c s = .next t) :
    t.supplyLegal = true := by
  rw [State.supplyLegal_iff] at *
  obtain ⟨⟨o, hm, ho⟩, hd⟩ := exec_supply hstep
  exact ⟨ho.legal (hm.legal h.1), hd h.2⟩

/-- A cycle passes on a released main die only. -/
theorem tick_supplyLegal {s : State} (h : s.supplyLegal = true) : (tick s).supplyLegal = true := by
  rw [State.supplyLegal_iff] at *
  rw [tick]
  split
  · next hr => exact ⟨h.1, .inl hr⟩
  · exact h

/-- Settles O47: an unpowered Ohmoux is at rest. -/
theorem resetSupplyIsLegal : Obligations.ResetSupplyIsLegal := by
  unfold Obligations.ResetSupplyIsLegal
  rw [State.supplyLegal_iff]
  exact ⟨Ohm.Resting.legal ⟨rfl, rfl, rfl, rfl, ⟨rfl, rfl⟩, Nat.zero_le 7⟩ rfl rfl rfl fun h => absurd h (by decide), .inr rfl⟩

/-- Settles O48: by the command at the front of the queue, or the cycle that passes. -/
theorem everyStepKeepsSupplyLegal : Obligations.EveryStepKeepsSupplyLegal := by
  unfold Obligations.EveryStepKeepsSupplyLegal
  intro s t h hstep
  cases hp : s.pending with
  | nil =>
    rw [step_of_empty hp] at hstep
    cases hstep
    exact tick_supplyLegal h
  | cons c rest =>
    rw [step_of_pending hp] at hstep
    exact exec_supplyLegal (s := { s with pending := rest }) h hstep

/-! ## The main die's release (O49) -/

@[simp] theorem Ohm.actOn_released (o : Ohm) : o.actOn.released = o.released := by
  rw [Ohm.actOn]
  split <;> rfl

theorem Ohm.present_released (o : Ohm) (cdh : Nat) : (o.present cdh).released = o.released := by
  rw [Ohm.present]
  split
  case h_1 | h_2 => split <;> rfl
  case h_3 | h_4 => rfl

theorem Ohm.absent_released {o : Ohm} (h : o.released = false) : o.absent.released = false := by
  rw [Ohm.absent]
  split
  case h_1 | h_2 => exact Ohm.actOn_released _
  case h_3 | h_4 => exact h

theorem Ohm.rise_released (o : Ohm) (mv : Nat) (straps : Straps) (damaged : Option Nat) :
    (o.rise mv straps damaged).released = o.released := by
  cases damaged <;> exact Ohm.actOn_released _

/-- Of the moves, the end of sequencing alone releases the main die. -/
theorem Ohm.Moves.release_of_released {o o' : Ohm} {c : Instr} (h : o.Moves c o') (hreset : o.released = false)
    (hrel : o'.released = true) : c = .mainDieRelease ∧ o.st = .seq ∧ o.seqEn = 255 := by
  have hno {b : Bool} (h : b = false) (h' : b = true) : c = .mainDieRelease ∧ o.st = .seq ∧ o.seqEn = 255 :=
    absurd h' (ne_true_of_eq_false h)
  cases h
  case release hst hen => exact ⟨rfl, hst, hen⟩
  case rise => exact hno ((Ohm.rise_released ..).trans hreset) hrel
  case resume =>
    rw [Ohm.actOn_released] at hrel
    exact hno hreset hrel
  case present => exact hno ((Ohm.present_released ..).trans hreset) hrel
  case absent => exact hno (Ohm.absent_released hreset) hrel
  case stop | holdOff | shutdown | trip => exact hno rfl hrel
  all_goals exact hno hreset hrel

/-- The main die's release starts it at step 0 (R458). -/
theorem exec_mainDieRelease {s : State} (hst : s.ohm.st = .seq) (hen : s.ohm.seqEn = 255) :
    exec .mainDieRelease s = .next { s with
      ohm := { s.ohm with st := .good, pg := 255, released := true, events := 0 }
      die := { s.die with time := 0, boot := { s.die.boot with started := true, step := 0, fresh := true } }
      link := s.link ++ [{ s.ohm with st := .good, pg := 255, released := true }.frame] } := by
  change execMainDieRelease s = _
  rw [execMainDieRelease, if_pos ⟨hst, hen⟩]
  rfl

/-- Settles O49: by the moves, the last enable's power-good alone releases the main die. -/
theorem mainDieReleasedBySequenceOnly : Obligations.MainDieReleasedBySequenceOnly := by
  unfold Obligations.MainDieReleasedBySequenceOnly
  intro c s t hreset hstep hrel
  obtain ⟨⟨o, hm, ho⟩, -⟩ := exec_supply hstep
  obtain ⟨rfl, hst, hen⟩ := hm.release_of_released hreset (ho.released ▸ hrel)
  rw [exec_mainDieRelease hst hen] at hstep
  cases hstep
  exact ⟨rfl, hst, hen, rfl, rfl⟩

/-! ## The entry record (O50, O51) -/

@[simp] theorem Ohm.actOn_record (o : Ohm) : o.actOn.record = o.record := by
  rw [Ohm.actOn]
  split <;> rfl

theorem Ohm.present_record (o : Ohm) (cdh : Nat) : (o.present cdh).record = o.record := by
  rw [Ohm.present]
  split
  case h_1 | h_2 => split <;> rfl
  case h_3 | h_4 => rfl

theorem Ohm.absent_record (o : Ohm) : o.absent.record = o.record := by
  rw [Ohm.absent]
  split
  case h_1 | h_2 => exact Ohm.actOn_record _
  case h_3 | h_4 => rfl

theorem Ohm.SameSupply.record {a b : Ohm} (h : a.SameSupply b) : a.record = b.record := by
  rw [Ohm.SameSupply] at h
  rw [h]

theorem Ohm.SameSupply.st {a b : Ohm} (h : a.SameSupply b) : a.st = b.st := by
  rw [Ohm.SameSupply] at h
  rw [h]

/-- The rows of `tripRow` are the five trips. -/
theorem eq_trip_of_tripRow {c : Instr} {r : Nat × (OhmSt → Nat → Nat → Bool)} (h : tripRow c = some r) :
    c = .fastTrip ∨ c = .soaTrip ∨ c = .rampTimeout ∨ c = .pgTimeout ∨ ∃ k, c = .pgLost k := by
  cases c
  case fastTrip => exact .inl rfl
  case soaTrip => exact .inr (.inl rfl)
  case rampTimeout => exact .inr (.inr (.inl rfl))
  case pgTimeout => exact .inr (.inr (.inr (.inl rfl)))
  case pgLost k => exact .inr (.inr (.inr (.inr ⟨k, rfl⟩)))
  all_goals cases h

/-- Settles O50: a move that is none of the record's moments keeps the record. -/
theorem entryRecordWrittenAtItsMomentsOnly : Obligations.EntryRecordWrittenAtItsMomentsOnly := by
  unfold Obligations.EntryRecordWrittenAtItsMomentsOnly
  intro c s t hstep hne
  obtain ⟨⟨o, hm, ho⟩, -⟩ := exec_supply hstep
  rw [ho.record] at hne
  cases hm
  case trip hc | joins hc => exact .inl (eq_trip_of_tripRow hc)
  case entryGood v _ => exact .inr (.inl ⟨v, rfl⟩)
  case goodRun => exact .inr (.inr (.inl rfl))
  case presenceCycle => exact .inr (.inr (.inr (.inl rfl)))
  case standbyClear q _ => exact .inr (.inr (.inr (.inr (.inl ⟨q, rfl⟩))))
  case fetShort v _ _ => exact .inr (.inr (.inr (.inr (.inr (.inl ⟨v, rfl⟩)))))
  case fetCleared v _ _ | fetKilled v _ => exact .inr (.inr (.inr (.inr (.inr (.inr (.inl ⟨v, rfl⟩))))))
  case rise mv straps damaged _ =>
    cases damaged with
    | none => exact absurd (Ohm.actOn_record _) hne
    | some b => exact .inr (.inr (.inr (.inr (.inr (.inr (.inr ⟨mv, straps, b, rfl⟩))))))
  case resume => exact absurd (Ohm.actOn_record _) hne
  case present => exact absurd (Ohm.present_record ..) hne
  case absent => exact absurd (Ohm.absent_record _) hne
  all_goals exact absurd rfl hne

/-- In LATCHED with a latched record, no move but the two of R452 leaves the record CLEAR. -/
theorem Ohm.Moves.unlatch_of_clear {o o' : Ohm} {c : Instr} (h : o.Moves c o') (hst : o.st = .latched)
    (hrec : o.record.rstate = .latched) (hclear : o'.record.rstate = .clear) :
    (c = .presenceCycle ∨ ∃ q, c = .standbyOhmClear q) ∧ o' = o.unlatch := by
  have hkeeps {p : Prop} (hr : o'.record = o.record) : p := by
    rw [hr, hrec] at hclear
    cases hclear
  have hother {st : OhmSt} {p : Prop} (hst' : o.st = st) (hne : st ≠ .latched) : p := absurd (hst'.symm.trans hst) hne
  cases h
  case presenceCycle => exact ⟨.inl rfl, rfl⟩
  case standbyClear q _ => exact ⟨.inr ⟨q, rfl⟩, rfl⟩
  case rise damaged _ =>
    cases damaged with
    | none => exact hkeeps (Ohm.actOn_record _)
    | some b =>
      rw [Ohm.rise, Ohm.actOn_record] at hclear
      cases hclear
  case resume => exact hkeeps (Ohm.actOn_record _)
  case present => exact hkeeps (Ohm.present_record ..)
  case absent => exact hkeeps (Ohm.absent_record _)
  case entryGood hst' => exact hother hst' (by decide)
  case trip hon _ =>
    rw [hst] at hon
    cases hon
  case joins => exact nomatch hrec.symm.trans hclear
  case goodRun => exact nomatch hrec.symm.trans hclear
  case fetShort => cases hclear
  case fetCleared hst' _ => exact hother hst' (by decide)
  all_goals exact hkeeps rfl

/-- Settles O51: by the moves that clear a latched record. -/
theorem latchOffEndsByItsTwoWaysOnly : Obligations.LatchOffEndsByItsTwoWaysOnly := by
  unfold Obligations.LatchOffEndsByItsTwoWaysOnly
  intro c s t hst hrec hstep hclear
  obtain ⟨⟨o, hm, ho⟩, -⟩ := exec_supply hstep
  rw [ho.record] at hclear
  obtain ⟨hc, rfl⟩ := hm.unlatch_of_clear hst hrec hclear
  rw [ho.record, ho.st]
  exact ⟨hc, rfl, rfl⟩

end Sys2Proof.Machine
end

section
/-! The Ohmoux die's events complete (O33, O35–O37, O52): the guard of each event holds, and the state table's action is its effect. -/

namespace Sys2Proof.Machine

/-! ## Rules of the Ohmoux events -/

/-- A meaning `e` of the Ohmoux die acts where its guard `b` holds. -/
theorem ohmoux_acts {b : Prop} [Decidable b] {u v t : State} {e : Host.Outcome State Fault Refusal}
    (he : e = .next (if b then u else v)) (hb : b) (hu : u = t) : e = .next t := by
  rw [he, if_pos hb, hu]

/-- The other side of the guard. -/
theorem ohmoux_else {b : Prop} [Decidable b] {u v t : State} {e : Host.Outcome State Fault Refusal}
    (he : e = .next (if b then u else v)) (hb : ¬b) (hv : v = t) : e = .next t := by
  rw [he, if_neg hb, hv]

theorem State.sendFrame_released {s : State} (h : s.ohm.released = true) :
    s.sendFrame = { s with link := s.link ++ [s.ohm.frame], ohm := { s.ohm with events := 0 } } := by
  rw [State.sendFrame, if_pos h]

theorem Ohm.mayRamp_iff (o : Ohm) : o.mayRamp = true ↔ o.vbusOk = true ∧ o.debounced = true := by
  rw [Ohm.mayRamp, Bool.and_eq_true]

/-- A trip uses a retry while one is left, else it latches (R449). -/
theorem Ohm.trip_eq (o : Ohm) (cause : Nat) : o.trip cause =
    let more := decide (o.record.retries < retryMax o.straps.retry)
    { o with
      gate := false, entry := false, seqEn := 0, pg := 0, released := false, vout := 0, leaving := false, fltN := true, cdh := 2500,
      st := if more then .cooldown else .latched
      record := { o.record with retries := if more then o.record.retries + 1 else o.record.retries,
                                rstate := if more then .cooldown else .latched, cause := cause,
                                trips := min (o.record.trips + 1) 0xffff } } := by
  by_cases h : o.record.retries < retryMax o.straps.retry
  · simp only [Ohm.trip, Ohm.off, EntryRec.trip, h, decide_true, ↓reduceIte]
  · simp only [Ohm.trip, Ohm.off, EntryRec.trip, h, decide_false, Bool.false_eq_true, reduceCtorEq, ↓reduceIte]

theorem rampOn_eq (st : OhmSt) : rampOn st = decide (st = .ramp ∨ st = .seq ∨ st = .good) := by cases st <;> rfl

theorem seqOn_eq (st : OhmSt) : seqOn st = decide (st = .seq ∨ st = .good) := by cases st <;> rfl

/-- The rows of `tripRow` trip in the states they list (R447, R460). -/
theorem exec_trip {c : Instr} {cause : Nat} {lists : OhmSt → Nat → Nat → Bool} (hc : tripRow c = some (cause, lists)) (s : State) :
    exec c s = .next (s.tripIn lists cause) := by
  have hlists (p : OhmSt → Nat → Nat → Bool) (hp : ∀ st en pg, p st en pg = lists st en pg) :
      Host.Outcome.next (s.tripIn p cause) = (.next (s.tripIn lists cause) : Host.Outcome State Fault Refusal) := by
    rw [funext fun st => funext fun en => funext fun pg => hp st en pg]
  cases c
  case fastTrip | soaTrip => cases hc; exact hlists _ fun st _ _ => rampOn_eq st
  case rampTimeout => cases hc; exact hlists _ fun _ _ _ => rfl
  case pgTimeout | pgLost =>
    cases hc
    exact hlists _ fun st en pg => Bool.eq_iff_iff.mpr (by simp [seqOn_eq, and_comm])
  all_goals cases hc

/-- A command on the standby target that is no repeat is answered, and its reply kept (R390, R463). -/
theorem State.standby_new {s : State} {opcode seq : Nat}
    (hnew : ∀ l : Last, s.ohm.last = some l → ¬(l.seq = seq ∧ l.opcode = opcode)) (status : Nat) (payload : List PayVal) (o : Ohm) :
    s.standby opcode seq status payload o =
      { s with die := s.die.emit (.reply (standbyReply opcode seq status payload)),
               ohm := { o with last := some { seq := seq, opcode := opcode,
                                              reply := some (standbyReply opcode seq status payload) } } } := by
  simp only [State.standby]
  cases hlast : s.ohm.last with
  | none => rfl
  | some l => simp only [if_neg (hnew l hlast)]

/-! ## The statements -/

/-- Settles O33: row by row; a bad record's RSTATE is COOLDOWN, so Ohmoux acts on that. -/
theorem ohmouxInputEventsComplete : Obligations.OhmouxInputEventsComplete := by
  unfold Obligations.OhmouxInputEventsComplete
  refine ⟨?rise, ?riseDamaged, ?fall, ?overvoltage, ?resume⟩
  case rise =>
    intro s mv straps hoff
    exact (ohmoux_else rfl (ne_true_of_eq_false hoff) rfl : execVbusRise mv straps none s = _)
  case riseDamaged =>
    intro s mv b straps hoff
    exact (ohmoux_else rfl (ne_true_of_eq_false hoff) rfl : execVbusRise mv straps (some b) s = _)
  case fall => exact fun s mv hon => (ohmoux_acts rfl hon rfl : execVbusFall mv s = _)
  case overvoltage => exact fun s mv hon hst => (ohmoux_acts rfl ⟨hon, hst⟩ rfl : execVbusOvervoltage mv s = _)
  case resume => exact fun s mv hst => (ohmoux_acts rfl hst rfl : execVbusOvResume mv s = _)

/-- Settles O35: row by row; a cool-down's end by whether a ramp may start. -/
theorem ohmouxAttemptsComplete : Obligations.OhmouxAttemptsComplete := by
  unfold Obligations.OhmouxAttemptsComplete
  refine ⟨?entryGood, ?seqEnable, ?release, ?goodRun, ?cooldownEnd, ?detect, ?recheckClear, ?recheckKill⟩
  case entryGood => exact fun s vout hst hv => (ohmoux_acts rfl ⟨hst, hv⟩ rfl : execEntryGood vout s = _)
  case seqEnable => exact fun s hst hen => (ohmoux_acts rfl ⟨hst, hen⟩ rfl : execSeqEnable s = _)
  case release => exact fun s hst hen => exec_mainDieRelease hst hen
  case goodRun =>
    intro s hst hleaving
    exact (ohmoux_acts rfl ⟨hst, by rw [hleaving]; rfl⟩ rfl : execGoodRunClear s = _)
  case cooldownEnd =>
    intro s cdh hst
    refine (ohmoux_acts rfl hst ?_ : execCooldownEnd cdh s = _)
    simp only [Ohm.mayRamp_iff]
    rfl
  case detect =>
    intro s vout hon hgate hv
    exact (ohmoux_acts rfl ⟨hon, by rw [hgate]; rfl, hv⟩ rfl : execFetShortDetect vout s = _)
  case recheckClear =>
    intro s vout hst hkill hv
    exact (ohmoux_acts rfl ⟨hst, by rw [hkill]; rfl⟩ (if_pos hv) : execFetShortRecheck vout s = _)
  case recheckKill =>
    intro s vout hst hkill hv
    exact (ohmoux_acts rfl ⟨hst, by rw [hkill]; rfl⟩ (if_neg (Nat.not_le.mpr hv)) : execFetShortRecheck vout s = _)

/-- Settles O36: a trip listed now, one that joins the trip of its cycle, or none. -/
theorem ohmouxTripsComplete : Obligations.OhmouxTripsComplete := by
  unfold Obligations.OhmouxTripsComplete
  intro tripped s c cause lists hc o
  have hexec := exec_trip hc s
  have htrip : s.ohm.trip cause = tripped o cause := Ohm.trip_eq ..
  refine ⟨?listed, ?ignored, ?joins⟩
  case listed =>
    intro hlisted
    rw [hexec, State.tripIn, if_pos hlisted, htrip]
    simp only [State.withOhm_ohm]
    rfl
  case ignored =>
    intro hno hnone
    rw [hexec, State.tripIn, if_neg (ne_true_of_eq_false hno)]
    simp only [show s.ohm.tripNow = none from hnone]
  case joins =>
    intro n hno hnow
    rw [hexec, State.tripIn, if_neg (ne_true_of_eq_false hno)]
    simp only [show s.ohm.tripNow = some n from hnow]
    rfl

/-- Settles O37: row by row; a new command on the standby target by what Ohmoux's state makes of it. -/
theorem ohmouxReportsComplete : Obligations.OhmouxReportsComplete := by
  unfold Obligations.OhmouxReportsComplete
  refine ⟨?feeds, ?frame, ?clear, ?query⟩
  case feeds =>
    intro s hon
    exact ⟨(ohmoux_acts rfl hon rfl : execOringReverse false s = _), (ohmoux_acts rfl hon rfl : execOringReverse true s = _),
      (ohmoux_acts rfl hon rfl : execFeedLost false s = _), (ohmoux_acts rfl hon rfl : execFeedLost true s = _),
      (ohmoux_acts rfl hon rfl : execOringTurnOn false s = _), (ohmoux_acts rfl hon rfl : execOringTurnOn true s = _)⟩
  case frame =>
    exact fun s hon hrel => (ohmoux_acts rfl hon (State.sendFrame_released hrel) : execStatusFrameSend s = _)
  case clear =>
    intro s seq hon hnew last clear
    refine (ohmoux_else rfl (by rw [hon]; decide) ?_ : execStandbyOhmClear seq s = _)
    rw [State.standby_new hnew, State.standby_new hnew]
    rfl
  case query =>
    intro s seq hon hnew r
    exact (ohmoux_else rfl (by rw [hon]; decide) (State.standby_new hnew ..) : execStandbyOhmQuery seq s = _)

/-- Settles O52: a released main die gets the frame at once. -/
theorem goodRunClearsRetries : Obligations.GoodRunClearsRetries := by
  unfold Obligations.GoodRunClearsRetries
  intro s hst hleaving hrel
  refine ⟨{ s.ohm with record := { s.ohm.record with retries := 0 }, events := s.ohm.events ||| 2 ^ 5 }.frame, ?acts, ?event, rfl, hst⟩
  case acts =>
    exact (ohmoux_acts rfl ⟨hst, by rw [hleaving]; rfl⟩ (State.sendFrame_released hrel) : execGoodRunClear s = _)
  case event =>
    change (s.ohm.events ||| 2 ^ 5).testBit 5 = true
    rw [Nat.testBit_or, Nat.testBit_two_pow_self, Bool.or_true]

end Sys2Proof.Machine
end

section
/-! Debug commands complete (O11), core fetches stay in their world (O26), the secure window refuses the normal world (O54): the core's
caches, one rule per operation, and what an event bit and a denied access leave in the registers. -/

namespace Sys2Proof.Machine

/-! ## Debug commands (R427, R429, R438) -/

section Rows

variable {s : State} {h : Hdr} {d : Die}

/-- A state that the policy allows waits for the next boundary (R427). -/
theorem exec_dbgNormal {invasive peephole : Nat} (ht : s.takes h 0x0c00 [.f] 2 d) (hinv : invasive ≤ 1) (hpeep : peephole ≤ 1)
    (hbit1 : invasive = 1 → bit (d.regR R.mulDbgPolicy) 1 = true)
    (hbit0 : invasive = 1 ∨ peephole = 1 → bit (d.regR R.mulDbgPolicy) 0 = true) :
    exec (.dbgNormal h invasive peephole) s = .next (s.withDie
      ({ d with dbg := { d.dbg with next := some (decide (invasive = 1), decide (peephole = 1)) } }.ok h 0x0c00 [])) := by
  have hallowed : ¬((invasive = 1 ∧ (!bit (d.regR R.mulDbgPolicy) 1) = true) ∨
      ((invasive = 1 ∨ peephole = 1) ∧ (!bit (d.regR R.mulDbgPolicy) 0) = true)) := by
    rintro (⟨hi, hno⟩ | ⟨hip, hno⟩)
    · rw [hbit1 hi] at hno
      cases hno
    · rw [hbit0 hip] at hno
      cases hno
  change execDbgNormal h invasive peephole s = _
  exact onCmd_leaves ht rfl ((if_neg (Nat.not_lt.mpr hinv)).trans ((if_neg (Nat.not_lt.mpr hpeep)).trans (if_neg hallowed)))

theorem exec_dbgBind_none (ht : s.takes h 0x0c01 [.f] 2 d) :
    exec (.dbgBind h 0xffff) s = .next (s.withDie ((d.regW R.dbgBind 0).ok h 0x0c01 [])) := by
  change execDbgBind h 0xffff s = _
  exact onCmd_leaves ht rfl (if_pos rfl)

theorem exec_dbgBind {ten : Nat} (ht : s.takes h 0x0c01 [.f] 2 d) (hten : ten ≤ 1023) (hused : (d.ten ten).st ≠ .free) :
    exec (.dbgBind h ten) s = .next (s.withDie ((d.regW R.dbgBind (BitVec.ofNat 32 (2 ^ 31 + ten))).ok h 0x0c01 [])) := by
  have hbinds : ten ≠ 0xffff := by omega
  change execDbgBind h ten s = _
  exact onCmd_leaves ht rfl ((if_neg hbinds).trans (Die.withTen_used hten hused ..))

end Rows

/-- Settles O11: row by row. -/
theorem debugCommandsComplete : Obligations.DebugCommandsComplete := by
  unfold Obligations.DebugCommandsComplete
  refine ⟨?normal, ?unbind, ?bind, ?query⟩
  case normal => exact fun s h d invasive peephole ht hinv hpeep hbit1 hbit0 => exec_dbgNormal ht hinv hpeep hbit1 hbit0
  case unbind => exact fun s h d ht => exec_dbgBind_none ht
  case bind => exact fun s h d ten ht hten hused => exec_dbgBind ht hten hused
  case query => exact fun s h d ht => (onCmd_leaves ht rfl rfl : execDbgQuery h s = _)

/-! ## The cores' caches (R424) -/

/-- A filled line is hit in the world that filled it. -/
theorem Core.hits_fill {c : Core} {a b : Nat} (hline : b / 64 = a / 64) : (c.fill a).hits b = true := by
  simp only [Core.hits, Core.fill, hline, List.any_cons, beq_self_eq_true, Bool.or_not_self, Bool.and_self, Bool.true_or]

/-- A line filled in the secure world is not hit from the normal one. -/
theorem Core.fill_secure_not_hits {c : Core} {a b : Nat} (hline : b / 64 = a / 64) (hsecure : c.secure = true) :
    ({ c.fill a with secure := false } : Core).hits b = false := by
  have hothers (l : Nat × Bool) (hl : l ∈ c.lines.filter (fun (l : Nat × Bool) => decide (l.1 ≠ a / 64))) :
      ¬(l.1 == a / 64 && (false || !l.2)) = true := by
    have hne : l.1 ≠ a / 64 := by simpa using (List.mem_filter.mp hl).2
    simp [hne]
  simp only [Core.hits, Core.fill, hline, hsecure, List.any_cons, Bool.not_true, Bool.and_false, Bool.false_or,
    List.any_eq_false]
  exact hothers

/-! ## Fetches within a world (R421, R422) -/

section Fetch

variable {d : Die} {k a : Nat}

theorem Die.coreFetch_hit (hhit : (d.core k).hits a = true) : d.coreFetch k a = d.setCore k { (d.core k) with pc := a } :=
  if_pos hhit

theorem Die.coreFetch_fills (hmiss : (d.core k).hits a = false) (hown : (d.core k).secure = d.secureCode a) :
    d.coreFetch k a = d.setCore k { (d.core k).fill a with pc := a } :=
  (if_neg (ne_true_of_eq_false hmiss)).trans (if_pos hown)

/-- A normal core's fetch of secure code traps at its own vector and is recorded (R412, R422). -/
theorem Die.coreFetch_normal_traps (hmiss : (d.core k).hits a = false) (hnormal : (d.core k).secure = false)
    (hcode : d.secureCode a = true) :
    d.coreFetch k a = (d.setCore k { (d.core k) with epc := a, cause := 1, tval := a, pc := (d.core k).vec, resv := false
      }).windowDeny (coreSrc false) a false := by
  simp only [Die.coreFetch, Core.trap, hmiss, hnormal, hcode, Bool.false_eq_true, ↓reduceIte]

theorem Die.coreFetch_secure_traps (hmiss : (d.core k).hits a = false) (hsecure : (d.core k).secure = true)
    (hcode : d.secureCode a = false) :
    d.coreFetch k a = d.setCore k { (d.core k) with epc := a, cause := 1, tval := a, pc := (d.core k).secVec, resv := false } := by
  simp only [Die.coreFetch, Core.trap, hmiss, hsecure, hcode, Bool.true_eq_false, Bool.false_eq_true, ↓reduceIte]

/-- A running normal core that fetches no valid entry point stays in its world. -/
theorem Die.gateEntry_stays (hruns : d.coreRuns k = true)
    (hno : ¬(entryPoint a = true ∧ bit (d.regR R.mulWorld) (24 + k) = true)) (ret : Nat) : d.gateEntry k a ret = d.coreFetch k a := by
  rw [Die.gateEntry]
  simp only [hruns, Bool.not_true, Bool.false_eq_true, ↓reduceIte]
  exact if_neg fun hentry => hno hentry.2

/-- A running secure core that fetches another address than the exit point stays in its world. -/
theorem Die.gateExit_stays (hruns : d.coreRuns k = true) (hother : a ≠ 0xfc0) : d.gateExit k a = d.coreFetch k a := by
  rw [Die.gateExit]
  simp only [hruns, Bool.not_true, Bool.false_eq_true, ↓reduceIte]
  exact if_pos (.inr hother)

end Fetch

/-- Settles O26: by whether the fetch hits, and whose code it fetches. -/
theorem coreFetchesStayInTheirWorld : Obligations.CoreFetchesStayInTheirWorld := by
  unfold Obligations.CoreFetchesStayInTheirWorld
  refine ⟨?normal, ?secure, ?lines⟩
  case normal =>
    intro s k a ret hr hruns hnormal hno d c
    have hexec {d1 : Die} (hd : d.coreFetch k a = d1) : exec (.gateEntry k a ret) s = .next (s.withDie d1) :=
      (onLive_leaves hr rfl ((Die.gateEntry_stays hruns hno ret).trans hd) : execGateEntry k a ret s = _)
    exact ⟨fun hhit => hexec (Die.coreFetch_hit hhit),
      fun hmiss hcode => hexec (Die.coreFetch_fills hmiss (hnormal.trans hcode.symm)),
      fun hmiss hcode => hexec (Die.coreFetch_normal_traps hmiss hnormal hcode)⟩
  case secure =>
    intro s k a hr hruns hsecure hother d c
    have hexec {d1 : Die} (hd : d.coreFetch k a = d1) : exec (.gateExit k a) s = .next (s.withDie d1) :=
      (onLive_leaves hr rfl ((Die.gateExit_stays hruns hother).trans hd) : execGateExit k a s = _)
    exact ⟨fun hhit => hexec (Die.coreFetch_hit hhit),
      fun hmiss hcode => hexec (Die.coreFetch_fills hmiss (hsecure.trans hcode.symm)),
      fun hmiss hcode => hexec (Die.coreFetch_secure_traps hmiss hsecure hcode)⟩
  case lines => exact fun c a b hline => ⟨Core.hits_fill hline, Core.fill_secure_not_hits hline⟩

/-! ## Event bits and counts (R69) -/

/-- The die beside its registers, its power state and what it has sent. -/
def Die.beside (d : Die) : Die := { d with regs := [], pwr := Pwr.init, out := [] }

@[simp] theorem Die.regW_beside (d : Die) (o : Nat) (v : Reg) : (d.regW o v).beside = d.beside := rfl
@[simp] theorem Die.emit_beside (d : Die) (m : Out) : (d.emit m).beside = d.beside := rfl
@[simp] theorem Die.count_beside (d : Die) (o n : Nat) : (d.count o n).beside = d.beside := Die.regW_beside d _ _

@[simp] theorem Die.event_beside (d : Die) (o b : Nat) : (d.event o b).beside = d.beside := by
  rw [Die.event]
  split <;> rfl

@[simp] theorem Die.active_beside (d : Die) : d.active.beside = d.beside := by
  rw [Die.active]
  split <;> rfl

theorem ofNat_ne_zero {n : Nat} (hne : n ≠ 0) (hlt : n < 2 ^ 32) : BitVec.ofNat 32 n ≠ 0 := by
  intro hzero
  have hnat := congrArg BitVec.toNat hzero
  rw [BitVec.toNat_ofNat, Nat.mod_eq_of_lt hlt] at hnat
  exact hne hnat

/-- Bits of a 32-bit register with bit `b` set. -/
theorem bit_ofNat_or {b : Nat} (hb : b < 32) (r : Reg) (j : Nat) :
    bit (BitVec.ofNat 32 (r.toNat ||| 2 ^ b)) j = (bit r j || decide (b = j)) := by
  have hlt : r.toNat ||| 2 ^ b < 2 ^ 32 := Nat.or_lt_two_pow r.isLt (Nat.pow_lt_pow_right (by decide) hb)
  rw [bit, BitVec.toNat_ofNat, Nat.mod_eq_of_lt hlt, Nat.testBit_or, Nat.testBit_two_pow, bit]

/-- An EVENT register that resets to 0 reads as before with its bit set. -/
theorem Die.regR_event_self {o b : Nat} (hb : b < 32) (hreset : regReset o = 0) (d : Die) :
    (d.event o b).regR o = BitVec.ofNat 32 ((d.regR o).toNat ||| 2 ^ b) := by
  have hself : (d.regW o (BitVec.ofNat 32 ((d.regR o).toNat ||| 2 ^ b))).regR o = BitVec.ofNat 32 ((d.regR o).toNat ||| 2 ^ b) := by
    refine regR_regW_self _ _ _ (hreset ▸ fun hzero => ?_)
    have hset := bit_ofNat_or hb (d.regR o) b
    rw [hzero, decide_eq_true rfl, Bool.or_true, bit, show (0 : Reg).toNat = 0 from rfl, Nat.zero_testBit] at hset
    cases hset
  rw [Die.event]
  split <;> exact hself

theorem Die.bit_event_self {o b : Nat} (hb : b < 32) (hreset : regReset o = 0) (d : Die) : bit ((d.event o b).regR o) b = true := by
  rw [Die.regR_event_self hb hreset, bit_ofNat_or hb, decide_eq_true rfl, Bool.or_true]

theorem Die.bit_event_other {o b j : Nat} (hb : b < 32) (hreset : regReset o = 0) (hj : j ≠ b) (d : Die) :
    bit ((d.event o b).regR o) j = bit (d.regR o) j := by
  rw [Die.regR_event_self hb hreset, bit_ofNat_or hb, decide_eq_false hj.symm, Bool.or_false]

/-- A saturating count that resets to 0 reads one more. -/
theorem Die.regR_count_self {o : Nat} (hreset : regReset o = 0) (d : Die) :
    (d.count o 1).regR o = BitVec.ofNat 32 (min ((d.regR o).toNat + 1) 0xffffffff) :=
  regR_regW_self _ _ _ (hreset ▸ ofNat_ne_zero (by omega) (by omega))

/-! ## The secure window (R412) -/

@[simp] theorem Die.active_regs (d : Die) : d.active.regs = d.regs := by
  rw [Die.active]
  split <;> rfl

section Deny

variable (d : Die) (src : Src) (o : Nat) (write : Bool)

theorem Die.windowDeny_count : (d.windowDeny src o write).regR R.dbgWinDeny =
    BitVec.ofNat 32 (min ((d.regR R.dbgWinDeny).toNat + 1) 0xffffffff) := by
  rw [Die.windowDeny, regR_event_other _ _ _ _ (by decide), regR_regW_other _ _ _ _ (by decide), Die.regR_count_self (by decide)]

/-- A denied access writes registers and sends at most an interrupt. -/
theorem Die.windowDeny_beside : (d.windowDeny src o write).beside = d.beside := by
  rw [Die.windowDeny, Die.event_beside, Die.regW_beside, Die.count_beside]

theorem Die.windowDeny_event : bit ((d.windowDeny src o write).regR R.dbgEvent) 3 = true :=
  Die.bit_event_self (by decide) (by decide) _

theorem Die.windowDeny_event_other {b : Nat} (hb : b ≠ 3) :
    bit ((d.windowDeny src o write).regR R.dbgEvent) b = bit (d.regR R.dbgEvent) b := by
  rw [Die.windowDeny, Die.bit_event_other (by decide) (by decide) hb, regR_regW_other _ _ _ _ (by decide),
    regR_count_other _ _ _ _ (by decide)]

theorem Die.windowDeny_other {p : Nat} (hcount : p ≠ R.dbgWinDeny) (hlast : p ≠ R.dbgWinLast) (hevent : p ≠ R.dbgEvent) :
    (d.windowDeny src o write).regR p = d.regR p := by
  rw [Die.windowDeny, regR_event_other _ _ _ _ hevent.symm, regR_regW_other _ _ _ _ hlast.symm, regR_count_other _ _ _ _ hcount.symm]

/-- The last access denied: inside the window, so never the register's reset value. -/
theorem Die.windowDeny_last (hwin : inSecureWindow o = true) : (d.windowDeny src o write).regR R.dbgWinLast =
    BitVec.ofNat 32 (b2n write * 2 ^ 31 + (if src.jtag then 13 else src.master) % 16 * 2 ^ 24 + o % 2 ^ 24) := by
  rw [Die.windowDeny, regR_event_other _ _ _ _ (by decide)]
  have hreset : regReset R.dbgWinLast = 0 := by decide
  simp only [inSecureWindow, decide_eq_true_eq] at hwin
  have hbit : b2n write ≤ 1 := by cases write <;> decide
  exact regR_regW_self _ _ _ (hreset ▸ ofNat_ne_zero (by omega) (by omega))

end Deny

theorem Die.write4_denied {src : Src} {o : Nat} (hwin : inSecureWindow o = true) (d : Die) (v : Nat) :
    d.write4 src false o v = d.windowDeny src o true := by
  rw [Die.write4, hwin]
  exact if_pos rfl

theorem Die.readReg_denied {src : Src} {o : Nat} (hwin : inSecureWindow o = true) (d : Die) :
    d.readReg src false o = (0, d.windowDeny src o false) := by
  rw [Die.readReg, hwin]
  exact if_pos rfl

/-- Settles O54: a normal-world access to the window is denied, and what the denial writes. -/
theorem secureWindowRefusesTheNormalWorld : Obligations.SecureWindowRefusesTheNormalWorld := by
  unfold Obligations.SecureWindowRefusesTheNormalWorld
  intro s src offset value write hw hwin h4 hnormal
  have hregs (p : Nat) : s.die.active.regR p = s.die.regR p := by rw [Die.regR, Die.active_regs, Die.regR]
  have hbeside : (s.die.active.windowDeny src offset write).beside = s.die.beside :=
    (Die.windowDeny_beside ..).trans s.die.active_beside
  have hkeeps {α : Type} (f : Die → α) (hf : ∀ d : Die, f d.beside = f d) :
      f (s.die.active.windowDeny src offset write) = f s.die := by rw [← hf, hbeside, hf]
  refine ⟨s.die.active.windowDeny src offset write, ?acts, ?count, Die.windowDeny_last _ _ _ _ hwin, Die.windowDeny_event .., ?event,
    ?other, hkeeps Die.flt fun _ => rfl, hkeeps Die.kps fun _ => rfl, hkeeps Die.dbl fun _ => rfl, hkeeps Die.dbg fun _ => rfl,
    hkeeps Die.keys fun _ => rfl, hkeeps Die.dram fun _ => rfl⟩
  case acts =>
    cases write with
    | true => rw [exec_secureWindowAccess_write value hw hwin h4, hnormal, Die.write4_denied hwin, if_pos rfl]
    | false => rw [exec_secureWindowAccess_read value hw hwin h4, hnormal, Die.readReg_denied hwin, if_neg Bool.false_ne_true]
  case count => rw [Die.windowDeny_count, hregs]
  case event => exact fun b hb => (Die.windowDeny_event_other _ _ _ _ hb).trans (by rw [hregs])
  case other => exact fun p h1 h2 h3 => (Die.windowDeny_other _ _ _ _ h1 h2 h3).trans (hregs p)

end Sys2Proof.Machine
end

section
/-! Start-up events complete (O32), firmware and keep commands complete (O10): each guard holds, and what the row does is its effect. -/

namespace Sys2Proof.Machine

/-! ## Start-up and the link (R459, R462, R518, R547–R549) -/

section Startup

variable {s : State} {i : StepInfo}

/-- The step in progress ends while start-up runs (R547). -/
theorem exec_startupStepDone (hr : s.runs = true) (hstart : s.die.starting = true) :
    exec (.startupStepDone i) s = .next (s.withDie (s.die.endStep i s.ohm.record.trips s.ohm.record.cause)) :=
  (onLive_leaves hr rfl (if_pos hstart) : execStartupStepDone i s = _)

variable {d : Die} {trips cause : Nat}

theorem Die.endStep_2 (hfatal : d.boot.fatal = none) (hok : i.ok = true) (hn : d.boot.step = 2) :
    d.endStep i trips cause = (d.step2 i.bits trips cause).enterStep 3 := by
  simp [Die.endStep, hfatal, hok, hn]

theorem Die.endStep_3 (hfatal : d.boot.fatal = none) (hok : i.ok = true) (hn : d.boot.step = 3) :
    d.endStep i trips cause = d.step3.enterStep 4 := by
  simp [Die.endStep, hfatal, hok, hn]

theorem Die.endStep_14 (hfatal : d.boot.fatal = none) (hok : i.ok = true) (hn : d.boot.step = 14) :
    d.endStep i trips cause = d.memActive.enterStep 15 := by
  simp [Die.endStep, hfatal, hok, hn]

theorem Die.endStep_15 (hfatal : d.boot.fatal = none) (hok : i.ok = true) (hn : d.boot.step = 15) :
    d.endStep i trips cause = d.step15 := by
  simp [Die.endStep, hfatal, hok, hn]

/-- A step other than 5, 8 and 9 that finds a failure fails its own check (R548). -/
theorem Die.endStep_fails (hfatal : d.boot.fatal = none) (hok : i.ok = false) (h5 : d.boot.step ≠ 5) (h8 : d.boot.step ≠ 8)
    (h9 : d.boot.step ≠ 9) : d.endStep i trips cause = d.stepFail d.boot.step 3 i.unit i.bits i.secure := by
  simp only [Die.endStep, hfatal, hok, h5, h8, h9, false_and, Bool.not_false, ↓reduceIte]

end Startup

/-- A frame with no event in state GOOD only stands as the last one seen (R462). -/
theorem Die.ohmFrame_quiet {f : Frame} (hst : f.st = .good) (hevents : f.events = 0) (d : Die) :
    d.ohmFrame f = { d with ohmSeen := some f } := by
  have hnone : (range' 1 5).filter f.events.testBit = [] :=
    List.filter_eq_nil_iff.mpr fun b _ => by rw [hevents, Nat.zero_testBit]; exact Bool.false_ne_true
  have hquiet : ¬(f.st ≠ .good ∨ f.events ≠ 0) := fun h => h.elim (· hst) (· hevents)
  rw [Die.ohmFrame, hnone]
  exact if_neg hquiet

/-- The front frame of the link arrives at a released main die that is not held. -/
theorem exec_ohmStatusFrame {s : State} {f : Frame} {rest : List Frame} (hrel : s.ohm.released = true)
    (hhold : s.die.boot.hold = false) (hlink : s.link = f :: rest) :
    exec .ohmStatusFrame s = .next { s with link := rest, die := s.die.ohmFrame f } := by
  change execOhmStatusFrame s = _
  rw [execOhmStatusFrame, hlink]
  refine (onDie_released (s := { s with link := rest }) hrel _).trans ?_
  rw [if_neg (ne_true_of_eq_false hhold)]

/-- Settles O32: by the step that ends, and row by row. -/
theorem startupEventsComplete : Obligations.StartupEventsComplete := by
  unfold Obligations.StartupEventsComplete
  refine ⟨?ends, ?fails, ?watchdog, ?frame, ?linkLost, ?entryLoss⟩
  case ends =>
    intro s i hr hstart hfatal hok
    have hexec {d : Die} (hd : s.die.endStep i s.ohm.record.trips s.ohm.record.cause = d) :
        exec (.startupStepDone i) s = .next (s.withDie d) := hd ▸ exec_startupStepDone hr hstart
    exact ⟨fun hn => hexec (Die.endStep_2 hfatal hok hn), fun hn => hexec (Die.endStep_3 hfatal hok hn),
      fun hn => hexec (Die.endStep_14 hfatal hok hn), fun hn => hexec (Die.endStep_15 hfatal hok hn)⟩
  case fails =>
    intro s i hr hstart hfatal hok h5 h8 h9
    rw [exec_startupStepDone hr hstart, Die.endStep_fails hfatal hok h5 h8 h9]
  case watchdog => exact fun s hr hstart => (onLive_leaves hr rfl (if_pos hstart) : execStepWatchdog s = _)
  case frame =>
    intro s f rest hrel hhold hlink hst hevents
    rw [exec_ohmStatusFrame hrel hhold hlink, Die.ohmFrame_quiet hst hevents]
  case linkLost => exact fun s hr => (onLive_leaves hr rfl rfl : execOhmLinkLost s = _)
  case entryLoss => exact fun s hr hleaving => (onLive_leaves hr rfl (if_pos hleaving) : execEntryLoss s = _)

/-! ## Firmware images and the keep store (R400, R555–R559) -/

section Rows

variable {s : State} {h : Hdr} {d : Die}

/-- The image that does not run is written and no longer verified (R400, R555). -/
theorem exec_fwWrite {image offset : Nat} {data : List Byte} (ht : s.takes h 0x0b01 [.k] (5 + data.length) d) (himage : image ≤ 1)
    (hfits : offset + data.length ≤ 0x300000) (hother : image ≠ d.boot.image) :
    exec (.fwWrite h image offset data) s = .next (s.withDie ({ d with boot := { d.boot with
      flash := ((List.range data.length).zip data).foldl
        (fun (f : Tbl Nat) (x : Nat × Byte) => f.insert (imageBase image + offset + x.1) x.2.toNat) d.boot.flash
      verified := d.boot.verified.filter (· ≠ image) } }.ok h 0x0b01 [])) :=
  (onCmd_leaves ht rfl ((if_neg (Nat.not_lt.mpr himage)).trans ((if_neg (Nat.not_lt.mpr hfits)).trans (if_neg hother))) :
    execFwWrite h image offset data s = _)

/-- FW_VERIFY ends at once, by the image's verdict (R555). -/
theorem exec_fwVerify {image : Nat} (ht : s.takesLong h 0x0b02 [.k] 1 d) (himage : image ≤ 1) :
    exec (.fwVerify h image) s = .next (s.withDie (
      let d1 := d.interim h 0x0b02
      if d.imageVerifies image then
        { d1 with boot := { d1.boot with verified := (image :: d1.boot.verified).eraseDups } }.ok h 0x0b02 [(4, d.imageVersion image)]
      else d1.fail h 0x0b02 St.imageBad 0)) :=
  (onCmd_leavesLong ht rfl (if_neg (Nat.not_lt.mpr himage)) : execFwVerify h image s = _)

theorem exec_fwSelect {image : Nat} (ht : s.takes h 0x0b03 [.k] 1 d) (himage : image ≤ 1)
    (hverified : d.boot.verified.contains image = true) :
    exec (.fwSelect h image) s = .next (s.withDie ((d.keepFld 3 0 0 image).ok h 0x0b03 [])) :=
  (onCmd_leaves ht rfl ((if_neg (Nat.not_lt.mpr himage)).trans (if_neg (by rw [hverified]; decide))) :
    execFwSelect h image s = _)

/-- The registers below KEEP_SEC_BASE are read (R439). -/
theorem exec_keepRead {first count : Nat} (ht : s.takes h 0x0b04 [.f, .k] 4 d) (hfirst : first ≤ 1023) (hcount : count ≤ 256)
    (hend : first + count ≤ 1024) (hsec : first + count ≤ d.keepSecBase) :
    exec (.keepRead h first count) s = .next (s.withDie
      (d.ok h 0x0b04 ((range' first count).flatMap fun k => [(4, (d.keep k).toNat), (4, Tbl.get 0 d.kps.wear k)]))) :=
  (onCmd_leaves ht rfl ((if_neg (Nat.not_lt.mpr hfirst)).trans
    ((if_neg (not_or.mpr ⟨Nat.not_lt.mpr hcount, Nat.not_lt.mpr hend⟩)).trans (if_neg (Nat.not_lt.mpr hsec)))) :
    execKeepRead h first count s = _)

/-- A write to a marked register below KEEP_SEC_BASE enters the queue, and is answered when it ends (R558, R559). -/
theorem exec_keepWrite {k value : Nat} (ht : s.takes h 0x0b05 [.f, .k] 6 d) (hk : k ≤ 1023) (hsec : k < d.keepSecBase)
    (hmarked : keepMarked k = true) (hrsv : keepRsvOk k (BitVec.ofNat 32 value) = true)
    (hpref : k = 3 → bit (BitVec.ofNat 32 value) 0 = bit (d.keep 3) 0) :
    exec (.keepWrite h k value) s = .next (s.withDie
      { d with kps := { d.kps with queue := d.kps.queue ++ [{ k := k, v := BitVec.ofNat 32 value, hdr := some h }] } }) := by
  have hallowed : ¬((!keepRsvOk k (BitVec.ofNat 32 value)) = true ∨
      (k = 3 ∧ bit (BitVec.ofNat 32 value) 0 ≠ bit (d.keep 3) 0)) := by
    rintro (hbad | ⟨h3, hdiff⟩)
    · rw [hrsv] at hbad; cases hbad
    · exact hdiff (hpref h3)
  exact (onCmd_leaves ht rfl ((if_neg (Nat.not_lt.mpr hk)).trans ((if_neg (Nat.not_le.mpr hsec)).trans
    ((if_neg (by rw [hmarked]; decide)).trans (if_neg hallowed)))) : execKeepWrite h k value s = _)

end Rows

/-- Settles O10: row by row; the end of a keep write by whether a command waits for it. -/
theorem firmwareAndKeepCommandsComplete : Obligations.FirmwareAndKeepCommandsComplete := by
  unfold Obligations.FirmwareAndKeepCommandsComplete
  refine ⟨?info, ?write, ?verify, ?select, ?keepRead, ?keepWrite, ?ownWriteDone, ?commandWriteDone, ?restart⟩
  case info => exact fun s h d ht => (onCmd_leaves ht rfl rfl : execFwInfo h s = _)
  case write => exact fun s h d image offset data ht himage hfits hother => exec_fwWrite ht himage hfits hother
  case verify => exact fun s h d image ht himage => exec_fwVerify ht himage
  case select => exact fun s h d image ht himage hverified => exec_fwSelect ht himage hverified
  case keepRead => exact fun s h d first count ht hfirst hcount hend hsec => exec_keepRead ht hfirst hcount hend hsec
  case keepWrite => exact fun s h d k value ht hk hsec hmarked hrsv hpref => exec_keepWrite ht hk hsec hmarked hrsv hpref
  case ownWriteDone =>
    exact fun s w rest hr hqueue hown => (onLive_leaves hr rfl (by simp only [hqueue, hown]) : execKeepWriteDone s = _)
  case commandWriteDone =>
    exact fun s w rest h hr hqueue hcmd => (onLive_leaves hr rfl (by simp only [hqueue, hcmd]) : execKeepWriteDone s = _)
  case restart => exact fun s h d ht => (onCmd_leaves ht rfl rfl : execDeviceRestart h s = _)

end Sys2Proof.Machine
end

section
/-! Power and telemetry commands complete (O8), a wrapping counter sets its overflow bit (O59), and power events that are not complete
(O28): an SL3 exit with a saved image that does not verify also records its range counter-lost. -/

namespace Sys2Proof.Machine

/-! ## Power and telemetry commands (R400, R469–R476, R524–R545) -/

section Rows

variable {s : State} {h : Hdr} {d : Die}

/-- A level that the contracts allow is placed, and answered with the level in force (R469, R474). -/
theorem exec_pwrLevel {level : Nat} (ht : s.takes h 0x0800 [.f] 1 d) (hlevel : level ≤ 3) (hok : d.levelOk level = true) :
    exec (.pwrLevel h level) s = .next (s.withDie ((d.placeRequest { code := level + 1, mask := 0 }).2.answer h 0x0800
      (d.placeRequest { code := level + 1, mask := 0 }).1 0 [(1, d.pwr.level)])) :=
  (onCmd_leaves ht rfl ((if_neg (Nat.not_lt.mpr hlevel)).trans (if_neg (by rw [hok]; decide))) : execPwrLevel h level s = _)

/-- A sleep request is placed; SL3 wants every domain down (R473, R480). -/
theorem exec_pwrSleep {state mask : Nat} (ht : s.takes h 0x0801 [.f] 5 d) (hsome : state ≠ 0) (hstate : state ≤ 3)
    (hmask : mask < 65536) (hdown : state = 3 → d.anyDomainUp = false) :
    exec (.pwrSleep h state mask) s = .next (s.withDie ((d.placeRequest { code := state + 4, mask := mask }).2.answer h 0x0801
      (d.placeRequest { code := state + 4, mask := mask }).1 0 [])) := by
  have hdomains : ¬(state = 3 ∧ d.anyDomainUp = true) := fun ⟨h3, hup⟩ => absurd hup (ne_true_of_eq_false (hdown h3))
  exact (onCmd_leaves ht rfl ((if_neg (not_or.mpr ⟨hsome, Nat.not_lt.mpr hstate⟩)).trans
    ((if_neg (Nat.not_le.mpr hmask)).trans (if_neg hdomains))) : execPwrSleep h state mask s = _)

/-- With both slots free and no secure hold a request is in flight at once (R473). -/
theorem Die.placeRequest_enters {r : PwrReq} (hflight : d.pwr.inflight = none) (hpending : d.pwr.pending = none)
    (hfree : d.secureHolds r.code = false) : d.placeRequest r = (St.success, d.enterSlot r) := by
  rw [Die.placeRequest]
  exact if_pos ⟨by rw [hflight]; rfl, by rw [hpending]; rfl, by rw [hfree]; rfl⟩

/-- TEL_CFG commits its register; a period other than 0 names a plain bay entry (R535). -/
theorem exec_telCfg {entry period : Nat} (ht : s.takes h 0x0a00 [.f] 3 d) (hentry : entry ≤ 16383)
    (hon : period ≠ 0 → d.plainEntry entry = true ∧ 10 ≤ period ∧ period ≤ 24) :
    exec (.telCfg h entry period) s = .next (s.withDie ((d.regWake R.pmuCommit).commitFor .pmu (.telCfg h entry period)
      [(R.pmuTelCfg, (if period = 0 then 0 else 2 ^ 31) + period * 2 ^ 16 + entry)])) := by
  have hplain : ¬(16383 < entry ∨ (period ≠ 0 ∧ (!d.plainEntry entry) = true)) := by
    rintro (hbig | ⟨hne, hno⟩)
    · exact Nat.not_lt.mpr hentry hbig
    · rw [(hon hne).1] at hno
      cases hno
  have hperiod : ¬(period ≠ 0 ∧ (period < 10 ∨ 24 < period)) := by
    rintro ⟨hne, hout⟩
    obtain ⟨_, hlow, hhigh⟩ := hon hne
    omega
  exact (onCmd_leaves ht rfl ((if_neg hplain).trans (if_neg hperiod)) : execTelCfg h entry period s = _)

/-- PMU_SELECT commits the counter's selection and its pair's chain bit (R525, R526). -/
theorem exec_pmuSelect {ctr event chain : Nat} (ht : s.takes h 0x0a01 [.f] 7 d) (hctr : ctr ≤ 511)
    (hrsv : fld (BitVec.ofNat 32 event) 15 12 = 0) (hsel : selOk (BitVec.ofNat 32 event) = true)
    (hchain : chain = 0 ∨ (chain = 1 ∧ ctr % 2 = 0)) :
    exec (.pmuSelect h ctr event chain) s = .next (s.withDie
      ((d.regWake (R.pmuChain (ctr / 64))).commitFor .pmu (.pmuSelect h ctr event chain) [(R.pmuSel ctr, event),
        (R.pmuChain (ctr / 64),
          (setFld (d.future (R.pmuChain (ctr / 64))) (ctr / 2 % 32) (ctr / 2 % 32) chain).toNat)])) := by
  have hselects : ¬(fld (BitVec.ofNat 32 event) 15 12 ≠ 0 ∨ (!selOk (BitVec.ofNat 32 event)) = true) := by
    rw [hsel]
    exact not_or.mpr ⟨fun hne => hne hrsv, Bool.false_ne_true⟩
  have hchains : ¬(1 < chain ∨ (chain = 1 ∧ ctr % 2 = 1)) := by omega
  exact (onCmd_leaves ht rfl ((if_neg (Nat.not_lt.mpr hctr)).trans ((if_neg hselects).trans (if_neg hchains))) :
    execPmuSelect h ctr event chain s = _)

/-- TEL_WINDOW commits the bit of a tenancy in use (R545). -/
theorem exec_telWindow {ten allow : Nat} (ht : s.takes h 0x0a02 [.f] 3 d) (hten : ten ≤ 1023) (hused : (d.ten ten).st ≠ .free)
    (hallow : allow ≤ 1) :
    exec (.telWindow h ten allow) s = .next (s.withDie
      ((d.regWake (R.pmuWindow (ten / 32))).commitFor .pmu (.telWindow h ten allow)
        [(R.pmuWindow (ten / 32), (setFld (d.future (R.pmuWindow (ten / 32))) (ten % 32) (ten % 32) allow).toNat)])) :=
  (onCmd_leaves ht rfl ((Die.withTen_used hten hused ..).trans (if_neg (Nat.not_lt.mpr hallow))) : execTelWindow h ten allow s = _)

/-- PMU_READ answers the counters asked for; a tenancy's must all be open to it (R542, R545). -/
theorem exec_pmuRead {first count : Nat} (ht : s.takes h 0x0a03 [.f, .t] 4 d) (hfirst : first ≤ 511) (hcount : count ≤ 256)
    (hend : first + count ≤ 512)
    (hopen : d.asTenant h 0x0a03 = true → (range' first count).all (d.openTo (hdrTen h)) = true) :
    exec (.pmuRead h first count) s = .next (s.withDie
      ((d.regWake R.pmuCommit).ok h 0x0a03 ((range' first count).map fun k => (8, d.pmuVal k)))) := by
  have hin : ¬decide (256 < count ∨ 512 < first + count) = true := by
    rw [decide_eq_true_eq]
    omega
  have hpermitted : ¬(d.asTenant h 0x0a03 = true ∧ (decide (256 < count ∨ 512 < first + count) = true ∨
      (!(range' first count).all (d.openTo (hdrTen h))) = true)) := by
    rintro ⟨htenant, hout | hshut⟩
    · exact hin hout
    · rw [hopen htenant] at hshut
      cases hshut
  exact (onCmd_leaves ht rfl ((if_neg hpermitted).trans ((if_neg (Nat.not_lt.mpr hfirst)).trans (if_neg hin))) :
    execPmuRead h first count s = _)

theorem exec_dimmQuery {ch : Nat} (ht : s.takes h 0x0a04 [.f, .k] 1 d) (hch : ch ≤ 15) :
    exec (.dimmQuery h ch) s = .next (s.withDie ((d.regWake R.pmuCommit).ok h 0x0a04
      ([2 * ch, 2 * ch + 1].flatMap fun n => [(1, (d.dimm n).temp), (4, (d.dimm n).word)]))) :=
  (onCmd_leaves ht rfl (if_neg (Nat.not_lt.mpr hch)) : execDimmQuery h ch s = _)

end Rows

/-- Settles O8: row by row. -/
theorem powerAndTelemetryCommandsComplete : Obligations.PowerAndTelemetryCommandsComplete := by
  unfold Obligations.PowerAndTelemetryCommandsComplete
  refine ⟨?level, ?sleep, ?places, ?query, ?telCfg, ?select, ?window, ?read, ?dimm⟩
  case level => exact fun s h d level ht hlevel hok => exec_pwrLevel ht hlevel hok
  case sleep => exact fun s h d state mask ht hsome hstate hmask hdown => exec_pwrSleep ht hsome hstate hmask hdown
  case places => exact fun d r hflight hpending hfree => Die.placeRequest_enters hflight hpending hfree
  case query => exact fun s h d ht => (onCmd_leaves ht rfl rfl : execPwrQuery h s = _)
  case telCfg => exact fun s h d entry period ht hentry hon => exec_telCfg ht hentry hon
  case select => exact fun s h d ctr event chain ht hctr hrsv hsel hchain => exec_pmuSelect ht hctr hrsv hsel hchain
  case window => exact fun s h d ten allow ht hten hused hallow => exec_telWindow ht hten hused hallow
  case read => exact fun s h d first count ht hfirst hcount hend hopen => exec_pmuRead ht hfirst hcount hend hopen
  case dimm => exact fun s h d ch ht hch => exec_dimmQuery ht hch

/-! ## A wrapping counter (R524, R527) -/

@[simp] theorem Die.event_pmu (d : Die) (o b : Nat) : (d.event o b).pmu = d.pmu :=
  (congrArg Die.pmu (d.event_beside o b) : (d.event o b).beside.pmu = d.beside.pmu)
@[simp] theorem Die.event_dram (d : Die) (o b : Nat) : (d.event o b).dram = d.dram :=
  (congrArg Die.dram (d.event_beside o b) : (d.event o b).beside.dram = d.beside.dram)

section Wrap

variable {d : Die} {k n : Nat}

/-- A counter that is not chained counts alone. -/
theorem Die.pmuAdd_unchained (hchain : d.pmuChained k = false) : d.pmuAdd k n = d.pmuRaw k n :=
  if_neg fun hlow => absurd hlow.1 (ne_true_of_eq_false hchain)

/-- A counter past its 48 bits wraps and sets its overflow bit and the event. -/
theorem Die.pmuRaw_wraps (hwraps : 2 ^ 48 ≤ Tbl.get 0 d.pmu.ctr k + n) : d.pmuRaw k n =
    ({ d with pmu := { d.pmu with
      ctr := d.pmu.ctr.set 0 k ((Tbl.get 0 d.pmu.ctr k + n) % 2 ^ 48)
      ovf := if d.pmu.ovf.contains k then d.pmu.ovf else k :: d.pmu.ovf } }).event R.pmuEvent 1 :=
  if_neg (Nat.not_lt.mpr hwraps)

end Wrap

/-- A list with `k` put in front where it lacked it contains it. -/
theorem contains_insert (l : List Nat) (k : Nat) : (if l.contains k then l else k :: l).contains k = true := by
  split
  · assumption
  · simp

/-- Settles O59: the counter is not chained, so it wraps alone. -/
theorem wrappingCounterSetsItsOverflow : Obligations.WrappingCounterSetsItsOverflow := by
  unfold Obligations.WrappingCounterSetsItsOverflow
  intro s k n hr hk hcount hchain hsel hwf hwraps
  have hlow : ¬(s.die.pmuChained k = true ∧ k % 2 = 1) := fun hhigh => absurd hhigh.1 (ne_true_of_eq_false hchain)
  refine ⟨s.die.pmuAdd k n, exec_counterWrap hr hk hcount hlow hsel hwraps, ?_⟩
  rw [Die.pmuAdd_unchained hchain, Die.pmuRaw_wraps hwraps]
  simp only [Die.event_pmu, Die.event_dram]
  refine ⟨?value, contains_insert .., ?others, Die.bit_event_self (by decide) (by decide) _, trivial⟩
  case value => rw [Tbl.get_set 0 _ _ _ _ hwf, if_pos rfl]
  case others => exact fun j hj => by rw [Tbl.get_set 0 _ _ _ _ hwf, if_neg hj.symm]

/-! ## What a fault record leaves (R498) -/

/-- The die beside what a fault record and the counters write too. -/
def Die.apart (d : Die) : Die := { d.beside with flt := Flt.init, pmu := Pmu.init }

theorem Die.apart_of_beside {d e : Die} (h : d.beside = e.beside) : d.apart = e.apart := by
  rw [Die.apart, h, Die.apart]

@[simp] theorem Die.regW_apart (d : Die) (o : Nat) (v : Reg) : (d.regW o v).apart = d.apart := Die.apart_of_beside (by simp)
@[simp] theorem Die.count_apart (d : Die) (o n : Nat) : (d.count o n).apart = d.apart := Die.apart_of_beside (by simp)
@[simp] theorem Die.event_apart (d : Die) (o b : Nat) : (d.event o b).apart = d.apart := Die.apart_of_beside (by simp)
@[simp] theorem Die.emit_apart (d : Die) (m : Out) : (d.emit m).apart = d.apart := Die.apart_of_beside (by simp)

@[simp] theorem Die.pmuRaw_apart (d : Die) (k n : Nat) : (d.pmuRaw k n).apart = d.apart := by
  rw [Die.pmuRaw]
  split
  · rfl
  · rw [Die.event_apart]; rfl

@[simp] theorem Die.pmuAdd_apart (d : Die) (k n : Nat) : (d.pmuAdd k n).apart = d.apart := by
  simp only [Die.pmuAdd]
  split
  · split
    · rfl
    · rw [Die.pmuRaw_apart]; rfl
  · rw [Die.pmuRaw_apart]

/-- What each step keeps, a fold keeps. -/
theorem foldl_keeps {α β γ : Type} {f : β → α → β} {g : β → γ} (hf : ∀ b a, g (f b a) = g b) (l : List α) (b : β) :
    g (l.foldl f b) = g b := by
  induction l generalizing b with
  | nil => rfl
  | cons a l ih => rw [List.foldl_cons, ih, hf]

@[simp] theorem Die.tally_apart (d : Die) (ev n : Nat) (is : List (Nat × Nat)) : (d.tally ev n is).apart = d.apart := by
  rw [Die.tally]
  split
  · rfl
  · refine foldl_keeps (fun d e => ?_) _ _
    split
    · dsimp only
      split
      · rw [Die.pmuAdd_apart]
      · rfl
    · rfl

@[simp] theorem Die.wake_apart (d : Die) (b : Nat) : (d.wake b).apart = d.apart := by
  simp only [Die.wake]
  split
  · rfl
  · split
    · rfl
    · rfl
    · rw [Die.event_apart]; rfl
    · split
      · rw [Die.event_apart]; rfl
      · split <;> rfl
    · rfl

@[simp] theorem Die.recordOnly_apart (d : Die) (u code cls master ten addr syn : Nat) (injected : Bool) :
    (d.recordOnly u code cls master ten addr syn injected).apart = d.apart := by
  simp only [Die.recordOnly, apply_ite Die.apart, Die.emit_apart, Die.wake_apart, Die.count_apart, Die.event_apart, Die.tally_apart,
    ite_self]
  rfl

@[simp] theorem Die.itrNote_apart (d : Die) (dga outcome ev cnt : Nat) : (d.itrNote dga outcome ev cnt).apart = d.apart := by
  simp only [Die.itrNote, Die.event_apart, Die.regW_apart, Die.count_apart]

/-- The die whose counter-lost ranges are `ranges`. -/
def Die.withLost (d : Die) (ranges : List Lost) : Die := { d with itr := { d.itr with lost := ranges } }

/-- The first range lost enters the list (R240). -/
theorem Die.addLost_apart {d : Die} (hnone : d.itr.lost = []) (level page dga : Nat) :
    (d.addLost level page dga).apart = (d.withLost [{ level := level, page := page, cleared := [] }]).apart := by
  have hroom : ¬64 ≤ 0 := by decide
  simp only [Die.addLost, hnone, List.any_nil, List.length_nil, hroom, Bool.false_eq_true, ↓reduceIte, List.nil_append,
    Die.recordOnly_apart, Die.itrNote_apart, Die.withLost]

/-- A saved image that fails both reads makes its range counter-lost (R237). -/
theorem Die.badImage_lost {d : Die} (hon : d.flt.stuDisabled = false) (n3 : Nat) :
    d.badImage n3 false = (d.count R.stuLineTests 1).addLost 3 (firstPage 3 n3) (nodeBase 3 n3) := by
  simp only [Die.badImage, hon, Bool.false_eq_true, false_and, ↓reduceIte]

/-- With no contract command deferred, nothing is drained. -/
theorem Die.drainDeferred_itr {d : Die} (hnone : d.trs.deferred = []) : d.drainDeferred.itr = d.itr := by
  rw [Die.drainDeferred]
  split
  · rfl
  · rw [hnone]; rfl

/-! ## An SL3 exit with an image that does not verify (R208, R223, R237) -/

/-- A device that exits SL3 with one data bay, whose saved L3 node carries the MAC `mac`; the other state is as released. -/
def sl3Woken (mac : Nat) : State :=
  { State.reset with
    ohm := { Ohm.init with released := true }
    die := { Die.init with
      pwr := { Pwr.init with st := .sl3Exit }
      regs := [(R.itrSetHi 0 + 0x8000, BitVec.ofNat 32 (2 ^ 31 + 1)), (R.itrSetLo 0 + 0x8000, BitVec.ofNat 32 (2 ^ 13))]
      itr := { Itr.init with l3save := [(0, { node := Node.zero, mac := mac })] } } }

/-- The MAC under which the saved node of `sl3Woken` verifies. -/
def sl3WokenMac : Nat := nodeMac 0 3 0 0 0 Node.zero

/-- What `execSl3ExitDone` does with the nodes that fail, given their list. -/
def Die.exitSl3 (d : Die) (bad : List (Nat × Bool)) : Die :=
  let d1 := bad.foldl (fun (d : Die) (x : Nat × Bool) => d.badImage x.1 x.2) d.loadL3
  let d2 := { d1 with pwr := { d1.pwr with st := .run }, pmu := { d1.pmu with gapDue := true } }.recordWake d1.pwr.present
  ((d2.endRequest St.success).event R.pwrEvent 2).drainDeferred

/-- No noise: the nodes that fail are the saved images that do not verify. -/
theorem exec_sl3ExitDone {s : State} (hr : s.runs = true) (hst : s.die.pwr.st = .sl3Exit) :
    exec (.sl3ExitDone []) s = .next (s.withDie
      (s.die.exitSl3 ((s.die.l3Nodes.filter fun n3 => !s.die.imageOk n3).map fun n3 => (n3, false)))) := by
  refine (onLive_leaves hr rfl ?_ : execSl3ExitDone [] s = _)
  rw [if_neg (not_not_intro hst)]
  simp only [List.filter_nil, List.append_nil]
  rfl

/-- The tree's state after the exit is that after the nodes that fail. -/
theorem Die.exitSl3_itr {d d1 : Die} {bad : List (Nat × Bool)}
    (hbad : (bad.foldl (fun (d : Die) (x : Nat × Bool) => d.badImage x.1 x.2) d.loadL3).apart = d1.apart)
    (hnone : d1.trs.deferred = []) : (d.exitSl3 bad).itr = d1.itr := by
  generalize hd2 : bad.foldl (fun (d : Die) (x : Nat × Bool) => d.badImage x.1 x.2) d.loadL3 = d2 at hbad
  have htrs : d2.trs = d1.trs := (congrArg Die.trs hbad : d2.apart.trs = d1.apart.trs)
  have hitr : d2.itr = d1.itr := (congrArg Die.itr hbad : d2.apart.itr = d1.apart.itr)
  have hlast (d : Die) : (d.event R.pwrEvent 2).trs = d.trs ∧ (d.event R.pwrEvent 2).itr = d.itr :=
    ⟨(congrArg Die.trs (d.event_apart _ _) : (d.event _ _).apart.trs = d.apart.trs),
      (congrArg Die.itr (d.event_apart _ _) : (d.event _ _).apart.itr = d.apart.itr)⟩
  rw [Die.exitSl3, hd2, Die.drainDeferred_itr, (hlast _).2]
  · exact hitr
  · rw [(hlast _).1]
    exact (congrArg Trs.deferred htrs).trans hnone

section Woken

variable (mac : Nat)

theorem sl3Woken_l3Nodes : (sl3Woken mac).die.l3Nodes = [0] := by
  have hsame : (sl3Woken mac).die.l3Nodes = (sl3Woken 0).die.l3Nodes := rfl
  rw [hsame]
  decide

theorem sl3Woken_imageOk {mac : Nat} (hmac : mac ≠ sl3WokenMac) : (sl3Woken mac).die.imageOk 0 = false := by
  have hkey : (sl3Woken mac).die.itr.tk.getD 0 = 0 := rfl
  have hroot : (sl3Woken mac).die.itr.l4node (0 / 64) = Node.zero := rfl
  have hminor : Node.zero.minor (0 % 64) = 0 := rfl
  have hsaved : ((sl3Woken mac).die.itr.l3save.find? 0).getD Stored.blank = { node := Node.zero, mac := mac } := rfl
  rw [Die.imageOk, Itr.macOk, hkey, hroot, hminor, hsaved]
  exact decide_eq_false hmac

/-- The range of an image that does not verify is counter-lost. -/
theorem sl3Woken_lost :
    ((sl3Woken mac).die.exitSl3 [(0, false)]).itr.lost = [{ level := 3, page := firstPage 3 0, cleared := [] }] := by
  have hon : (sl3Woken mac).die.loadL3.flt.stuDisabled = false := rfl
  have hnone : ((sl3Woken mac).die.loadL3.count R.stuLineTests 1).itr.lost = [] := rfl
  have hbad := (congrArg Die.apart (Die.badImage_lost hon 0)).trans (Die.addLost_apart hnone 3 (firstPage 3 0) (nodeBase 3 0))
  exact congrArg Itr.lost (Die.exitSl3_itr (d := (sl3Woken mac).die) (bad := [(0, false)]) hbad rfl)

theorem sl3Woken_none_lost : ((sl3Woken mac).die.exitSl3 []).itr.lost = [] := by
  rw [Die.exitSl3_itr (d1 := (sl3Woken mac).die.loadL3) rfl rfl]
  rfl

end Woken

/-- What the statement says of an SL3 exit: no saved image fails. -/
theorem PowerEventsComplete.exitSl3_eq (hall : Obligations.PowerEventsComplete) {s : State} (hr : s.runs = true)
    (hst : s.die.pwr.st = .sl3Exit) :
    s.die.exitSl3 ((s.die.l3Nodes.filter fun n3 => !s.die.imageOk n3).map fun n3 => (n3, false)) = s.die.exitSl3 [] := by
  unfold Obligations.PowerEventsComplete at hall
  obtain ⟨-, -, -, -, -, -, -, hexit⟩ := hall
  have hclaim : exec (.sl3ExitDone []) s = .next (s.withDie (s.die.exitSl3 [])) := hexit s hr hst
  rw [exec_sl3ExitDone hr hst] at hclaim
  injection hclaim with hstate
  exact congrArg State.die hstate

/-- On `sl3Woken` with another MAC than the image's the exit also records the image's range counter-lost (R237). -/
theorem sl3Woken_refutes {mac : Nat} (hmac : mac ≠ sl3WokenMac) : ¬ Obligations.PowerEventsComplete := by
  intro hall
  have hexit := PowerEventsComplete.exitSl3_eq hall (s := sl3Woken mac) rfl rfl
  simp only [sl3Woken_l3Nodes, List.filter_cons, sl3Woken_imageOk hmac, Bool.not_false, ↓reduceIte, List.filter_nil, List.map_cons,
    List.map_nil] at hexit
  have hlost := congrArg (fun d : Die => d.itr.lost) hexit
  rw [sl3Woken_lost, sl3Woken_none_lost] at hlost
  cases hlost

/-- Refutes O28: its last clause takes every saved image to verify; the image of `sl3Woken`, with a MAC one above the right one, does
not. -/
theorem not_powerEventsComplete : ¬ Obligations.PowerEventsComplete :=
  sl3Woken_refutes (Nat.succ_ne_self sl3WokenMac)

end Sys2Proof.Machine
end

section
/-! Fault commands (O9), detections (O30) and self-test events (O31) complete: each guard holds, and what the row does is its effect. -/

namespace Sys2Proof.Machine

/-! ## Fault commands (R400, R498, R500, R511, R519, R520) -/

section Commands

variable {s : State} {h : Hdr} {d : Die}

/-- FLT_GET returns the records of one unit or of all, as many as fit (R501). -/
theorem exec_fltGet {unit max : Nat} (ht : s.takes h 0x0900 [.f, .k] 4 d) (hunit : unit = 0xffff ∨ unitOk unit = true) :
    exec (.fltGet h unit max) s = .next (s.withDie (
      let us := if unit = 0xffff then (List.range 0xf9).filter unitOk else [unit]
      let rs := (us.flatMap d.recordsOf).take (min max ((payMax h.via - 2) / 32))
      d.ok h 0x0900 ((2, rs.length) :: rs.flatMap Rec.pay))) := by
  have hfound : ¬(unit ≠ 0xffff ∧ (!unitOk unit) = true) := by
    rintro ⟨hone, hno⟩
    rw [hunit.resolve_left hone] at hno
    cases hno
  exact (onCmd_leaves ht rfl (if_neg hfound) : execFltGet h unit max s = _)

theorem exec_fltClear {unit : Nat} (ht : s.takes h 0x0901 [.f, .k] 2 d) (hone : unit ≠ 0xffff) (hunit : unitOk unit = true) :
    exec (.fltClear h unit) s = .next (s.withDie ((d.fltClear unit).ok h 0x0901 [])) :=
  (onCmd_leaves ht rfl ((if_neg hone).trans (if_neg (by rw [hunit]; decide))) : execFltClear h unit s = _)

/-- A debug world that allows it injects a code the unit records (R519). -/
theorem exec_fltInject {unit kind : Nat} (ht : s.takes h 0x0902 [.f] 4 d) (hni : d.dbg.ni = true) (hunit : unitOk unit = true)
    (hkind : notInjected kind = false) (hcode : (codesOf unit).contains kind = true) :
    exec (.fltInject h unit kind) s = .next (s.withDie
      ((((d.count R.fltInjCount 1).record unit kind (classOf kind) 0xff 0xffff 0 0 true).injectedToo kind).ok h 0x0902 [])) := by
  have hallowed : ¬(notInjected kind = true ∨ (!(codesOf unit).contains kind) = true) := by
    rw [hkind, hcode]
    decide
  exact (onCmd_leaves ht rfl ((if_neg (by rw [hni]; decide)).trans ((if_neg (by rw [hunit]; decide)).trans (if_neg hallowed))) :
    execFltInject h unit kind s = _)

/-- An excluded channel that is not being readmitted begins its readmission (R511). -/
theorem exec_chReadmit {ch : Nat} (ht : s.takesLong h 0x0904 [.f] 1 d) (hch : ch ≤ 15) (hout : (d.chan ch).excluded = true)
    (hstart : (d.chan ch).atStart = false) (hcmd : (d.chan ch).readmitCmd = none) (hready : (d.chan ch).readmit = false) :
    exec (.chReadmit h ch) s = .next (s.withDie
      ((d.setChan ch { (d.chan ch) with readmitCmd := some h }).interim h 0x0904)) := by
  have hexcluded : ¬(15 < ch ∨ (!(d.chan ch).excluded) = true ∨ (d.chan ch).atStart = true) := by
    rw [hout, hstart]
    simpa using hch
  have hfree : ¬((d.chan ch).readmitCmd.isSome = true ∨ (d.chan ch).readmit = true) := by
    rw [hcmd, hready]
    decide
  exact (onCmd_leavesLong ht rfl ((if_neg hexcluded).trans (if_neg hfree)) : execChReadmit h ch s = _)

end Commands

/-- Settles O9: row by row; the end of a readmission by its tests' result. -/
theorem faultCommandsComplete : Obligations.FaultCommandsComplete := by
  unfold Obligations.FaultCommandsComplete
  refine ⟨?get, ?clearAll, ?clear, ?inject, ?readmit, ?readmitPassed, ?readmitFailed⟩
  case get => exact fun s h d unit max ht hunit => exec_fltGet ht hunit
  case clearAll => exact fun s h d ht => (onCmd_leaves ht rfl (if_pos rfl) : execFltClear h 0xffff s = _)
  case clear => exact fun s h d unit ht hone hunit => exec_fltClear ht hone hunit
  case inject => exact fun s h d unit kind ht hni hunit hkind hcode => exec_fltInject ht hni hunit hkind hcode
  case readmit => exact fun s h d ch ht hch hout hstart hcmd hready => exec_chReadmit ht hch hout hstart hcmd hready
  case readmitPassed =>
    intro s ch h hr hcmd hready
    refine (onLive_leaves hr rfl ?_ : execChannelReadmitDone ch true s = _)
    simp only [hcmd, hready, Bool.false_eq_true, ↓reduceIte]
  case readmitFailed =>
    intro s ch h hr hcmd hready
    refine (onLive_leaves hr rfl ?_ : execChannelReadmitDone ch false s = _)
    simp only [hcmd, hready, Bool.false_eq_true, ↓reduceIte]

/-! ## Detections (R499, R506, R509, R514, R515, R593) -/

section Detections

variable {d : Die} {e : UnitErr}

/-- A detection at a unit that reports is recorded, and the interruption it opens is charged back (R509). -/
theorem Die.detect_records {u : Nat} (hunit : unitOk u = true) (code back : Nat) :
    d.detect u code back =
      let d1 := d.record u code 1 0xff 0xffff 0 0
      let early (i : Intr) : Intr := if i.unit = u ∧ i.reread.isNone then { i with start := d.time - back } else i
      { d1 with flt := { d1.flt with intrs := d1.flt.intrs.map early } } :=
  if_neg (by rw [hunit]; decide)

/-- The codes whose record names neither an address nor a syndrome, and that no other reaction accompanies (R593). -/
theorem Die.unitError_bare (hdet : detects e.unit e.code = true) (hcode : [0x50, 0x51, 0x52].contains e.code = true) :
    d.unitError e = d.record e.unit e.code (classOf e.code) 0xff 0xffff 0 0 := by
  have hcases : e.code = 0x50 ∨ e.code = 0x51 ∨ e.code = 0x52 := by simpa using hcode
  rw [Die.unitError, if_neg (by rw [hdet]; decide)]
  rcases hcases with h | h | h <;> simp [h]

/-- The codes whose record names the error's address and syndrome (R593). -/
theorem Die.unitError_named (hdet : detects e.unit e.code = true) (hcode : e.code = 0x30 ∨ e.code = 0x66) :
    d.unitError e = d.record e.unit e.code (classOf e.code) 0xff 0xffff e.addr (e.syndrome % 2 ^ 32) := by
  rw [Die.unitError, if_neg (by rw [hdet]; decide)]
  rcases hcode with h | h <;> simp [h]

/-- A corrected directory entry also sets its slice's event bit (R185). -/
theorem Die.unitError_directory (hdet : detects e.unit e.code = true) (hcode : e.code = 0x10) :
    d.unitError e = (d.event (R.chaEvent (e.unit - 0x28)) 6).record e.unit 0x10 0 0xff 0xffff 0 0 := by
  rw [Die.unitError, if_neg (by rw [hdet]; decide)]
  simp [hcode]

end Detections

/-- Settles O30: row by row; a unit's error by its code. -/
theorem detectionEventsComplete : Obligations.DetectionEventsComplete := by
  unfold Obligations.DetectionEventsComplete
  refine ⟨?hang, ?timeout, ?bare, ?named, ?directory, ?parity, ?stale⟩
  case hang =>
    exact fun s u hr hunit => (onLive_leaves hr rfl (Die.detect_records hunit 0x31 _) : execWatchdogHang u s = _)
  case timeout =>
    exact fun s u hr hunit => (onLive_leaves hr rfl (Die.detect_records hunit 0x34 _) : execIfTimeout u s = _)
  case bare =>
    exact fun s e hr hdet hcode => (onLive_leaves hr rfl (Die.unitError_bare hdet hcode) : execUnitErrorDetected e s = _)
  case named =>
    exact fun s e hr hdet hcode => (onLive_leaves hr rfl (Die.unitError_named hdet hcode) : execUnitErrorDetected e s = _)
  case directory =>
    exact fun s e hr hdet hcode => (onLive_leaves hr rfl (Die.unitError_directory hdet hcode) : execUnitErrorDetected e s = _)
  case parity => exact fun s hr => (onLive_leaves hr rfl rfl : execFltSelfParity s = _)
  case stale =>
    intro s u epoch i hr hindex hold
    have hstale : ¬((epochIndex u).isNone = true ∨ epoch % 16 = s.die.unitEpoch u) := by
      rw [hindex]
      exact not_or.mpr ⟨Bool.false_ne_true, hold⟩
    exact (onLive_leaves hr rfl (if_neg hstale) : execStaleOutput u epoch s = _)

/-! ## Tests, interruptions and doorstop (R505–R520) -/

section SelfTest

variable {s : State} {x : Test}

/-- A waiting engine test that is late is skipped, and its target taken to have a lasting fault (R505). -/
theorem exec_testSkip_engine {seq : Nat} (hr : s.runs = true)
    (hfind : (s.die.flt.tests.filter fun (x : Test) => !x.running).find? (fun (x : Test) => decide (x.seq = seq)) = some x)
    (hkind : x.kind = 3) (hlate : x.queued + 100000 ≤ s.die.time) :
    exec (.testSkip seq) s = .next (s.withDie (
      let d1 := ((s.die.endTest x).stuEnd x.kind x.unit x.seq 3).markTested x.unit x.seq true
      if d1.flt.quarantine.contains x.unit then d1.quarantineEnd x.unit false else d1.engineLasting x.unit x.row)) := by
  have hline : ¬x.kind = 1 := by omega
  have hrow : ¬x.kind = 2 := by omega
  refine (onLive_leaves hr rfl ?_ : execTestSkip seq s = _)
  simp only [hfind, hlate, decide_true, Bool.not_true, Bool.false_eq_true, false_and, hline, hrow, ↓reduceIte]

/-- Where every shadow of a unit has ended, those of the other units are left (R516). -/
theorem exec_shadowEnd {u : Nat} (hr : s.runs = true)
    (hended : ∀ x : Shadow, x ∈ s.die.flt.shadows → x.unit = u → ∃ t, x.ends = some t ∧ t ≤ s.die.time) :
    exec (.shadowEnd u) s = .next (s.withDie { s.die with flt := { s.die.flt with
      shadows := s.die.flt.shadows.filter (fun (x : Shadow) => decide (x.unit ≠ u)) } }) := by
  refine (onLive_leaves hr rfl ?_ : execShadowEnd u s = _)
  refine congrArg (fun left => { s.die with flt := { s.die.flt with shadows := left } }) (List.filter_congr fun x hx => ?_)
  by_cases hmine : x.unit = u
  · obtain ⟨t, hends, hpast⟩ := hended x hx hmine
    simp only [hends, decide_eq_false (Nat.not_lt.mpr hpast), Bool.or_false]
  · simp only [ne_eq, hmine, not_false_eq_true, decide_true, Bool.true_or]

/-- A codec's substitution takes its spare and leaves every buffered store (R513, R514). -/
theorem exec_substitutionDone_codec {u sp c : Nat} (hr : s.runs = true) (hcodec : 0x8c ≤ u)
    (hfind : s.die.flt.subst.find? (fun (x : Nat × Nat × Nat) => decide (x.1 = u)) = some (u, sp, c)) :
    exec (.substitutionDone u []) s = .next (s.withDie (
      let d1 := s.die.setChan c { (s.die.chan c) with codec := sp - 0x90 }
      let f := d1.flt
      let ep := match epochIndex u with
        | some i => f.epoch.set 0 i ((Tbl.get 0 f.epoch i + 1) % 16)
        | none => f.epoch
      let f1 : Flt := { f with subst := f.subst.filter (fun (y : Nat × Nat × Nat) => decide (y.1 ≠ u)), epoch := ep,
                               dead := u :: f.dead, quarantine := f.quarantine ++ [u] }
      (({ d1 with flt := f1 }.resume u).laneRoom c))) := by
  have hcry : decide (u < 0x8c) = false := decide_eq_false (Nat.not_lt.mpr hcodec)
  have hnone (l : List LaneEnt) : l.filter (fun _ => false) = [] := List.filter_eq_nil_iff.mpr fun _ _ => Bool.false_ne_true
  have hall (l : List LaneEnt) : l.filter (fun _ => true) = l := List.filter_eq_self.mpr fun _ _ => rfl
  refine (onLive_leaves hr rfl ?_ : execSubstitutionDone u [] s = _)
  simp only [hfind, hcry, Bool.false_and, Bool.not_false, Bool.false_eq_true, ↓reduceIte, hnone, hall, List.foldl_nil] <;> rfl

end SelfTest

/-- Settles O31: row by row, each by the test, shadow or record it finds. -/
theorem selfTestEventsComplete : Obligations.SelfTestEventsComplete := by
  unfold Obligations.SelfTestEventsComplete
  refine ⟨?rowTest, ?rankSpare, ?engineTest, ?skip, ?quarantine, ?interruption, ?shadow, ?drain, ?substitution, ?window⟩
  case rowTest =>
    intro s ch slot row passed r x hr hfind
    refine (onLive_leaves hr rfl ?_ : execRowTestDone ch slot row passed r s = _)
    simp only [hfind]
  case rankSpare =>
    intro s ch lost hr hcopying
    exact (onLive_leaves hr rfl (if_neg (not_not_intro hcopying)) : execRankSpareDone { ch := ch, lost := lost } s = _)
  case engineTest =>
    intro s u passed x hr hfind
    refine (onLive_leaves hr rfl ?_ : execEngineTestDone u passed s = _)
    simp only [hfind]
  case skip => exact fun s seq x hr hfind hkind hlate => exec_testSkip_engine hr hfind hkind hlate
  case quarantine =>
    intro s u hr hin hon hnone
    have hstarts : ¬((!s.die.flt.quarantine.contains u) = true ∨
        s.die.flt.tests.any (fun (x : Test) => decide (x.kind = 3) && decide (x.unit = u)) = true ∨ s.die.flt.stuDisabled = true) := by
      rw [hin, hon, hnone]
      decide
    exact (onLive_leaves hr rfl (if_neg hstarts) : execQuarantineTestStart u s = _)
  case interruption => exact fun s u hr => (onLive_leaves hr rfl rfl : execInterruptionEnd u s = _)
  case shadow => exact fun s u hr hended => exec_shadowEnd hr hended
  case drain =>
    intro s hr hstop hcause hlane hwq
    exact (onLive_leaves hr rfl (if_pos ⟨hstop, hcause, hlane, hwq⟩) : execDoorstopDrainEnd s = _)
  case substitution => exact fun s u sp c hr hcodec hfind => exec_substitutionDone_codec hr hcodec hfind
  case window =>
    intro s r hr hwait left hclosed
    refine (onLive_leaves hr rfl ?_ : execInjectWindowClose s = _)
    simp only [hwait]
    exact if_neg (ne_true_of_eq_false hclosed)

end Sys2Proof.Machine
end
